-- ==== Sys2Proof/Word.lean ====
section
/-! DEFINITION. The word types of the FJ-816 model and their plainest arithmetic. -/

namespace Sys2Proof

/-- One byte. -/
abbrev Byte := BitVec 8

/-- The 64-bit word of registers, results and operand-stack slots. -/
abbrev W64 := BitVec 64

/-- A 32-bit word. -/
abbrev W32 := BitVec 32

/-- The raw 64 bytes of a mailbox command entry (R146); byte 0 is the least significant (R4). -/
abbrev Entry := BitVec 512

end Sys2Proof
end

