-- ==== Sys2Proof/Syntax.lean ====
section
/-! DEFINITION. The commands. -/

namespace Sys2Proof

/-- How a sector read decodes (R259): the symbol code's outcome is the memory's, not the model's. -/
inductive Ecc where
  | clean | corrected | uncorrectable
deriving DecidableEq, Repr

/-- The parity outcome of a word read from a stitch queue (R63). -/
inductive SqFault where
  | none | single | double
deriving DecidableEq, Repr

/-- How much of a 64-bit register an access takes (R8, R527). -/
inductive RegPart where
  | full | low | high
deriving DecidableEq, Repr

/-- What the examination of a drive found: whether NPRSNT# reads low (R554), the failed condition of R226, 1–7 in its order, 0
if usable; its size in LBAs and its MDTS in bytes. -/
structure DriveReport where
  fitted : Bool
  failed : Nat
  capacity : Nat
  mdts : Nat
deriving DecidableEq, Repr

/-- The host TLPs that R138 answers as violations 0x01 to 0x03. -/
inductive TlpKind where
  | malformed | unsupported | unexpected
deriving DecidableEq, Repr

/-- What a refused device read was reading (R134): a ring entry of a queue pair, a T2 row block, or anything else, with the queue
pair or tile that a log entry names and the host address. -/
inductive RefusedRead where
  | ring (n : Fin 64)
  | block (table : BitVec 20) (blk : BitVec 41)
  | other (unit : Fin 64) (addr : BitVec 64)
deriving DecidableEq, Repr

/-- What the boot ROM finds at stage S1 of a cold reset: the RECOVERY# strap reads low, the fuses and the identity page read well, and the
damaged boot banks and key slots (R90, R491, R513, R523, R547). -/
structure BootReport where
  strap : Bool
  fuseOk : Bool
  idOk : Bool
  badBanks : BitVec 2
  badSlots : BitVec 2
deriving DecidableEq, Repr

/-- What stage S3 finds: usable stacks, tiles and Henur ports, and the four drives (R89, R173, R226). -/
structure HardwareReport where
  stackSet : BitVec 8
  tiles : BitVec 16
  ports : BitVec 9
  drive0 : DriveReport
  drive1 : DriveReport
  drive2 : DriveReport
  drive3 : DriveReport
deriving DecidableEq, Repr

/-- The scopes of the three fences (R291). -/
inductive FenceScope where
  | thread | device | system
deriving DecidableEq, Repr

/-- The commands: one constructor per row of the table, with the row's operands. An operand is what the world outside the block supplies: a
value that is written, bytes that arrive, the outcome of an electrical or memory event, or which of several waiting items is meant. -/
inductive Instr where
  /-- NEGOTIATE: Grants the intersection of the proposed 128-bit feature word with the offered features and fixes it until the next reset. (R159) -/
  | negotiate (qp : Fin 64) (e : Entry)
  /-- IDENTIFY: Writes the 256-byte identify buffer, completing DEVICE_DEGRADED if any fitted resource is unusable. (R173) -/
  | identify (qp : Fin 64) (e : Entry)
  /-- QP_CREATE: Creates and enables queue pair 1–63 from queue pair 0, checking its rings under R140. (R141) -/
  | qpCreate (qp : Fin 64) (e : Entry)
  /-- QP_DELETE: Stops fetching, abandons unstarted commands and releases queue pair 1–63. (R163) -/
  | qpDelete (qp : Fin 64) (e : Entry)
  /-- BIND_OFF: Writes back dirty blocks, flushes drives, leaves the fabric and sets BOUND. (R96) -/
  | bindOff (qp : Fin 64) (e : Entry)
  /-- WARM_RESET: Posts its OK completion and then begins the warm reset quiesce. (R174) -/
  | warmReset (qp : Fin 64) (e : Entry)
  /-- RESET_REPORT: Returns the 64-byte report of the last reset. (R105) -/
  | resetReport (qp : Fin 64) (e : Entry)
  /-- AS_CREATE: Creates an address-space tag with its root table and adds its POOL frames to the pool. (R175) -/
  | asCreate (qp : Fin 64) (e : Entry)
  /-- AS_DESTROY: Destroys an address-space tag after invalidating it and withdrawing its POOL frames. (R175) -/
  | asDestroy (qp : Fin 64) (e : Entry)
  /-- PT_WRITE: Writes page-table units from the host buffer into T1 in ascending order. (R176) -/
  | ptWrite (qp : Fin 64) (e : Entry)
  /-- INVAL_TAG: Increments the tag's generation so older translations are retranslated. (R252) -/
  | invalTag (qp : Fin 64) (e : Entry)
  /-- INVAL_RANGE: Removes cached translations of a range and forwards the range to all 58 engines. (R253) -/
  | invalRange (qp : Fin 64) (e : Entry)
  /-- FAULT_RING_SET: Sets the host fault ring and writes pending records into it. (R177) -/
  | faultRingSet (qp : Fin 64) (e : Entry)
  /-- FAULT_RESUME: Replays or refuses every context waiting on an outstanding fault record. (R250) -/
  | faultResume (qp : Fin 64) (e : Entry)
  /-- TABLE_CREATE: Checks a 128-byte table descriptor and its row directory and creates the table. (R196) -/
  | tableCreate (qp : Fin 64) (e : Entry)
  /-- TABLE_DESTROY: Destroys a table, releasing its directory, LBAs, hot sets, replicas and refresh entries. (R178) -/
  | tableDestroy (qp : Fin 64) (e : Entry)
  /-- TABLE_QUERY: Returns a table's descriptor and its block counts per tier. (R215) -/
  | tableQuery (qp : Fin 64) (e : Entry)
  /-- HOTSET_LOAD: Copies locally owned rows into the Swatch of the masked tiles as a hot set. (R210) -/
  | hotsetLoad (qp : Fin 64) (e : Entry)
  /-- HOTSET_REFRESH: Creates a periodic hot-set refresh schedule entry. (R168) -/
  | hotsetRefresh (qp : Fin 64) (e : Entry)
  /-- HOTSET_DROP: Drops a hot set and removes its refresh entries. (R212) -/
  | hotsetDrop (qp : Fin 64) (e : Entry)
  /-- PREFETCH: Moves the row blocks of a virtual range to tier T1, T2 or T3. (R233) -/
  | prefetch (qp : Fin 64) (e : Entry)
  /-- ADVISE: Sets a residency hint on every block of a range without moving data. (R234) -/
  | advise (qp : Fin 64) (e : Entry)
  /-- REPLICA_SET: Writes replicas of a locally owned row range into Swatches or HBM stacks. (R181) -/
  | replicaSet (qp : Fin 64) (e : Entry)
  /-- REPLICA_DROP: Drops an existing replicated range of a table. (R172) -/
  | replicaDrop (qp : Fin 64) (e : Entry)
  /-- DRIVE_UNFENCE: Re-initialises a fenced drive and clears NO_HOME on its blocks. (R231) -/
  | driveUnfence (qp : Fin 64) (e : Entry) (r : DriveReport)
  /-- PATTERN_LOAD: Loads a pattern image for woven or plain mode and returns its handle. (R182) -/
  | patternLoad (qp : Fin 64) (e : Entry)
  /-- PATTERN_UNLOAD: Unloads a pattern handle that has no live launch. (R182) -/
  | patternUnload (qp : Fin 64) (e : Entry)
  /-- LAUNCH: Checks the launch block and starts a pattern launch of up to 2^24 threads. (R279) -/
  | launch (qp : Fin 64) (e : Entry)
  /-- STEP_OPEN: Opens the next step number, unmarked at once or at its mark. (R16) -/
  | stepOpen (qp : Fin 64) (e : Entry)
  /-- STEP_CONFIRM: Confirms a step and its speculation window, or is held behind the previous close. (R184) -/
  | stepConfirm (qp : Fin 64) (e : Entry)
  /-- STEP_CLOSE: Begins the seven journaled close stages of a step. (R391) -/
  | stepClose (qp : Fin 64) (e : Entry)
  /-- SPEC_OPEN: Schedules a speculation window for a step in open phase. (R361) -/
  | specOpen (qp : Fin 64) (e : Entry)
  /-- SPEC_ABANDON: Abandons the open speculation window and frogs its held packets. (R376) -/
  | specAbandon (qp : Fin 64) (e : Entry)
  /-- STEP_QUERY: Returns live steps, phases and speculation counters. (R186) -/
  | stepQuery (qp : Fin 64) (e : Entry)
  /-- TILE_RESET: Resets one tile: drains its Purl, ends its threads, clears its Swatch and flushes its queues. (R112) -/
  | tileReset (qp : Fin 64) (e : Entry)
  /-- FABRIC_ID: Sets the device's own 9-bit fabric id before any port joins. (R187) -/
  | fabricId (qp : Fin 64) (e : Entry)
  /-- PORT_CONFIG: Enables or disables a Henur port with its expected peer and violation limit. (R429) -/
  | portConfig (qp : Fin 64) (e : Entry)
  /-- SHARDMAP_LOAD: Loads a new shard-map generation, waiting for a close in progress. (R188) -/
  | shardmapLoad (qp : Fin 64) (e : Entry)
  /-- PORT_RESET: Resets a Henur port or an NVMe port. (R113) -/
  | portReset (qp : Fin 64) (e : Entry) (r : DriveReport)
  /-- PORT_UNFENCE: Resets a fenced Henur port and clears its violation counts. (R439) -/
  | portUnfence (qp : Fin 64) (e : Entry)
  /-- FABRIC_STATUS: Returns the 32-byte status record of every Henur port. (R442) -/
  | fabricStatus (qp : Fin 64) (e : Entry)
  /-- GAUGE_CONFIG: Sets beat rate, source, upstream port, downstream mask and cable delay while the schedule is empty. (R79) -/
  | gaugeConfig (qp : Fin 64) (e : Entry)
  /-- GAUGE_REBASE: Cancels every schedule entry and lets the receiver lock on a lower source numbering. (R87) -/
  | gaugeRebase (qp : Fin 64) (e : Entry)
  /-- SCHED_READ: Returns the 256 schedule entries with in-use and deferred bitmaps. (R74) -/
  | schedRead (qp : Fin 64) (e : Entry)
  /-- SCHED_CANCEL: Removes a schedule entry whose kind and beat match, abandoning its command. (R189) -/
  | schedCancel (qp : Fin 64) (e : Entry)
  /-- SCRUB_SLOT: Creates a scrub-slot schedule entry that puts the Scrubber in slotted mode. (R275) -/
  | scrubSlot (qp : Fin 64) (e : Entry)
  /-- TENSION_SLOT: Creates a tension-slot schedule entry at which grant increases apply. (R479) -/
  | tensionSlot (qp : Fin 64) (e : Entry)
  /-- POWER_CAP: Sets the host ceiling on device draw. (R190) -/
  | powerCap (qp : Fin 64) (e : Entry)
  /-- MON_READ: Returns the 88 monitor readings. (R471) -/
  | monRead (qp : Fin 64) (e : Entry)
  /-- THERM_LIMIT: Sets the limit of one thermal monitor below its trip threshold. (R474) -/
  | thermLimit (qp : Fin 64) (e : Entry)
  /-- LOG_READ: Returns error-log entries at the requested ring indices. (R460) -/
  | logRead (qp : Fin 64) (e : Entry)
  /-- LOG_MIRROR_SET: Enables or disables the host mirror of the error log. (R464) -/
  | logMirrorSet (qp : Fin 64) (e : Entry)
  /-- TALLY_AUDIT: Checks every ledger of the tally and writes the audit report. (R453) -/
  | tallyAudit (qp : Fin 64) (e : Entry)
  /-- TALLY_READ: Returns one ledger's record from a single reading. (R455) -/
  | tallyRead (qp : Fin 64) (e : Entry)
  /-- ID_READ: Returns the 1,024-byte factory identity. (R491) -/
  | idRead (qp : Fin 64) (e : Entry)
  /-- TAG_READ: Returns a user tag area and its write count. (R494) -/
  | tagRead (qp : Fin 64) (e : Entry)
  /-- TAG_WRITE: Replaces a user tag area atomically in module flash. (R495) -/
  | tagWrite (qp : Fin 64) (e : Entry)
  /-- KEY_UPDATE: Writes a signed new owner key into the slot not in force and commits it. (R503) -/
  | keyUpdate (qp : Fin 64) (e : Entry) (bad : Bool)
  /-- KEY_STATUS: Re-reads both owner key slots and reports their generations and validity. (R504) -/
  | keyStatus (qp : Fin 64) (e : Entry)
  /-- FW_STAGE: Stores a chunk of a firmware image or delta and starts the apply at LAST. (R510) -/
  | fwStage (qp : Fin 64) (e : Entry)
  /-- FW_ACTIVATE: Schedules the lock-required firmware activation of an applied image. (R517) -/
  | fwActivate (qp : Fin 64) (e : Entry)
  /-- FW_STATUS: Returns the 64-byte firmware status record. (R524) -/
  | fwStatus (qp : Fin 64) (e : Entry)
  /-- FW_CHAIN_SET: Sets the upstream port and downstream mask of the firmware chain. (R514) -/
  | fwChainSet (qp : Fin 64) (e : Entry)
  /-- FW_DISCARD: Discards staging, stops an apply, cancels activation and invalidates the inactive bank. (R522) -/
  | fwDiscard (qp : Fin 64) (e : Entry)
  /-- COMMAND_FETCH: The mailbox engine fetches a published command into a mailbox slot by class policy. (R156) -/
  | commandFetch (qp : Fin 64) (same : Bool)
  /-- INTERIM_COMPLETION: After DEFER_AFTER beats without effect a command posts one interim DEFERRED entry. (R157) -/
  | interimCompletion (qp : Fin 64) (cid : BitVec 16)
  /-- COAL_TIME_EXPIRY: The completion moderation timer expires and raises the queue pair's vector. (R158) -/
  | coalTimeExpiry (qp : Fin 64)
  /-- MB_SQ_TAIL: A submission doorbell write publishes commands to the mailbox engine. (R144) -/
  | mbSqTail (qp : Fin 64) (v : W32)
  /-- MB_CQ_HEAD: A completion doorbell write releases completion entries and lets waiting completions post. (R144) -/
  | mbCqHead (qp : Fin 64) (v : W32)
  /-- QP0_ENABLE: Writing EN from 0 to 1 latches and checks queue pair 0's rings and enables it. (R143) -/
  | qp0Enable (v : W64)
  /-- QP0_DISABLE: Writing EN 0 disables queue pair 0 as a deletion does. (R163) -/
  | qp0Disable (v : W64)
  /-- REINIT: Writing REINIT re-initialises a disabled or quarantined queue pair 0. (R164) -/
  | reinit (v : W64)
  /-- HL_AP_SLICE: A write sets an aperture slice's tag, base, class and rights for later BAR2 requests. (R129) -/
  | hlApSlice (k : Fin 8) (part : RegPart) (v : W64)
  /-- HL_VIOL_COUNT: A read returns and clears the count of host-side violations. (R531) -/
  | hlViolCount
  /-- HL_AP_REFUSED: A read returns and clears the count of refused BAR2 accesses. (R531) -/
  | hlApRefused
  /-- SQ_SEL: A write selects the stitch-queue instance shown by the SQ_ window. (R64) -/
  | sqSel (v : W32)
  /-- SQ_INFO: A read returns the selected instance's state and clears HIGH_WATER. (R64) -/
  | sqInfo (part : RegPart)
  /-- SQ_COUNT: A read returns and clears the selected instance's four counters together. (R65) -/
  | sqCount (part : RegPart)
  /-- ER_SUMMARY: A write of ones clears class pending bits. (R465) -/
  | erSummary (v : W32)
  /-- ER_COUNT: A read returns and clears the occurrence count of one error class. (R465) -/
  | erCount (k : Fin 5)
  /-- ER_MEM_SEL: A write selects the memory cell and stack for the ER_MEM registers. (R277) -/
  | erMemSel (v : W32)
  /-- ER_MEM_COUNT: A read returns and clears the selected cell's error counts. (R277) -/
  | erMemCount (part : RegPart)
  /-- ER_MEM_STACK: A read returns and clears the selected stack's error totals. (R277) -/
  | erMemStack (part : RegPart)
  /-- ER_MEM_POISON: A read returns poison and parking counts and clears REPAIRED. (R277) -/
  | erMemPoison (part : RegPart)
  /-- PM_EVENT: A write of ones clears power event bits. (R490) -/
  | pmEvent (v : W32)
  /-- PM_THROTTLE_US: A read returns and clears the microseconds spent throttled. (R490) -/
  | pmThrottleUs
  /-- TY_ALARM: A write of one clears the dropped-stitch ALARM bit. (R457) -/
  | tyAlarm (part : RegPart) (v : W64)
  /-- TX_FR_HEAD: A write releases fault-ring slots before the new head. (R249) -/
  | txFrHead (v : W32)
  /-- GG_BEAT: A read returns the beat count and latches the phase of the same instant. (R534) -/
  | ggBeat (part : RegPart)
  /-- GG_PHASE: A read returns the latched phase and releases the latch, or the current phase. (R534) -/
  | ggPhase
  /-- MSIX_UNMASK: Clearing a vector or function mask sends one message for each pending vector. (R136) -/
  | msixUnmask (v : Option (Fin 128))
  /-- REGISTER_WRITE: A write to a BAR0 register with no behaviour of its own updates its fields by access code. (R8) -/
  | registerWrite (off : BitVec 24) (size : Fin 9) (v : W64)
  /-- BAR2_READ: A host read through an aperture slice is translated and served or refused. (R128) -/
  | bar2Read (off : BitVec 36) (len : BitVec 16) (ecc : Ecc)
  /-- BAR2_WRITE: A host store through an aperture slice is translated and written or dropped. (R131) -/
  | bar2Write (off : BitVec 36) (data : List (Option Byte))
  /-- HOST_TLP_VIOLATION: A malformed, unsupported or unexpected TLP from the host gets its defined answer. (R138) -/
  | hostTlpViolation (kind : TlpKind) (addr : W64)
  /-- D3HOT_ENTRY: Entering D3hot stops BAR answers and holds every device-initiated request. (R120) -/
  | d3hotEntry
  /-- D0_RETURN: Returning to D0 releases held requests in order and sends pending MSI-X. (R120) -/
  | d0Return
  /-- BUS_MASTER_ENABLE_CLEAR: Clearing Bus Master Enable holds every device-initiated request. (R121) -/
  | busMasterEnableClear
  /-- BUS_MASTER_ENABLE_SET: Setting Bus Master Enable releases the held requests. (R121) -/
  | busMasterEnableSet
  /-- FLR: A function level reset runs a warm reset that drops queue pairs and resets configuration space. (R101) -/
  | flr
  /-- LINK_TRAINING_COMPLETE: The host link trains or retrains at a width and rate, logged when reduced. (R119) -/
  | linkTrainingComplete (width : Fin 17) (rate : Fin 7) (flit cxl : Bool)
  /-- DEVICE_READ_REFUSED: A device-initiated read ends with UR, CA or timeout and is answered by what it read. (R134) -/
  | deviceReadRefused (what : RefusedRead)
  /-- POWER_GOOD: Main and auxiliary inputs become valid and cast-on stage S0 ends. (R540) -/
  | powerGood
  /-- INPUT_VOLTAGE_EXCURSION: The main input leaves 38–62 V for over 50 µs and the module powers off. (R541) -/
  | inputVoltageExcursion (mv : W32)
  /-- RAIL_EXCURSION: A rail stays outside twice its window for over 100 µs and power good is removed. (R544) -/
  | railExcursion (rail : Fin 24) (mv : W32)
  /-- MOD_RESET_ASSERT: MOD_RESET# low for 10 µs starts a cold reset. (R547) -/
  | modResetAssert
  /-- MOD_RESET_DEASSERT: MOD_RESET# deassertion lets stage S1 begin. (R548) -/
  | modResetDeassert
  /-- WARM_RESET_ASSERT: WARM_RESET# low for 1 µs starts the warm reset quiesce. (R100) -/
  | warmResetAssert
  /-- WARM_RESET_DEASSERT: WARM_RESET# deassertion lets the warm bring-up begin. (R548) -/
  | warmResetDeassert
  /-- PERST_ASSERT: PERST# assertion starts a warm reset that drops queue pairs and resets the link. (R99) -/
  | perstAssert
  /-- PERST_DEASSERT: PERST# deassertion starts host link training. (R91) -/
  | perstDeassert
  /-- QUIESCE_COMPLETE: The quiesce ends with every accepted update applied, parked or in the retransmit store. (R100) -/
  | quiesceComplete (ns : W32)
  /-- QUIESCE_TIMEOUT: The quiesce passes 1 ms and the reset completes as a cold reset. (R100) -/
  | quiesceTimeout (ns : W32)
  /-- CAST_ON_S1: The boot ROM reads fuses, selects a boot bank and checks keys. (R90) -/
  | castOnS1 (b : BootReport)
  /-- CAST_ON_S2: The selected boot bank is loaded into Pyrat-M SRAM with its signature checked. (R89) -/
  | castOnS2
  /-- CAST_ON_S3: The firmware trains HBM, makes reservations, sets exponents, recounts and examines the journal. (R89) -/
  | castOnS3 (h : HardwareReport)
  /-- CAST_ON_S4: The host link function enables BAR2, MSI-X and device-initiated writes. (R91) -/
  | castOnS4
  /-- CAST_ON_S5: READY is set and queue pair 0 is serviced, acting on held doorbells. (R92) -/
  | castOnS5
  /-- CAST_ON_S7: The device becomes operational; Henur ports train and gauge lock begins. (R93) -/
  | castOnS7
  /-- STAGE_TIME_EXCEEDED: A cast-on stage passes its maximum time and the device is held with FAIL_CODE. (R95) -/
  | stageTimeExceeded
  /-- CLOSE_RESUME: After S5 a close interrupted by a warm reset restarts its interrupted stage. (R106) -/
  | closeResume
  /-- GWORD_FRAME: A beat edge with its GWORD frame is accepted or rejected as a good beat. (R68) -/
  | gwordFrame (frame : BitVec 80) (since : W64) (off : Int)
  /-- GAUGE_LOCK: After 16 consecutive good beats the receiver enters LOCKED and renumbers under R86. (R78) -/
  | gaugeLock
  /-- MISSING_EDGE: No beat arrives at its predicted edge and the receiver switches source or enters HOLDOVER. (R88) -/
  | missingEdge (src : Fin 2)
  /-- LOCAL_BEAT: The receiver generates a beat from the local oscillator while not locked. (R81) -/
  | localBeat
  /-- HOLDOVER_BEAT_1000: At holdover beat 1,000 the receiver enters FREE_RUN and abandons deferred confirms. (R84) -/
  | holdoverBeat1000
  /-- RESUME_MARK: Deferred events run at the first multiple-of-256 beat after re-lock. (R83) -/
  | resumeMark
  /-- STEP_CONFIRM_MARK: A step confirm entry fires and the confirm takes effect, is held or is deferred. (R167) -/
  | stepConfirmMark (i : Fin 256)
  /-- SPECULATION_WINDOW_DEADLINE: A window deadline entry fires and abandons an unconfirmed window. (R361) -/
  | speculationWindowDeadline (i : Fin 256)
  /-- STEP_CONFIRM_DEADLINE: A step confirm deadline fires before confirm and abandons the step's window. (R21) -/
  | stepConfirmDeadline (i : Fin 256)
  /-- STEP_CLOSE_MARK: A step close entry fires and close stage 1 begins. (R167) -/
  | stepCloseMark (i : Fin 256)
  /-- TABLE_VERSION_FLIP: A flip entry fires and lets close stage 6 flip the table version. (R75) -/
  | tableVersionFlip (i : Fin 256)
  /-- STEP_OPEN_MARK: A step open entry fires and the step opens if its state conditions hold. (R167) -/
  | stepOpenMark (i : Fin 256)
  /-- SPECULATION_WINDOW_OPEN: A window open entry fires and the window becomes OPEN if R22 holds. (R361) -/
  | speculationWindowOpen (i : Fin 256)
  /-- HOT_SET_REFRESH: A hot-set refresh entry fires and rewrites stale rows of the set. (R212) -/
  | hotSetRefresh (i : Fin 256)
  /-- SCRUB_SLOT_BEGIN: A scrub slot entry fires and the Scrubber scrubs its quota within the slot. (R275) -/
  | scrubSlotBegin (i : Fin 256)
  /-- TENSION_SLOT_FIRING: A tension slot entry fires and a pending grant increase starts its ramp. (R479) -/
  | tensionSlotFiring (i : Fin 256)
  /-- FIRMWARE_ACTIVATION: The activation entry fires; the pause hands the device to the new image. (R517) -/
  | firmwareActivation (i : Fin 256)
  /-- SELF_CONFIRMATION: A TRIAL image confirms itself and its bank record becomes CONFIRMED. (R519) -/
  | selfConfirmation
  /-- TRIAL_WINDOW_EXPIRY: The 30 s trial window expires; the trial fails and a warm reset restores the previous image. (R520) -/
  | trialWindowExpiry
  /-- APPLY_COMPLETE: The apply of a staged image or delta writes and verifies the inactive bank. (R512) -/
  | applyComplete
  /-- SQ_PACKET_COMMIT: A producer writes a packet's last word and the packet becomes visible. (R51) -/
  | sqPacketCommit (id : BitVec 12) (words : List W64)
  /-- SQ_BAD_FLAG: A producer flags its packet bad and the instance frogs it. (R52) -/
  | sqBadFlag (id : BitVec 12)
  /-- SQ_FLUSH_REQUEST: An owning block requests a flush of a stitch-queue instance. (R54) -/
  | sqFlushRequest (id : BitVec 12)
  /-- SQ_FLUSH_TAKES_EFFECT: The flush takes effect at the producer's packet boundary and the epoch advances. (R54) -/
  | sqFlushTakesEffect (id : BitVec 12)
  /-- SQ_CONSUMER_READ: A consumer reads a word, with SEC-DED correction or packet discard. (R63) -/
  | sqConsumerRead (id : BitVec 12) (fault : SqFault)
  /-- STALE_TAIL_TIMEOUT: The stale-tail timer fires and TAIL makes the consumer read down to EMPTY. (R61) -/
  | staleTailTimeout (id : BitVec 12) (canRead : Bool)
  /-- NOP: Occupies one issue with no effect. (R326) -/
  | nop (tile : Fin 17) (ctx : Fin 512)
  /-- DUP: Pushes a copy of the top word. (R326) -/
  | dup (tile : Fin 17) (ctx : Fin 512)
  /-- SWAP: Exchanges the top two words. (R326) -/
  | swap (tile : Fin 17) (ctx : Fin 512)
  /-- DROP: Pops the top word. (R326) -/
  | drop (tile : Fin 17) (ctx : Fin 512)
  /-- OVER: Pushes a copy of S1. (R326) -/
  | over_ (tile : Fin 17) (ctx : Fin 512)
  /-- ROT: Brings S2 to the top. (R326) -/
  | rot (tile : Fin 17) (ctx : Fin 512)
  /-- PICK: Pushes a copy of the word at depth n. (R326) -/
  | pick (tile : Fin 17) (ctx : Fin 512)
  /-- PUSHI: Pushes a sign-extended immediate. (R326) -/
  | pushi (tile : Fin 17) (ctx : Fin 512)
  /-- PUSHX: Shifts the top word left 16 and ors in the immediate. (R326) -/
  | pushx (tile : Fin 17) (ctx : Fin 512)
  /-- ADD: Pops two words and pushes their sum modulo 2^64. (R328) -/
  | add (tile : Fin 17) (ctx : Fin 512)
  /-- SUB: Pops two words and pushes a minus b. (R328) -/
  | sub (tile : Fin 17) (ctx : Fin 512)
  /-- AND: Pushes the bitwise and of two words. (R328) -/
  | and (tile : Fin 17) (ctx : Fin 512)
  /-- OR: Pushes the bitwise or of two words. (R328) -/
  | or (tile : Fin 17) (ctx : Fin 512)
  /-- XOR: Pushes the bitwise exclusive or of two words. (R328) -/
  | xor (tile : Fin 17) (ctx : Fin 512)
  /-- ANDN: Pushes a and not b. (R328) -/
  | andn (tile : Fin 17) (ctx : Fin 512)
  /-- NEG: Pushes the two's-complement negation. (R328) -/
  | neg (tile : Fin 17) (ctx : Fin 512)
  /-- NOT: Pushes the bitwise complement. (R328) -/
  | not (tile : Fin 17) (ctx : Fin 512)
  /-- MINS: Pushes the signed minimum. (R328) -/
  | mins (tile : Fin 17) (ctx : Fin 512)
  /-- MAXS: Pushes the signed maximum. (R328) -/
  | maxs (tile : Fin 17) (ctx : Fin 512)
  /-- MINU: Pushes the unsigned minimum. (R328) -/
  | minu (tile : Fin 17) (ctx : Fin 512)
  /-- MAXU: Pushes the unsigned maximum. (R328) -/
  | maxu (tile : Fin 17) (ctx : Fin 512)
  /-- SHL: Shifts left by an immediate or stack amount. (R328) -/
  | shl (tile : Fin 17) (ctx : Fin 512)
  /-- SHR: Shifts right with zero fill. (R328) -/
  | shr (tile : Fin 17) (ctx : Fin 512)
  /-- SAR: Shifts right with sign fill. (R328) -/
  | sar (tile : Fin 17) (ctx : Fin 512)
  /-- ROL: Rotates left. (R328) -/
  | rol (tile : Fin 17) (ctx : Fin 512)
  /-- CLZ: Pushes the count of leading zero bits. (R330) -/
  | clz (tile : Fin 17) (ctx : Fin 512)
  /-- POPC: Pushes the count of one bits. (R330) -/
  | popc (tile : Fin 17) (ctx : Fin 512)
  /-- BPERM: Permutes or sign-fills bytes by a nibble selector. (R330) -/
  | bperm (tile : Fin 17) (ctx : Fin 512)
  /-- BFX: Extracts a bit field, zero- or sign-extended. (R329) -/
  | bfx (tile : Fin 17) (ctx : Fin 512)
  /-- BFI: Inserts a bit field into a word. (R329) -/
  | bfi (tile : Fin 17) (ctx : Fin 512)
  /-- MUL: Starts an unsigned 128-bit product delivered into ML and MH. (R331) -/
  | mul (tile : Fin 17) (ctx : Fin 512)
  /-- MULH: Starts a signed 128-bit product delivered into ML and MH. (R331) -/
  | mulh (tile : Fin 17) (ctx : Fin 512)
  /-- CMP: Compares two words and writes a predicate. (R332) -/
  | cmp (tile : Fin 17) (ctx : Fin 512)
  /-- PLOG: Combines two predicates into a third. (R333) -/
  | plog (tile : Fin 17) (ctx : Fin 512)
  /-- PFROM: Writes a predicate from a popped word. (R333) -/
  | pfrom (tile : Fin 17) (ctx : Fin 512)
  /-- PTO: Pushes a predicate as 0 or 1. (R333) -/
  | pto (tile : Fin 17) (ctx : Fin 512)
  /-- LD: Loads 1–8 bytes from a segment and pushes the value. (R334) -/
  | ld (tile : Fin 17) (ctx : Fin 512) (ecc : Ecc)
  /-- LOAD_DATA_ARRIVAL: A load, fill or returning atomic's data arrives and the held thread becomes ready. (R306) -/
  | loadDataArrival (tile : Fin 17) (ctx : Fin 512)
  /-- ST: Stores the low bytes of a popped value into a segment. (R334) -/
  | st (tile : Fin 17) (ctx : Fin 512)
  /-- AADD: Adds a value into memory as one atomic read-modify-write. (R335) -/
  | aadd (tile : Fin 17) (ctx : Fin 512)
  /-- BCOPY: Issues an asynchronous block copy between segments. (R336) -/
  | bcopy (tile : Fin 17) (ctx : Fin 512)
  /-- BCOPY_COMPLETION: A block copy finishes or faults and decrements its counter. (R336) -/
  | bcopyCompletion (i : Nat)
  /-- BR: Branches always. (R337) -/
  | br (tile : Fin 17) (ctx : Fin 512)
  /-- BZ: Pops a word and branches if it is zero. (R337) -/
  | bz (tile : Fin 17) (ctx : Fin 512)
  /-- BNZ: Pops a word and branches if it is non-zero. (R337) -/
  | bnz (tile : Fin 17) (ctx : Fin 512)
  /-- CALL: Pushes a return offset and branches. (R338) -/
  | call (tile : Fin 17) (ctx : Fin 512)
  /-- CALLI: Pops a target, pushes a return offset and branches. (R338) -/
  | calli (tile : Fin 17) (ctx : Fin 512)
  /-- BRI: Pops a target and branches. (R338) -/
  | bri (tile : Fin 17) (ctx : Fin 512)
  /-- RET: Pops a return offset and branches. (R338) -/
  | ret (tile : Fin 17) (ctx : Fin 512)
  /-- END: Ends the thread normally. (R339) -/
  | end_ (tile : Fin 17) (ctx : Fin 512)
  /-- RDS: Pushes a special register. (R340) -/
  | rds (tile : Fin 17) (ctx : Fin 512)
  /-- WRS: Pops a word into a writable special register. (R340) -/
  | wrs (tile : Fin 17) (ctx : Fin 512)
  /-- RDWAIT: Pushes the wait counter and latest resource id, optionally clearing them. (R340) -/
  | rdwait (tile : Fin 17) (ctx : Fin 512)
  /-- SGRD: Pushes the two words of a segment descriptor. (R340) -/
  | sgrd (tile : Fin 17) (ctx : Fin 512)
  /-- WAITC: Waits until a counter is at most n, then pushes and clears its latched status. (R288) -/
  | waitc (tile : Fin 17) (ctx : Fin 512)
  /-- FENCE_T: Holds the thread until its earlier accesses are performed at thread scope. (R291) -/
  | fenceT (tile : Fin 17) (ctx : Fin 512)
  /-- FENCE_D: Holds the thread until its earlier accesses are performed at device scope. (R291) -/
  | fenceD (tile : Fin 17) (ctx : Fin 512)
  /-- FENCE_S: Holds the thread until its earlier accesses and ROW_ADDs are performed at system scope. (R291) -/
  | fenceS (tile : Fin 17) (ctx : Fin 512)
  /-- GATHER: Hands a Hook descriptor gathering table rows to the Hook. (R347) -/
  | gather (tile : Fin 17) (ctx : Fin 512) (same : Bool)
  /-- POOL: Hands a Hook descriptor pooling bags to the Hook and Bag Unit. (R347) -/
  | pool (tile : Fin 17) (ctx : Fin 512) (same : Bool)
  /-- GATHER_ADDR: Hands a Hook descriptor copying raw rows by segment offset to the Hook. (R360) -/
  | gatherAddr (tile : Fin 17) (ctx : Fin 512) (same : Bool)
  /-- GATHER_RESUME: Continues a retained partial Hook operation from a restart index. (R359) -/
  | gatherResume (tile : Fin 17) (ctx : Fin 512) (same : Bool)
  /-- ROW_ADD: Hands a ROW_ADD descriptor chain to the Purl for acceptance. (R379) -/
  | rowAdd (tile : Fin 17) (ctx : Fin 512) (same : Bool)
  /-- STREAM: Activates a stream descriptor for pre-walking. (R246) -/
  | stream (tile : Fin 17) (ctx : Fin 512)
  /-- MXOP: Hands an MXOP descriptor to the tile's Matrix Unit queue. (R403) -/
  | mxop (tile : Fin 17) (ctx : Fin 512)
  /-- THREAD_PLACEMENT: The work distributor places a waiting thread on the tile with the most free contexts. (R281) -/
  | threadPlacement
  /-- CLAIM_GRANT: A freed unit is granted to the head waiting claim of the highest eligible class. (R449) -/
  | claimGrant (res : BitVec 16) (scope : BitVec 16)
  /-- HOOK_ELEMENT_RETURN: A fetched row arrives and elements commit in order, finishing bags and the operation. (R349) -/
  | hookElementReturn (tile : Fin 16) (id elem : Nat) (ecc : Ecc)
  /-- OPERATION_VALIDATION: At confirm a held speculative operation is validated, re-read and written out. (R372) -/
  | operationValidation (tile : Fin 16) (id : Nat)
  /-- LOAD: The Matrix Unit copies rows from memory to staging with conversion or expansion. (R404) -/
  | load (tile : Fin 16)
  /-- STORE: The Matrix Unit writes staged rows to memory with conversion. (R415) -/
  | store (tile : Fin 16)
  /-- MATMUL: The Matrix Unit multiplies staged matrices into its accumulators and may drain them. (R408) -/
  | matmul (tile : Fin 16)
  /-- ELEMWISE: The Matrix Unit applies an elementwise operation to staged FP32 data. (R414) -/
  | elemwise (tile : Fin 16)
  /-- SEED: The Matrix Unit sets the tile LFSR state. (R413) -/
  | seed (tile : Fin 16)
  /-- MATRIX_OPERATION_COMPLETE: A Matrix Unit operation finishes, writes its result record and decrements its counter. (R416) -/
  | matrixOperationComplete (tile : Fin 16)
  /-- FLOAT_ADD: An HBM adder applies one float-add update to its target row. (R385) -/
  | floatAdd (src : Fin 17) (i : Nat)
  /-- EXACT_ADD: An HBM adder adds one update into the row's exact-add accumulator. (R387) -/
  | exactAdd (src : Fin 17) (i : Nat)
  /-- CLOSE_STAGE_1: Drain local ends once step gathers have completed and Purl slots of the step are empty. (R19) -/
  | closeStage1
  /-- CLOSE_STAGE_2: Drain fabric ends once own updates are acknowledged and DRAIN has arrived from every peer. (R392) -/
  | closeStage2
  /-- CLOSE_STAGE_3: Balance compares the update ledgers of the step. (R453) -/
  | closeStage3
  /-- CLOSE_STAGE_4: Convert writes every exact-add target from its accumulator and releases it. (R388) -/
  | closeStage4
  /-- CLOSE_STAGE_5: Refresh rewrites stale replicas from their primaries. (R209) -/
  | closeStage5
  /-- CLOSE_STAGE_6: Flip sets the closed step and applies updates of n+1 held under R20. (R391) -/
  | closeStage6
  /-- CLOSE_STAGE_7: Release clears HOT01, queues write-backs, writes the step record and completes STEP_CLOSE. (R391) -/
  | closeStage7
  /-- WALK_COMPLETE: A Translation Hub walk ends at a leaf, a V=0 entry or a malformed entry. (R236) -/
  | walkComplete (tag : BitVec 12) (va : BitVec 52)
  /-- STREAM_PREWALK: The Hub walks pages ahead of an active stream's highest accessed page. (R246) -/
  | streamPrewalk (tile : Fin 16) (purl : Bool) (k : Fin 16)
  /-- FAULT_RECORD_WRITE: A pending fault record is written into a released fault-ring slot. (R249) -/
  | faultRecordWrite
  /-- FAULT_WATCHDOG: Each second with a record outstanding the Hub raises vector 65. (R251) -/
  | faultWatchdog
  /-- INVAL_ACK: An engine acknowledges a range invalidation and the last ack runs the pool update. (R253) -/
  | invalAck (i : Nat) (engine : Fin 58)
  /-- FAULT_IN_COMPLETE: A fault-in fill ends or fails and the stalled engines replay or fault. (R217) -/
  | faultInComplete (table : BitVec 20) (blk : BitVec 41)
  /-- WRITE_BACK_COMPLETE: A write-back ends, is journaled DONE and the directory entry is updated. (R222) -/
  | writeBackComplete (table : BitVec 20) (blk : BitVec 41)
  /-- DEALLOCATE_COMPLETE: A Dataset Management deallocate of an old home completes and is journaled. (R222) -/
  | deallocateComplete (port : Fin 4) (table : BitVec 20) (blk : BitVec 41) (lba : W64)
  /-- NVME_COMPLETION: An NVMe completion arrives and is matched, or counted as a drive fault. (R229) -/
  | nvmeCompletion (port : Fin 4) (id : Nat) (headOk ok : Bool)
  /-- NVME_COMMAND_TIMEOUT: An NVMe command not completed within 8 s is aborted. (R229) -/
  | nvmeCommandTimeout (port : Fin 4) (id : Nat)
  /-- NVME_ABORT_TIMEOUT: An aborted command not completed in 2 s more is counted again and abandoned. (R229) -/
  | nvmeAbortTimeout (port : Fin 4) (id : Nat)
  /-- CONTROLLER_FATAL_STATUS: A drive's CSTS.CFS becomes 1 and the drive is fenced. (R229) -/
  | controllerFatalStatus (port : Fin 4)
  /-- NVME_LINK_DOWN: An NVMe port's link goes down and its drive is fenced. (R229) -/
  | nvmeLinkDown (port : Fin 4)
  /-- SCRUB_READ: The Scrubber reads a sector, correcting, poisoning or retrying repair. (R276) -/
  | scrubRead (stack : Fin 8) (ecc : Ecc)
  /-- REPAIR_COMPLETE: A repair source read ends and the sector is rewritten clean or the next source tried. (R265) -/
  | repairComplete (sector : BitVec 39) (ok : Bool)
  /-- D2D_RETRY_EXHAUSTED: A die-to-die link error survives 16 retries and is a fatal error. (R41) -/
  | d2dRetryExhausted (link : Fin 4)
  /-- PORT_TRAINED: All 8 plies of a Henur port train and the round trip is measured before join. (R420) -/
  | portTrained (port : Fin 9) (now : W64)
  /-- PLY_FAILURE: A failing ply takes its port down and the port is reset. (R420) -/
  | plyFailure (port : Fin 9) (ply : Fin 8)
  /-- LINK_CONTROL_FLIT: A received ACK or NAK releases replay-buffer flits or starts a replay. (R422) -/
  | linkControlFlit (port : Fin 9) (ack : Fin 1024) (valid nak : Bool)
  /-- REPLAY_TIMEOUT: ACK has not advanced for 4 µs and the sender replays. (R422) -/
  | replayTimeout (port : Fin 9)
  /-- ACK_TIMER: 1 µs after accepting a flit the receiver sends an ACK. (R422) -/
  | ackTimer (port : Fin 9)
  /-- CREDIT_RETURN_TIMER: 1 µs after freeing credits the receiver sends a CREDIT message. (R425) -/
  | creditReturnTimer (port : Fin 9)
  /-- ROW_GET: An owner receives a ROW_GET and serves the row or a ROW_NAK. (R435) -/
  | rowGet (port : Fin 9) (vc : Fin 5) (m : List Byte)
  /-- ROW_DATA: A requester receives ROW_DATA for an outstanding request or validation. (R427) -/
  | rowData (port : Fin 9) (vc : Fin 5) (m : List Byte)
  /-- ROW_ADD_RECEIVED: A receiver applies, parks or deduplicates a ROW_ADD and acknowledges it. (R382) -/
  | rowAddReceived (port : Fin 9) (vc : Fin 5) (m : List Byte)
  /-- ROW_ACK: A ROW_ACK removes its update from the retransmit store. (R380) -/
  | rowAck (port : Fin 9) (vc : Fin 5) (m : List Byte)
  /-- ROW_NAK: A ROW_NAK makes the requester fault, reroute, wait or refuse the update. (R436) -/
  | rowNak (port : Fin 9) (vc : Fin 5) (m : List Byte)
  /-- CREDIT: A CREDIT message returns flit credits on each VC. (R425) -/
  | credit (port : Fin 9) (m : List Byte)
  /-- GAUGE: An in-band GAUGE message is accepted as a beat or ignored, and forwarded downstream. (R71) -/
  | gauge (port : Fin 9) (m : List Byte) (since : W64) (off : Int)
  /-- FW_CHUNK: A firmware chunk from upstream is stored and forwarded, or dropped. (R516) -/
  | fwChunk (port : Fin 9) (m : List Byte)
  /-- HELLO: A peer's HELLO decides whether the port joins. (R429) -/
  | hello (port : Fin 9) (m : List Byte)
  /-- ECHO_REQ: A CTRL echo request is answered with ECHO_RSP. (R70) -/
  | echoReq (port : Fin 9) (m : List Byte) (hold : W64)
  /-- ECHO_RSP: An echo response gives the link's one-way delay. (R70) -/
  | echoRsp (port : Fin 9) (m : List Byte) (now : W64)
  /-- LINK_DELAY_MEASURE: Every 2^20 beats the port starts a CTRL echo exchange. (R70) -/
  | linkDelayMeasure (port : Fin 9) (now : W64)
  /-- LINK_STATE: A newer LINK_STATE updates the link state and is flooded onward. (R430) -/
  | linkState (port : Fin 9) (m : List Byte)
  /-- LINK_STATE_PERIOD: Every 100 ms the device floods its LINK_STATE. (R430) -/
  | linkStatePeriod
  /-- ORIGIN_TIMEOUT: An origin not heard for 300 ms is removed from the link state. (R430) -/
  | originTimeout (origin : Fin 512)
  /-- ROUTE_RECOMPUTE: After a link-state change the device switches to new up*/down* routes. (R431) -/
  | routeRecompute
  /-- DRAIN: A received DRAIN(n) is recorded for close stage 2, answered once, or discarded. (R559) -/
  | drain (port : Fin 9) (m : List Byte)
  /-- LEAVE: A peer's LEAVE takes the port down and removes an orderly leaver from the close peer set. (R392) -/
  | leave (port : Fin 9) (m : List Byte)
  /-- MESSAGE_FORWARD: A message for another device is forwarded on its routed port or answered UNREACHABLE. (R432) -/
  | messageForward (port : Fin 9) (vc : Fin 5) (m : List Byte)
  /-- ROW_GET_REISSUE: A ROW_GET unanswered after 200 µs is reissued with a new REQ. (R435) -/
  | rowGetReissue (req : W32)
  /-- ROW_ADD_RESEND: An unacknowledged ROW_ADD is resent after 200 µs or at a route change. (R435) -/
  | rowAddResend (dest : Fin 512) (seqNo : W64)
  /-- NOT_OWNER_RESEND: While a lagging owner answers NOT_OWNER the message is resent every 1 ms. (R437) -/
  | notOwnerResend (dest : Fin 512)
  /-- AUDIT_REREAD: A ledger in deficit under a bounded window is re-read after its bound. (R453) -/
  | auditReread (ledger : BitVec 16)
  /-- RATE_LIMIT_FLUSH: At the end of a millisecond merged occurrences are logged with REPEAT. (R462) -/
  | rateLimitFlush (cause : Byte) (unit : BitVec 16)
  /-- MONITOR_SAMPLE: A monitor is sampled and its reading checked against its limit. (R470) -/
  | monitorSample (mon : Fin 88) (v : BitVec 16)
  /-- THERMAL_RELEASE: After 1 ms 3 °C below the limit the thermal governor releases pressure. (R474) -/
  | thermalRelease (mon : Fin 88)
  /-- THERM_TRIP: A monitor at its trip threshold drives THERM_TRIP# and forces the fatal state. (R475) -/
  | thermTrip (mon : Fin 48) (v : BitVec 16)
  /-- POWER_CONTROL_TICK: Every 10 µs the power controller compares draw with the cap and moves the ladder. (R483) -/
  | powerControlTick (watts : BitVec 16)
  /-- RAMP_STEP: Every 100 µs during a ramp the effective cap rises by up to 50 W. (R482) -/
  | rampStep
  /-- GRANT_DECREASE: A committed grant decrease takes effect at its grant beat. (R479) -/
  | grantDecrease
  /-- PWR_BRAKE_ASSERT: PWR_BRAKE# asserted for 1 µs moves every ladder to the bottom. (R487) -/
  | pwrBrakeAssert
  /-- PWR_BRAKE_DEASSERT: PWR_BRAKE# deassertion lets the cap ramp back toward its target. (R487) -/
  | pwrBrakeDeassert
  /-- GRANT_W: A PLDM write of effecter 200 sets the pending grant wattage. (R478) -/
  | grantW (w : BitVec 16)
  /-- GRANT_BEAT: A PLDM write of effecter 201 commits the pending grant. (R478) -/
  | grantBeat (b : W32)
  /-- ENTDAA: A dynamic address assignment ends standalone mode and drops the grant to 450 W. (R481) -/
  | entdaa (a : BitVec 7)
  /-- SET_ENDPOINT_ID: MCTP control command setting the endpoint id. (R477) -/
  | setEndpointId (eid : Byte)
  /-- GET_ENDPOINT_ID: MCTP control command returning the endpoint id. (R477) -/
  | getEndpointId
  /-- GET_MCTP_VERSION_SUPPORT: MCTP control command returning supported versions. (R477) -/
  | getMctpVersionSupport
  /-- GET_MESSAGE_TYPE_SUPPORT: MCTP control command returning supported message types. (R477) -/
  | getMessageTypeSupport
  /-- GET_TID: PLDM base command returning the terminus id. (R477) -/
  | getTid
  /-- GET_PLDM_VERSION: PLDM base command returning a type's version. (R477) -/
  | getPldmVersion (type : Byte)
  /-- GET_PLDM_TYPES: PLDM base command reporting types 0, 2 and 4. (R498) -/
  | getPldmTypes
  /-- GET_PLDM_COMMANDS: PLDM base command listing a type's commands. (R477) -/
  | getPldmCommands (type : Byte)
  /-- GET_PDR_REPOSITORY_INFO: PLDM platform command describing the PDR repository. (R488) -/
  | getPdrRepositoryInfo
  /-- GET_PDR: PLDM platform command returning a PDR. (R488) -/
  | getPdr (id : BitVec 16)
  /-- GET_SENSOR_READING: PLDM platform command returning a numeric sensor reading. (R488) -/
  | getSensorReading (id : BitVec 16)
  /-- GET_STATE_SENSOR_READINGS: PLDM platform command returning state sensors 110 and 111. (R488) -/
  | getStateSensorReadings (id : BitVec 16)
  /-- GET_NUMERIC_EFFECTER_VALUE: PLDM platform command returning an effecter value. (R488) -/
  | getNumericEffecterValue (id : BitVec 16)
  /-- SET_EVENT_RECEIVER: PLDM platform command setting the receiver of sensor events. (R488) -/
  | setEventReceiver (receiver : Option Byte)
  /-- GET_FRU_RECORD_TABLE_METADATA: PLDM FRU command describing the record table. (R498) -/
  | getFruRecordTableMetadata
  /-- GET_FRU_RECORD_TABLE: PLDM FRU command returning one snapshot of identity and tags. (R498) -/
  | getFruRecordTable (first : Bool)
  /-- UNSUPPORTED_SIDEBAND_REQUEST: An unsupported MCTP or PLDM request is answered with an error and no effect. (R477) -/
  | unsupportedSidebandRequest
  /-- GET_VERSION: SPDM request returning version 1.2 and resetting the session state. (R506) -/
  | getVersion
  /-- GET_CAPABILITIES: SPDM request returning CERT, CHAL and MEAS capabilities. (R506) -/
  | getCapabilities (ver : Byte)
  /-- NEGOTIATE_ALGORITHMS: SPDM request selecting P-384 and SHA-384. (R506) -/
  | negotiateAlgorithms (ver : Byte)
  /-- GET_DIGESTS: SPDM request returning the certificate chain digest of slot 0. (R506) -/
  | getDigests (ver : Byte)
  /-- GET_CERTIFICATE: SPDM request returning the slot 0 certificate chain. (R506) -/
  | getCertificate (ver : Byte) (slot : Fin 8) (off len : BitVec 16)
  /-- CHALLENGE: SPDM request answered with a response signed by the device-unique key. (R506) -/
  | challenge (ver : Byte) (slot : Fin 8)
  /-- GET_MEASUREMENTS: SPDM request returning the six measurement blocks. (R507) -/
  | getMeasurements (ver index : Byte) (sign : Bool)
  /-- SPDM_UNSUPPORTED_REQUEST: An unimplemented SPDM request or version is answered with an error. (R506) -/
  | spdmUnsupportedRequest (ver : Byte)
  /-- FLIT: A sequenced flit arrives on a Henur port and is accepted, or discarded with a NAK for a bad CRC, a sequence gap or a VC with no credit. (R422) -/
  | flit (port : Fin 9) (f : BitVec 2048)
  /-- H2D_SNOOP: A CXL.cache H2D snoop from the host is answered RspIHitI. (R122) -/
  | h2dSnoop
  /-- DOE_DISCOVERY: A DOE Discovery request from the host is answered with the supported DOE protocols. (R116) -/
  | doeDiscovery (index : Byte)
  /-- SCRUB_SLOT_END: A scrub slot's length runs out; the Scrubber stops, or returns to background mode at the end of a one-shot slot. (R275) -/
  | scrubSlotEnd
  /-- AUX_INPUT_REMOVED: The 3.3 V auxiliary input is removed and the always-on domain, the trip latch and the THERM_TRIP# driver lose power. (R548) -/
  | auxInputRemoved
  /-- ACCESS_PERFORMED: An earlier store or other write of a thread becomes performed at a fence's scope, releasing a thread held in that fence. (R291) -/
  | accessPerformed (tile : Fin 17) (ctx : Fin 512) (scope : FenceScope)
deriving DecidableEq, Repr

end Sys2Proof
end

