-- ==== Sys2Proof/WellFormed.lean ====
section
/-! DEFINITION. Well-formed commands: operands that the world outside the block can supply. The meanings are total, so an ill-formed command
runs too; the check says which commands describe an event the spec knows. -/

namespace Sys2Proof

/-- A drive's examination: one of the conditions of R226, or none. -/
def DriveReport.wf (r : DriveReport) : Bool := decide (r.failed ≤ 7)

/-- One host access through BAR2 carries 1–4,096 bytes. -/
def tlpLength (n : Nat) : Bool := decide (1 ≤ n ∧ n ≤ 4096)

/-- R45 numbers this stitch-queue instance: class in bits [11:8], instance in bits [7:0]. -/
def sqNumbered (id : Nat) : Bool := decide (id / 256 ≤ 9)

/-- A message's bytes are its 48-byte header and at most 7,888 more (R426). -/
def messageBytes (m : List Byte) : Bool := decide (48 ≤ m.length ∧ m.length ≤ 7936)

/-- Pyrat-M has one context in plain mode, numbered 0 of tile 16 (R309). -/
def contextOk (t : Fin 17) (c : Fin 512) : Bool := decide (t.val < 16 ∨ c.val = 0)

/-- The operands are ones the spec gives the command. -/
def Instr.wf (i : Instr) : Bool :=
  match i with
  | .negotiate .. | .identify .. | .qpCreate .. | .qpDelete .. | .bindOff .. | .warmReset .. | .resetReport .. | .asCreate ..
  | .asDestroy .. | .ptWrite .. | .invalTag .. | .invalRange .. | .faultRingSet .. | .faultResume .. | .tableCreate ..
  | .tableDestroy .. | .tableQuery .. | .hotsetLoad .. | .hotsetRefresh .. | .hotsetDrop .. | .prefetch .. | .advise ..
  | .replicaSet .. | .replicaDrop .. => true
  | .driveUnfence _ _ r => r.wf
  | .patternLoad .. | .patternUnload .. | .launch .. | .stepOpen .. | .stepConfirm .. | .stepClose .. | .specOpen .. | .specAbandon ..
  | .stepQuery .. | .tileReset .. | .fabricId .. | .portConfig .. | .shardmapLoad .. => true
  | .portReset _ _ r => r.wf
  | .portUnfence .. | .fabricStatus .. | .gaugeConfig .. | .gaugeRebase .. | .schedRead .. | .schedCancel .. | .scrubSlot ..
  | .tensionSlot .. | .powerCap .. | .monRead .. | .thermLimit .. | .logRead .. | .logMirrorSet .. | .tallyAudit .. | .tallyRead ..
  | .idRead .. | .tagRead .. | .tagWrite .. | .keyUpdate .. | .keyStatus .. | .fwStage .. | .fwActivate .. | .fwStatus ..
  | .fwChainSet .. | .fwDiscard .. | .commandFetch .. | .interimCompletion .. | .coalTimeExpiry .. | .mbSqTail .. | .mbCqHead ..
  | .qp0Enable .. | .qp0Disable .. | .reinit .. | .hlApSlice .. | .hlViolCount | .hlApRefused | .sqSel .. | .sqInfo .. | .sqCount ..
  | .erSummary .. | .erCount .. | .erMemSel .. | .erMemCount .. | .erMemStack .. | .erMemPoison .. | .pmEvent .. | .pmThrottleUs
  | .tyAlarm .. | .txFrHead .. | .ggBeat .. | .ggPhase | .msixUnmask .. => true
  | .registerWrite _ n v => decide (1 ≤ n.val) && decide (v.toNat < 2 ^ (8 * n.val))
  | .bar2Read _ n _ => tlpLength n.toNat
  | .bar2Write _ bs => tlpLength bs.length
  | .hostTlpViolation .. | .d3hotEntry | .d0Return | .busMasterEnableClear | .busMasterEnableSet | .flr => true
  | .linkTrainingComplete w r _ _ => [1, 2, 4, 8, 16].contains w.val && decide (1 ≤ r.val)
  | .deviceReadRefused .. | .powerGood | .inputVoltageExcursion .. => true
  | .railExcursion i _ => decide (2 ≤ i.val)
  | .modResetAssert | .modResetDeassert | .warmResetAssert | .warmResetDeassert | .perstAssert | .perstDeassert | .quiesceComplete ..
  | .quiesceTimeout .. | .castOnS1 .. | .castOnS2 => true
  | .castOnS3 h => h.drive0.wf && h.drive1.wf && h.drive2.wf && h.drive3.wf
  | .castOnS4 | .castOnS5 | .castOnS7 | .stageTimeExceeded | .closeResume | .gwordFrame .. | .gaugeLock | .missingEdge .. | .localBeat
  | .holdoverBeat1000 | .resumeMark | .stepConfirmMark .. | .speculationWindowDeadline .. | .stepConfirmDeadline ..
  | .stepCloseMark .. | .tableVersionFlip .. | .stepOpenMark .. | .speculationWindowOpen .. | .hotSetRefresh .. | .scrubSlotBegin ..
  | .tensionSlotFiring .. | .firmwareActivation .. | .selfConfirmation | .trialWindowExpiry | .applyComplete => true
  | .sqPacketCommit id ws => sqNumbered id.toNat && decide (1 ≤ ws.length ∧ ws.length ≤ 64)
  | .sqBadFlag id => sqNumbered id.toNat
  | .sqFlushRequest id => sqNumbered id.toNat
  | .sqFlushTakesEffect id => sqNumbered id.toNat
  | .sqConsumerRead id _ => sqNumbered id.toNat
  | .staleTailTimeout id _ => sqNumbered id.toNat
  | .nop t c => contextOk t c
  | .dup t c => contextOk t c
  | .swap t c => contextOk t c
  | .drop t c => contextOk t c
  | .over_ t c => contextOk t c
  | .rot t c => contextOk t c
  | .pick t c => contextOk t c
  | .pushi t c => contextOk t c
  | .pushx t c => contextOk t c
  | .add t c => contextOk t c
  | .sub t c => contextOk t c
  | .and t c => contextOk t c
  | .or t c => contextOk t c
  | .xor t c => contextOk t c
  | .andn t c => contextOk t c
  | .neg t c => contextOk t c
  | .not t c => contextOk t c
  | .mins t c => contextOk t c
  | .maxs t c => contextOk t c
  | .minu t c => contextOk t c
  | .maxu t c => contextOk t c
  | .shl t c => contextOk t c
  | .shr t c => contextOk t c
  | .sar t c => contextOk t c
  | .rol t c => contextOk t c
  | .clz t c => contextOk t c
  | .popc t c => contextOk t c
  | .bperm t c => contextOk t c
  | .bfx t c => contextOk t c
  | .bfi t c => contextOk t c
  | .mul t c => contextOk t c
  | .mulh t c => contextOk t c
  | .cmp t c => contextOk t c
  | .plog t c => contextOk t c
  | .pfrom t c => contextOk t c
  | .pto t c => contextOk t c
  | .ld t c _ => contextOk t c
  | .loadDataArrival t c => contextOk t c
  | .st t c => contextOk t c
  | .aadd t c => contextOk t c
  | .bcopy t c => contextOk t c
  | .bcopyCompletion .. => true
  | .br t c => contextOk t c
  | .bz t c => contextOk t c
  | .bnz t c => contextOk t c
  | .call t c => contextOk t c
  | .calli t c => contextOk t c
  | .bri t c => contextOk t c
  | .ret t c => contextOk t c
  | .end_ t c => contextOk t c
  | .rds t c => contextOk t c
  | .wrs t c => contextOk t c
  | .rdwait t c => contextOk t c
  | .sgrd t c => contextOk t c
  | .waitc t c => contextOk t c
  | .fenceT t c => contextOk t c
  | .fenceD t c => contextOk t c
  | .fenceS t c => contextOk t c
  | .gather t c _ => contextOk t c
  | .pool t c _ => contextOk t c
  | .gatherAddr t c _ => contextOk t c
  | .gatherResume t c _ => contextOk t c
  | .rowAdd t c _ => contextOk t c
  | .stream t c => contextOk t c
  | .mxop t c => contextOk t c
  | .threadPlacement | .claimGrant .. | .hookElementReturn .. | .operationValidation .. | .load .. | .store .. | .matmul ..
  | .elemwise .. | .seed .. | .matrixOperationComplete .. | .floatAdd .. | .exactAdd .. | .closeStage1 | .closeStage2 | .closeStage3
  | .closeStage4 | .closeStage5 | .closeStage6 | .closeStage7 | .walkComplete .. | .streamPrewalk .. | .faultRecordWrite
  | .faultWatchdog | .invalAck .. | .faultInComplete .. | .writeBackComplete .. | .deallocateComplete .. | .nvmeCompletion ..
  | .nvmeCommandTimeout .. | .nvmeAbortTimeout .. | .controllerFatalStatus .. | .nvmeLinkDown .. | .scrubRead .. | .repairComplete ..
  | .d2dRetryExhausted .. | .portTrained .. | .plyFailure .. | .linkControlFlit .. | .replayTimeout .. | .ackTimer ..
  | .creditReturnTimer .. => true
  | .rowGet _ _ m => messageBytes m
  | .rowData _ _ m => messageBytes m
  | .rowAddReceived _ _ m => messageBytes m
  | .rowAck _ _ m => messageBytes m
  | .rowNak _ _ m => messageBytes m
  | .credit _ m => messageBytes m
  | .gauge _ m _ _ => messageBytes m
  | .fwChunk _ m => messageBytes m
  | .hello _ m => messageBytes m
  | .echoReq _ m _ => messageBytes m
  | .echoRsp _ m _ => messageBytes m
  | .linkDelayMeasure .. => true
  | .linkState _ m => messageBytes m
  | .linkStatePeriod | .originTimeout .. | .routeRecompute => true
  | .drain _ m => messageBytes m
  | .leave _ m => messageBytes m
  | .messageForward _ _ m => messageBytes m
  | .rowGetReissue .. | .rowAddResend .. | .notOwnerResend .. | .auditReread .. | .rateLimitFlush .. | .monitorSample ..
  | .thermalRelease .. | .thermTrip .. | .powerControlTick .. | .rampStep | .grantDecrease | .pwrBrakeAssert | .pwrBrakeDeassert
  | .grantW .. | .grantBeat .. | .entdaa .. | .setEndpointId .. | .getEndpointId | .getMctpVersionSupport | .getMessageTypeSupport
  | .getTid | .getPldmVersion .. | .getPldmTypes | .getPldmCommands .. | .getPdrRepositoryInfo | .getPdr .. | .getSensorReading ..
  | .getStateSensorReadings .. | .getNumericEffecterValue .. | .setEventReceiver .. | .getFruRecordTableMetadata
  | .getFruRecordTable .. | .unsupportedSidebandRequest | .getVersion | .getCapabilities .. | .negotiateAlgorithms .. | .getDigests ..
  | .getCertificate .. | .challenge .. | .getMeasurements .. | .spdmUnsupportedRequest .. | .flit .. | .h2dSnoop | .doeDiscovery ..
  | .scrubSlotEnd | .auxInputRemoved => true
  | .accessPerformed t c _ => contextOk t c

end Sys2Proof
end

