-- ==== Sys2Proof/Config.lean ====
section
/-! DEFINITION. What one implementation fixes and the values the spec leaves open. -/

namespace Sys2Proof.Config

/-- The stream of values the spec leaves open, by the position in the stream. -/
opaque freeValue : Nat → W64

/-- The device-physical base of SG0's code, by pattern handle (R302). -/
opaque codeBase : Nat → BitVec 52

/-- The depth of a stitch-queue instance, modulo 5 above 2^7 (R64). -/
opaque sqDepth : Nat → Nat

/-- The instance's consumer reads while it is empty (R49). -/
opaque sqIdle : Nat → Bool

/-- The queue pair whose commands travel in a stitch-queue instance (R45). -/
opaque sqMailboxQp : Nat → Option (Fin 64)

/-- The serial number: 16 bytes from fuses (R491). -/
opaque serial : BitVec 128

/-- The factory identity page as its 1,024 bytes (R491), of which the spec gives the layout. -/
opaque identity : BitVec 8192

/-- The public keys of Garsenur's release and of the factory: coordinates (R499, R500). -/
opaque releaseKey : Nat × Nat
opaque factoryKey : Nat × Nat

/-- The image installed at manufacture. -/
opaque factoryImage : List (BitVec 8)

/-- The boot ROM's digest, the certificate chain of SPDM slot 0, and the signatures of the device-unique key by occasion (R505–R507). -/
opaque romDigest : BitVec 384
opaque certChain : List (BitVec 8)
opaque deviceSign : Nat → BitVec 768

/-- The PLDM terminus id and the versions GetPLDMVersion reports by type (R477). -/
opaque pldmTid : Nat
opaque pldmVersion : Nat → Nat
opaque mctpVersions : List Nat

/-- Bits [47:33] of the I3C provisioned id: Garsenur's manufacturer id (R550). -/
opaque i3cVendor : BitVec 15

end Sys2Proof.Config
end

