-- ==== Sys2Proof/Machine/Bits.lean ====
section
/-! DEFINITION. Bit fields, byte order (R4), saturating counters (R9), CRC-32 and small helpers over vectors and sorted
key-value lists. -/

namespace Sys2Proof.Machine

open Sys2Proof

/-- Bits `lo … lo+n-1` of a number, bit 0 least significant (R4). -/
def bits (x lo n : Nat) : Nat := (x >>> lo) % 2 ^ n

/-- Bit `i` of a number. -/
def bitOf (x i : Nat) : Bool := x.testBit i

/-- `n` bytes starting at byte `o` of a little-endian structure held as a number (R4). -/
def bytesAt (x o n : Nat) : Nat := bits x (8 * o) (8 * n)

/-- The `n` low bytes of a number, least significant byte first (R4). -/
def toBytes : (n : Nat) → Nat → List Byte
  | 0, _ => []
  | n + 1, x => BitVec.ofNat 8 x :: toBytes n (x / 256)

/-- The number a little-endian byte list spells (R4). -/
def ofBytes : List Byte → Nat
  | [] => 0
  | b :: bs => b.toNat + 256 * ofBytes bs

/-- A Bool as one bit. -/
def b2n (b : Bool) : Nat := if b then 1 else 0

/-- A saturating event counter counts one more (R9). -/
def satInc {w : Nat} (x : BitVec w) : BitVec w := if x = BitVec.allOnes w then x else x + 1

/-- A saturating counter counts `n` more (R9). -/
def satAdd {w : Nat} (x : BitVec w) (n : Nat) : BitVec w :=
  if x.toNat + n < 2 ^ w then BitVec.ofNat w (x.toNat + n) else BitVec.allOnes w

/-- A number narrowed to `w` bits by saturation. -/
def satTo (w n : Nat) : Nat := if n < 2 ^ w then n else 2 ^ w - 1

/-- Round `x` up to a multiple of `m`. -/
def roundUp (x m : Nat) : Nat := (x + m - 1) / m * m

/-- `⌈x / m⌉`. -/
def ceilDiv (x m : Nat) : Nat := (x + m - 1) / m

/-- Does the interval `[a, a+n)` meet `[b, b+k)`? -/
def overlaps (a n b k : Nat) : Bool := decide (a < b + k ∧ b < a + n ∧ 0 < n ∧ 0 < k)

/-- Element `i` of a vector replaced. -/
def vset {α : Type} {n : Nat} (v : Vector α n) (i : Fin n) (x : α) : Vector α n := v.set i x i.isLt

/-- Element `i` of a vector changed. -/
def vmod {α : Type} {n : Nat} (v : Vector α n) (i : Fin n) (f : α → α) : Vector α n := v.set i (f v[i]) i.isLt

/-- One step of the CRC-32 of IEEE 802.3 (reflected polynomial 0xEDB8_8320). -/
def crcBit (c : Nat) : Nat := if c % 2 = 1 then (c / 2) ^^^ 0xEDB88320 else c / 2

/-- One byte of the CRC-32. -/
def crcByte (c : Nat) (b : Byte) : Nat :=
  crcBit (crcBit (crcBit (crcBit (crcBit (crcBit (crcBit (crcBit (c ^^^ b.toNat))))))))

/-- CRC-32 of IEEE 802.3 of a byte list. -/
def crc32 (bs : List Byte) : Nat := (bs.foldl crcByte 0xFFFFFFFF) ^^^ 0xFFFFFFFF

/-! ### Key-value lists in one canonical form: keys strictly rising -/

/-- The value stored under key `k`. -/
def kvGet {α : Type} : List (Nat × α) → Nat → Option α
  | [], _ => none
  | (k, v) :: m, a => if k = a then some v else kvGet m a

/-- Store `v` under key `a`, keeping the keys rising. -/
def kvSet {α : Type} : List (Nat × α) → Nat → α → List (Nat × α)
  | [], a, v => [(a, v)]
  | (k, w) :: m, a, v =>
    if a < k then (a, v) :: (k, w) :: m else if a = k then (a, v) :: m else (k, w) :: kvSet m a v

/-- Remove key `a`. -/
def kvErase {α : Type} : List (Nat × α) → Nat → List (Nat × α)
  | [], _ => []
  | (k, w) :: m, a => if k = a then m else (k, w) :: kvErase m a

/-- Change the value under key `a`, if there is one. -/
def kvMod {α : Type} (m : List (Nat × α)) (a : Nat) (f : α → α) : List (Nat × α) :=
  match kvGet m a with
  | some v => kvSet m a (f v)
  | none => m

/-- The lowest number from `lo`, below `lo + fuel`, that is no key. -/
def kvFree {α : Type} (m : List (Nat × α)) (lo : Nat) : (fuel : Nat) → Option Nat
  | 0 => none
  | fuel + 1 => match kvGet m lo with
    | none => some lo
    | some _ => kvFree m (lo + 1) fuel

/-- Replace the first element that satisfies `p`. -/
def modFirst {α : Type} (p : α → Bool) (f : α → α) : List α → List α
  | [] => []
  | x :: xs => if p x then f x :: xs else x :: modFirst p f xs

end Sys2Proof.Machine
end

