-- ==== Sys2Proof/Machine/Mem.lean ====
section
/-! DEFINITION. Byte memories as sorted cell lists: an unlisted address reads 0, no listed cell holds 0, addresses rise
strictly. -/

namespace Sys2Proof.Machine

open Sys2Proof

/-- What an address that is not listed reads as: 0 (R274 for tier T1; a DESIGN CHOICE for the other memories). -/
def blankByte : Byte := 0

/-- The byte at address `a`. -/
def cellGet (m : List Host.Cell) (a : Nat) : Byte := (kvGet m a).getD blankByte

/-- Write one byte; writing the blank byte removes the cell. -/
def cellSet (m : List Host.Cell) (a : Nat) (b : Byte) : List Host.Cell :=
  if b = blankByte then kvErase m a else kvSet m a b

/-- `n` bytes from address `a` on. -/
def cellsRead (m : List Host.Cell) (a : Nat) : (n : Nat) → List Byte
  | 0 => []
  | n + 1 => cellGet m a :: cellsRead m (a + 1) n

/-- Write a list of bytes from address `a` on. -/
def cellsWrite (m : List Host.Cell) (a : Nat) : List Byte → List Host.Cell
  | [] => m
  | b :: bs => cellsWrite (cellSet m a b) (a + 1) bs

/-- The little-endian number of `n` bytes at `a` (R4). -/
def cellsNat (m : List Host.Cell) (a n : Nat) : Nat := ofBytes (cellsRead m a n)

/-- Remove every cell of `[a, a+n)`: the range reads blank. -/
def cellsBlank (m : List Host.Cell) (a n : Nat) : List Host.Cell :=
  m.filter (fun c => !(decide (a ≤ c.1 ∧ c.1 < a + n)))

/-- The addresses rise strictly from `lo` on, and no cell holds the blank byte. -/
def wfFrom : Nat → List Host.Cell → Bool
  | _, [] => true
  | lo, (a, b) :: m => decide (lo ≤ a) && decide (b ≠ blankByte) && wfFrom (a + 1) m

/-- The canonical form of a byte memory. -/
def Memory.wf (m : List Host.Cell) : Bool := wfFrom 0 m

end Sys2Proof.Machine
end

