-- ==== Sys2Proof/Machine/Numbers.lean ====
section
/-! DEFINITION. Number formats and arithmetic (19_tensor_arithmetic.md R399–R401, R408, R411–R413; 09 R199–R201): exact values as
`m × 2^e`, one rounding, and what each conversion counts. -/

namespace Sys2Proof.Machine

open Sys2Proof

/-! ### Formats (R399) -/

/-- A floating-point format. -/
structure Fmt where
  exp : Nat
  frac : Nat
  bias : Nat
  /-- it encodes infinities -/
  inf : Bool
deriving DecidableEq, Repr

def fp32 : Fmt := ⟨8, 23, 127, true⟩
def bf16 : Fmt := ⟨8, 7, 127, true⟩
def fp16 : Fmt := ⟨5, 10, 15, true⟩
def e4m3 : Fmt := ⟨4, 3, 7, false⟩
def e5m2 : Fmt := ⟨5, 2, 15, true⟩
def fp64 : Fmt := ⟨11, 52, 1023, true⟩

/-- The floating-point format with a code of R399. -/
def fmtOf (code : Nat) : Option Fmt :=
  if code = 0 then some fp32 else if code = 1 then some bf16 else if code = 2 then some fp16
  else if code = 3 then some e4m3 else if code = 4 then some e5m2 else if code = 8 then some fp64 else none

/-- Bits of one element. -/
def Fmt.width (f : Fmt) : Nat := 1 + f.exp + f.frac

/-- What a conversion or operation counts (R354, R416). -/
structure Counts where
  sat : Nat := 0
  ftzIn : Nat := 0
  ftzOut : Nat := 0
  nanOut : Nat := 0
  infOut : Nat := 0
deriving DecidableEq, Repr

/-- The sum of two counts. -/
def Counts.plus (a b : Counts) : Counts :=
  ⟨a.sat + b.sat, a.ftzIn + b.ftzIn, a.ftzOut + b.ftzOut, a.nanOut + b.nanOut, a.infOut + b.infOut⟩

/-- An exact value: NaN, an infinity, or `m × 2^e`. There is no negative zero: −0 is read as zero (R401). -/
inductive Num where
  | nan
  | inf (neg : Bool)
  | fin (m e : Int)
deriving DecidableEq, Repr

/-- Apply a sign. -/
def signedBy (neg : Bool) (m : Nat) : Int := if neg then -(m : Int) else m

/-- Read an encoding (R399, R401); the flag says that a subnormal was flushed to zero. -/
def Fmt.decode (f : Fmt) (x : Nat) : Num × Bool :=
  let neg := x.testBit (f.exp + f.frac)
  let ex := bits x f.frac f.exp
  let fr := bits x 0 f.frac
  if ex = 2 ^ f.exp - 1 ∧ f.inf then (if fr = 0 then .inf neg else .nan, false)
  else if ex = 2 ^ f.exp - 1 ∧ fr = 2 ^ f.frac - 1 then (.nan, false)
  else if ex = 0 then (.fin 0 0, decide (fr ≠ 0))
  else (.fin (signedBy neg (2 ^ f.frac + fr)) ((ex : Int) - f.bias - f.frac), false)

/-- The value of an encoding. -/
def Fmt.value (f : Fmt) (x : Nat) : Num := (f.decode x).1

/-- The encodings of the special results (R399). -/
def Fmt.nanCode (f : Fmt) : Nat :=
  if f.inf then (2 ^ f.exp - 1) * 2 ^ f.frac + 2 ^ (f.frac - 1) else 2 ^ (f.exp + f.frac) - 1
def Fmt.infCode (f : Fmt) (neg : Bool) : Nat := (2 ^ f.exp - 1) * 2 ^ f.frac + 2 ^ (f.exp + f.frac) * b2n neg
def Fmt.maxCode (f : Fmt) (neg : Bool) : Nat :=
  (if f.inf then (2 ^ f.exp - 1) * 2 ^ f.frac - 1 else 2 ^ (f.exp + f.frac) - 2) + 2 ^ (f.exp + f.frac) * b2n neg

/-- The largest finite value with a sign. -/
def Fmt.maxNum (f : Fmt) (neg : Bool) : Num := f.value (f.maxCode neg)

/-! ### Rounding (R412) -/

/-- A rounding mode; stochastic rounding carries its 16-bit draw. -/
inductive Rnd where
  | even
  | zero
  | stoch (r : Nat)
deriving DecidableEq, Repr

/-- A magnitude `m` cut by `k` bits under a mode. -/
def cut (mode : Rnd) (m k : Nat) : Nat :=
  let q := m >>> k
  let rem := m % 2 ^ k
  match mode with
  | .zero => q
  | .even =>
    if 2 ^ k < 2 * rem then q + 1 else if 2 * rem = 2 ^ k ∧ rem ≠ 0 ∧ q % 2 = 1 then q + 1 else q
  | .stoch r =>
    let f := if 16 ≤ k then rem >>> (k - 16) else rem * 2 ^ (16 - k)
    if 2 ^ 16 ≤ f + r then q + 1 else q

/-- A value with more bits than the format's precision is rounded: the conversion consumes a draw (R412). -/
def Fmt.inexact (f : Fmt) (n : Num) : Bool :=
  match n with
  | .fin m _ =>
    let a := m.natAbs
    decide (a ≠ 0) && (let k := a.log2 + 1 - (f.frac + 1); decide (a % 2 ^ k ≠ 0))
  | _ => false

/-- The general conversion rule (R411): the encoding and what it counts. -/
def Fmt.convert (f : Fmt) (mode : Rnd) (sat : Bool) (n : Num) : Nat × Counts :=
  let over_ (neg : Bool) (overflow : Bool) : Nat × Counts :=
    if sat then (f.maxCode neg, { sat := 1 })
    else if f.inf then (f.infCode neg, { infOut := b2n overflow })
    else (f.nanCode, { nanOut := 1 })
  match n with
  | .nan => (f.nanCode, { nanOut := 1 })
  | .inf neg => over_ neg false
  | .fin m e =>
    if m = 0 then (0, {})
    else
      let neg := decide (m < 0)
      let a := m.natAbs
      let k := a.log2 + 1 - (f.frac + 1)
      let q := cut mode a k
      let top := q.log2
      let ex : Int := e + k + top + f.bias
      let fr := if top ≤ f.frac then q * 2 ^ (f.frac - top) else q >>> (top - f.frac)
      if ex < 1 then (0, { ftzOut := 1 })
      else if (2 : Int) ^ f.exp - 1 < ex ∨ ex = 2 ^ f.exp - 1 ∧ (f.inf ∨ fr = 2 ^ (f.frac + 1) - 1) then over_ neg true
      else (ex.toNat * 2 ^ f.frac + (fr - 2 ^ f.frac) + 2 ^ (f.exp + f.frac) * b2n neg, {})

/-- The FP32 result of an exact value: one rounding to nearest-even, subnormals flushed, overflow to an infinity (R352). -/
def toF32 (n : Num) : W32 := BitVec.ofNat 32 (fp32.convert .even false n).1

/-- The value of an FP32 word. -/
def f32 (x : W32) : Num := fp32.value x.toNat

/-! ### Arithmetic -/

/-- Exact sum; an invalid sum is NaN. -/
def Num.add (a b : Num) : Num :=
  match a, b with
  | .nan, _ => .nan
  | _, .nan => .nan
  | .inf x, .inf y => if x = y then .inf x else .nan
  | .inf x, .fin _ _ => .inf x
  | .fin _ _, .inf y => .inf y
  | .fin m e, .fin n g =>
    if m = 0 then .fin n g else if n = 0 then .fin m e
    else
      let lo := min e g
      .fin (m * 2 ^ (e - lo).toNat + n * 2 ^ (g - lo).toNat) lo

/-- The sign of a finite or infinite value. -/
def Num.neg : Num → Bool
  | .nan => false
  | .inf x => x
  | .fin m _ => decide (m < 0)

/-- Exact product; ∞ × 0 is NaN. -/
def Num.mul (a b : Num) : Num :=
  match a, b with
  | .nan, _ => .nan
  | _, .nan => .nan
  | .fin m e, .fin n g => .fin (m * n) (e + g)
  | .inf x, .inf y => .inf (xor x y)
  | .inf x, .fin n _ => if n = 0 then .nan else .inf (xor x (decide (n < 0)))
  | .fin m _, .inf y => if m = 0 then .nan else .inf (xor y (decide (m < 0)))

/-- A quotient by a positive count, to 64 more bits and a sticky bit: enough for one rounding to FP32 (R352). -/
def Num.divNat (a : Num) (n : Nat) : Num :=
  match a with
  | .fin m e =>
    let x := m.natAbs * 2 ^ 64
    let q := 2 * (x / max 1 n) + (if x % max 1 n = 0 then 0 else 1)
    .fin (signedBy (decide (m < 0)) q) (e - 65)
  | x => x

/-- A total order on finite and infinite values: `a ≤ b`. -/
def Num.le (a b : Num) : Bool :=
  match a, b with
  | .fin m e, .fin n g =>
    let lo := min e g
    decide (m * 2 ^ (e - lo).toNat ≤ n * 2 ^ (g - lo).toNat)
  | .inf x, .inf y => x || !y
  | .inf x, _ => x
  | _, .inf y => !y
  | _, _ => true

/-- An integer as a value. -/
def Num.ofInt (i : Int) : Num := .fin i 0

/-- Conversion into INT8 (R411): rounded to an integer, limited to the range. -/
def toInt8 (mode : Rnd) (isSigned : Bool) (n : Num) : Nat × Counts :=
  let lo : Int := if isSigned then -128 else 0
  let hi : Int := if isSigned then 127 else 255
  let enc (i : Int) : Nat := (BitVec.ofInt 8 i).toNat
  match n with
  | .nan => (0, { nanOut := 1 })
  | .inf neg => (enc (if neg then lo else hi), { sat := 1 })
  | .fin m e =>
    let a := m.natAbs
    let q := if 0 ≤ e then a * 2 ^ e.toNat else cut mode a (-e).toNat
    let v := signedBy (decide (m < 0)) q
    if v < lo then (enc lo, { sat := 1 }) else if hi < v then (enc hi, { sat := 1 }) else (enc v, {})

/-! ### The tile LFSR (R413) -/

/-- One step of the LFSR. -/
def lfsrStep (x : Nat) : Nat := if x % 2 = 1 then (x / 2) ^^^ 0x80200003 else x / 2

/-- `n` steps. -/
def lfsrSteps : (n : Nat) → Nat → Nat
  | 0, x => x
  | n + 1, x => lfsrSteps n (lfsrStep x)

/-- One draw: 16 steps, then the low 16 bits of the new state. -/
def lfsrDraw (x : W32) : Nat × W32 :=
  let y := lfsrSteps 16 x.toNat
  (y % 2 ^ 16, BitVec.ofNat 32 y)

/-- The state every reset of the tile gives (R413). -/
def lfsrSeed (tile : Nat) : W32 := BitVec.ofNat 32 (0x5EED0000 + tile)

/-! ### Rows (R199–R201) -/

/-- Element `k` of a row's bytes in a float format. -/
def elemAt (width k : Nat) (bs : List Byte) : Nat := ofBytes ((bs.drop (k * (width / 8))).take (width / 8))

/-- The code of element `k` of a coded row (R200). -/
def rowCode (int4 isSigned : Bool) (k : Nat) (bs : List Byte) : Int :=
  let raw := if int4 then bits ((bs[4 + k / 2]?).getD 0).toNat (4 * (k % 2)) 4 else ((bs[4 + k]?).getD 0).toNat
  let w := if int4 then 4 else 8
  if isSigned then (BitVec.ofNat w raw).toInt else raw

/-- One element of a row as FP32, and whether a subnormal input was flushed (R200, R201). -/
def rowElem (format : Nat) (isSigned : Bool) (bs : List Byte) (k : Nat) : W32 × Bool :=
  match fmtOf format with
  | some f =>
    let (n, z) := f.decode (elemAt f.width k bs)
    (toF32 n, z)
  | none =>
    let scale := fp16.value (ofBytes (bs.take 2))
    let offset := fp16.value (ofBytes ((bs.drop 2).take 2))
    (toF32 ((scale.mul (Num.ofInt (rowCode (format == 6) isSigned k bs))).add offset), false)

/-- A decoded row and its flushed inputs. -/
def rowDecode (format width : Nat) (isSigned : Bool) (bs : List Byte) : List W32 × Nat :=
  let es := (List.range width).map (rowElem format isSigned bs)
  (es.map (·.1), (es.filter (·.2)).length)

/-! ### Adders (R385) -/

/-- An exact value added to a target's value under R385: with SAT an infinite operand is read as the format's largest finite
value. -/
def addInto (f : Fmt) (mode : Rnd) (sat : Bool) (t u : Num) : Nat :=
  let fix (n : Num) : Num := match n with
    | .inf neg => if sat then f.maxNum neg else n
    | n => n
  (f.convert mode sat ((fix t).add (fix u))).1

/-- The float-add of one element: `t` in format `f`, `u` an FP32 value (R385). -/
def floatAdd (f : Fmt) (mode : Rnd) (sat : Bool) (t : Nat) (u : W32) : Nat := addInto f mode sat (f.value t) (f32 u)

/-! ### Exact-add entries (R386–R388) -/

/-- What one update element adds to an entry (R387): a STATE, or a number of grid units of 2^-60. -/
def exactTerm (u : W32) : Nat × Int :=
  match f32 u with
  | .nan => (3, 0)
  | .inf neg => (if neg then 2 else 1, 0)
  | .fin m e =>
    let k := e + 60
    let q : Int := if 0 ≤ k then m * 2 ^ k.toNat else signedBy (decide (m < 0)) (cut .even m.natAbs (-k).toNat)
    if 2 ^ 91 ≤ q.natAbs then (if m < 0 then 2 else 1, 0) else (0, q)

/-- STATE combines as a set (R387). -/
def exactState (a b : Nat) : Nat := if a = 0 then b else if b = 0 ∨ a = b then a else 3

/-- The value close stage 4 writes for an entry (R388). -/
def exactValue (f : Fmt) (sat : Bool) (base : W32) (state : Nat) (acc : BitVec 92) : Nat :=
  if state = 0 then addInto f .even sat (f32 base) (.fin acc.toInt (-60))
  else if state = 3 then f.nanCode
  else (f.convert .even sat (.inf (state == 2))).1

/-- The sum an entry holds, as FP32 bits. -/
def exactSum (state : Nat) (acc : BitVec 92) : W32 :=
  if state = 0 then toF32 (.fin acc.toInt (-60))
  else if state = 3 then BitVec.ofNat 32 fp32.nanCode else BitVec.ofNat 32 (fp32.infCode (state == 2))

end Sys2Proof.Machine
end

