-- ==== Sys2Proof/Machine/State.lean ====
section
/-! DEFINITION. The state of the FJ-816 as plain data: every register, queue, buffer, counter, mode and pin that the spec
names, with its reset value as the default of its field, and the queue of waiting commands. -/

namespace Sys2Proof.Machine

open Sys2Proof


/-! ### Errors and logs (22_errors_and_logs.md) -/

/-- The five error classes of the log (22, Model table). -/
inductive ErrClass where
  | corrected | deferred | contained | fatal | partner
deriving DecidableEq, Repr

/-- The SCOPE byte of a log entry (R458). -/
inductive Scope where
  | none | data | operation | tile | henurPort | nvmePort | queuePair | step | table | addressSpace | bank | device
deriving DecidableEq, Repr

/-- One 32-byte log entry (R458). `body` is bytes 8–31, laid out as R458 says, or per cause in a continuation (R459). -/
structure LogEntry where
  seq : BitVec 32
  cls : ErrClass
  cont : Bool
  locked : Bool
  cause : Nat
  scope : Scope
  body : BitVec 192
deriving DecidableEq, Repr

/-- A merge window of R462: occurrences of one (CAUSE, UNIT) counted since the last entry, and the last of them. -/
structure Limiter where
  cause : Nat
  unit : Nat
  count : Nat
  last : Option LogEntry
deriving DecidableEq, Repr

/-- A containment action of R466 (or the fatal state of R467) that the entry just written calls for. -/
structure Containment where
  cls : ErrClass
  scope : Scope
  unit : Nat
  cause : Nat
deriving DecidableEq, Repr

/-- The error unit: ring, counters, summary registers, mirror and rate limits (R458–R467). -/
structure ErrUnit where
  /-- the ring's entries, newest first, at most 4,096 (R460) -/
  ring : List LogEntry := []
  /-- SEQ of the next entry; 1 after a cold reset (R458) -/
  nextSeq : BitVec 32 := 1
  /-- ER_SUMMARY PENDING (R465) -/
  pendingBits : BitVec 5 := 0
  /-- ER_MASK (R465) -/
  mask : BitVec 5 := 0
  /-- ER_COUNT[0..4] (R465) -/
  count : Vector W32 5 := Vector.replicate 5 0
  /-- ER_FATAL SEQ and CAUSE (R465) -/
  fatalSeq : W32 := 0
  fatalCause : Byte := 0
  /-- ER_SUMMARY FATAL: the device is in the fatal state (R467) -/
  fatal : Bool := false
  /-- LOG_MIRROR_SET EN and base (R464) -/
  mirrorEn : Bool := false
  mirrorBase : W64 := 0
  /-- the merge windows of R462 that are open -/
  limits : List Limiter := []
  /-- containment actions not yet taken (R466); empty between commands -/
  todo : List Containment := []
deriving DecidableEq, Repr

/-! ### Gauge (04_gauge.md) -/

/-- The receiver's state, codes 0–4 in this order (04, Model table). -/
inductive GState where
  | unlocked | locking | locked | holdover | freeRun
deriving DecidableEq, Repr

/-- What the receiver knows of one gauge source: the run of good beats of R78 and the switch conditions of R80. -/
structure GaugeSource where
  /-- consecutive good beats of the current run, 0–16 -/
  run : Nat := 0
  /-- the last good beat's number, the reference for the next beat -/
  num : W64 := 0
  /-- the periods between the good beats of the run in ps, newest first, at most 16 (R78) -/
  periods : List Nat := []
  /-- number and phase agree with the local mark to within ±1 and 100 ns (R80) -/
  agrees : Bool := false
deriving DecidableEq, Repr

/-- One schedule entry (R74) with the command that created it. -/
structure SchedEntry where
  beat : W64
  phase : BitVec 16
  kind : Nat
  lockReq : Bool
  periodic : Bool
  period : BitVec 16
  tag : BitVec 16
  /-- queue pair and CID of the command that created the entry, while that command waits for it -/
  owner : Option (Nat × Nat)
  /-- the current occurrence is deferred (R82, R84) -/
  deferred : Bool
  /-- the 64 bytes of the command that created the entry -/
  cmd : Entry
deriving DecidableEq, Repr

/-- The settings of GAUGE_CONFIG with the defaults of R79. -/
structure GaugeConfig where
  /-- beat rate in Hz -/
  rate : Nat := 10000
  /-- SOURCE: 0 connector only, 1 in-band only, 2 both -/
  source : Nat := 0
  /-- the primary of SOURCE 2: 0 connector, 1 in-band -/
  primary : Nat := 0
  /-- the upstream port; 0xFF none -/
  upstream : Nat := 0xFF
  /-- the downstream ports -/
  downMask : BitVec 9 := 0
  /-- CABLE_DELAY in 0.1 ns -/
  cableDelay : BitVec 16 := 0
deriving DecidableEq, Repr

/-- The gauge receiver and its schedule (R66–R88, R534). -/
structure Gauge where
  state : GState := .unlocked
  /-- selected source: 0 connector, 1 in-band -/
  selected : Nat := 0
  beat : W64 := 0
  phase : BitVec 16 := 0
  cfg : GaugeConfig := {}
  connector : GaugeSource := {}
  inband : GaugeSource := {}
  /-- the period estimate held for holdover, in ps (R78, R81); 0 before any good run -/
  estimate : Nat := 0
  /-- GG_STATUS HOLD_BEATS, saturating (R81) -/
  holdBeats : BitVec 16 := 0
  /-- LOCKING was entered from HOLDOVER or FREE_RUN (04, "Gauge lost") -/
  lost : Bool := false
  /-- LOCKED at least once since the last reset of the device (R76) -/
  everLocked : Bool := false
  /-- GAUGE_REBASE has accepted a lower numbering (R87) -/
  rebase : Bool := false
  /-- rejected beats of a lower numbering (R87) -/
  rejected : Nat := 0
  /-- the beat of the resume mark, after a re-lock (R83) -/
  resume : Option W64 := none
  /-- the schedule by entry index, 0–255 (R74, R76) -/
  sched : List (Nat × SchedEntry) := []
  /-- the phase latched by a read of GG_BEAT (R534) -/
  phaseLatch : Option (BitVec 16) := none
  /-- root device id and hop count of the in-band source in use (R69) -/
  root : BitVec 9 := 0
  hops : Nat := 0
deriving DecidableEq, Repr

/-! ### Host link (06_host_link.md, 26_register_map.md) -/

/-- HL_AP_SLICE[k] (R127). -/
structure Slice where
  en : Bool := false
  wrEn : Bool := false
  cls : Fin 4 := 2
  tag : BitVec 12 := 0
  /-- bits [51:30] of the virtual base -/
  vbase : BitVec 22 := 0
deriving DecidableEq, Repr

/-- One MSI-X table entry (R535). -/
structure MsixEntry where
  addr : W64 := 0
  data : W32 := 0
  mask : Bool := true
deriving DecidableEq, Repr

/-- A device-initiated write that waits for the host (R120, R121, R464). -/
inductive HostWrite where
  | bytes (addr : Nat) (data : List Byte)
  /-- a log-mirror write: it carries the newest entry of its slot when it is made -/
  | mirror (slot : Nat)
deriving DecidableEq, Repr

/-- The host link (R116–R140, R531, R535). -/
structure HostLink where
  /-- the data link is active -/
  up : Bool := false
  width : Nat := 0
  /-- RATE code of HL_LINK: 1 = 2.5 … 6 = 64 GT/s -/
  rate : Nat := 0
  flit : Bool := false
  cxl : Bool := false
  /-- the link trained in CXL mode at cast-on (R122) -/
  cxlAtCastOn : Bool := false
  d3hot : Bool := false
  /-- Bus Master Enable -/
  bme : Bool := false
  /-- Bus Master Enable was 1 and no hold has been logged since (R121) -/
  bmeArmed : Bool := false
  /-- Memory Space Enable -/
  mse : Bool := true
  slices : Vector Slice 8 := Vector.replicate 8 {}
  violCount : W32 := 0
  apRefused : W32 := 0
  msix : Vector MsixEntry 128 := Vector.replicate 128 {}
  /-- the MSI-X function mask of configuration space -/
  funcMask : Bool := false
  /-- the MSI-X pending bits -/
  pba : BitVec 128 := 0
  /-- device-initiated writes held, oldest first (R120, R121) -/
  held : List HostWrite := []
  /-- held lower halves of 64-bit registers by offset (R527) -/
  low : List (Nat × W32) := []
  /-- latched upper halves of split reads by offset (R125, R527) -/
  latch : List (Nat × W32) := []
deriving DecidableEq, Repr

/-! ### Mailbox (07_mailbox_protocol.md) -/

/-- STATE of a queue pair: 0 disabled, 1 enabled, 2 quarantined (R142). -/
inductive QpState where
  | disabled | enabled | quarantined
deriving DecidableEq, Repr

/-- A completion not yet written to its ring (R149). -/
structure Completion where
  r0 : W64
  r1 : W64
  sqHead : Nat
  cid : Nat
  status : Nat
  interim : Bool
  late : Bool
  sub : Nat
  beats : Nat
  /-- the command carried NO_IRQ 1 (R158) -/
  noIrq : Bool
deriving DecidableEq, Repr

/-- Why an engine context, or a command's own work, does not go on. -/
inductive Stall where
  | none
  /-- a missing page: the fault record's id (R247) -/
  | page (id : Nat)
  /-- a row block that is not resident: table and block (R217) -/
  | block (table blk : Nat)
  /-- a poisoned sector under repair (R266) -/
  | repair (sector : Nat)
  /-- the wait ended with a fault of this status, delivered at the replay (R218, R250) -/
  | failed (status : Nat)
deriving DecidableEq, Repr

/-- A command between its fetch and its final completion (R156). -/
structure Cmd where
  entry : Entry
  /-- beat and phase of the fetch, in units of 2^-16 beat: the due point of an unmarked command (R149) -/
  fetched : Nat
  /-- the submission-ring head after this command's fetch (R149) -/
  sqHead : Nat
  /-- the firmware has begun it (R153) -/
  begun : Bool
  /-- it has taken effect and runs its own work (R157) -/
  effective : Bool
  /-- its interim entry has been posted (R157) -/
  interim : Bool
  /-- the wait reason of R157: a resource id, 0x0100 or 0x0101 -/
  wait : Option Nat
  /-- results gathered while its work runs -/
  r0 : W64
  r1 : W64
  /-- units of its work that are still outstanding -/
  left : Nat
  /-- why its work does not go on -/
  stall : Stall
  /-- its event took effect after its mark (R149, R167) -/
  late : Bool
deriving DecidableEq, Repr

/-- One queue pair (R141–R158). -/
structure QueuePair where
  state : QpState := .disabled
  /-- CAUSE of MB_QP0_STAT (R142) -/
  cause : Nat := 0
  sqBase : W64 := 0
  cqBase : W64 := 0
  sqLog : Nat := 6
  cqLog : Nat := 6
  cls : Fin 4 := 0
  irqEn : Bool := false
  coalCount : Nat := 1
  coalTime : Nat := 0
  deferAfter : Nat := 16
  /-- index of the next submission entry to fetch -/
  sqHead : Nat := 0
  /-- last accepted MB_SQ_TAIL and MB_CQ_HEAD (R144) -/
  sqTail : Nat := 0
  cqHead : Nat := 0
  /-- index of the next completion entry to write, and the phase of this pass (R150) -/
  cqTail : Nat := 0
  phase : Bool := true
  /-- completions waiting for a free entry, oldest first (R151) -/
  waiting : List Completion := []
  /-- completions posted since the last raise (R158) -/
  sinceRaise : Nat := 0
  /-- the COAL_TIME timer runs (R158) -/
  timer : Bool := false
  /-- fetched and running commands, in fetch order -/
  cmds : List Cmd := []
  /-- R163 is under way: the CID of the QP_DELETE on queue pair 0, or `none` for a disable of queue pair 0 -/
  stop : Option (Option Nat) := none
  /-- commands abandoned by it so far -/
  abandoned : Nat := 0
deriving DecidableEq, Repr

/-- The mailbox engine (R141–R164, R532, R533). -/
structure Mailbox where
  qps : Vector QueuePair 64 := Vector.replicate 64 {}
  /-- MB_QP0_CTRL as software wrote it (R142); EN in bit 0 -/
  ctrl : W64 := 0x0000001000010660
  /-- MB_QP0_SQ_BASE and MB_QP0_CQ_BASE (R142) -/
  sqBaseReg : W64 := 0
  cqBaseReg : W64 := 0
  /-- MB_STATUS.NEGOTIATED and the granted feature word (R159) -/
  negotiated : Bool := false
  features : BitVec 128 := 0
  /-- doorbells held before READY or in an activation pause, oldest first: (is CQ_HEAD, queue pair, value) (R533) -/
  doorbells : List (Bool × Nat × W32) := []
  /-- doorbell reads before READY return the held value (R533): by doorbell offset -/
  heldValues : List (Nat × W32) := []
deriving DecidableEq, Repr

/-! ### Cast-on and reset (05_cast_on_and_reset.md) -/

/-- LAST_RESET of MB_STATUS, codes 0–6 in this order (R94). -/
inductive ResetKind where
  | powerOn | modReset | warmPin | perst | warmCmd | flr | escalated
deriving DecidableEq, Repr

/-- Where the module stands between power-on and operation (R89, R98, R100). -/
inductive Phase where
  /-- no valid input power: stage S0 has not ended -/
  | off
  /-- powered; stage S1 waits for the reset pins (R548) -/
  | pinWait
  /-- the quiesce of a warm reset or FLR runs (R100) -/
  | quiesce
  /-- the cast-on stages run, or the device is operational -/
  | up
deriving DecidableEq, Repr

/-- The 64-byte reset report (R105). -/
structure ResetReport where
  durableValid : Bool := false
  closeResumed : Bool := false
  specAbandoned : Bool := false
  recountBalanced : Bool := false
  escalated : Bool := false
  resumeStage : Nat := 0
  closingStep : Nat := 0
  lastDurable : Nat := 0
  launches : Nat := 0
  threads : Nat := 0
  requeued : Nat := 0
  discarded : Nat := 0
  quiesceNs : Nat := 0
deriving DecidableEq, Repr

/-- A BIND_OFF that is under way (R96). -/
structure BindOff where
  qp : Nat
  cid : Nat
  /-- 0: it waits for a close; 1: write-backs; 2: flushes; 3: the step record -/
  stage : Nat
  /-- bytes written back so far -/
  bytes : Nat
  /-- blocks whose write-back it has started, and poisoned blocks it has skipped: (table, block) -/
  started : List (Nat × Nat)
  skipped : List (Nat × Nat)
deriving DecidableEq, Repr

/-- Cast-on, bind-off and reset state, and the fields of MB_STATUS that other units do not hold (R89–R108). -/
structure ResetUnit where
  phase : Phase := .off
  /-- STAGE of MB_STATUS: the current stage, 0 before S1 -/
  stage : Nat := 0
  ready : Bool := false
  recovery : Bool := false
  bound : Bool := false
  degraded : Bool := false
  lastReset : ResetKind := .powerOn
  /-- CLOSE_PENDING: a step close resumed from the journal is running -/
  closePending : Bool := false
  recountDone : Bool := false
  failCode : Nat := 0
  /-- the device is held in its stage (R95) -/
  held : Bool := false
  /-- stage S4 has ended: every BAR0 region, BAR2, MSI-X and device writes answer (R91) -/
  hostOn : Bool := false
  /-- the bring-up under way follows a warm reset or FLR: S0 and S2 are skipped (R89) -/
  warm : Bool := false
  report : ResetReport := {}
  bindOff : Option BindOff := none
  /-- a WARM_RESET has completed on this queue pair; the reset begins once its completion is in host memory (R174) -/
  warmAsked : Option Nat := none
  /-- the interrupted close resumes at this stage once CLOSE_RESUME runs (R106); 0: none -/
  resumeAt : Nat := 0
deriving DecidableEq, Repr

/-- The pins and inputs the module watches (27_electrical_and_connectors.md); `true` for an asserted active-low pin. -/
structure Pins where
  /-- main input and 3.3 V auxiliary are valid -/
  mainValid : Bool := false
  auxValid : Bool := false
  modReset : Bool := false
  warmReset : Bool := false
  perst : Bool := false
  pwrBrake : Bool := false
  /-- RECOVERY# strap -/
  recovery : Bool := false
  /-- PWR_GOOD output -/
  powerGood : Bool := false
  /-- THERM_TRIP# driven low by the trip latch (R475, R548) -/
  thermTrip : Bool := false
deriving DecidableEq, Repr

/-! ### Stitch queues (03_stitch_queues.md, R45) -/

/-- A committed packet: its words not yet read, its epoch, and whether the consumer has read its header (R51, R55, R56). -/
structure SqPacket where
  words : List W64
  size : Nat
  epoch : BitVec 16
  opened : Bool
deriving DecidableEq, Repr

/-- One stitch-queue instance (R46–R65). -/
structure SqInst where
  /-- committed, unread packets, oldest first -/
  packets : List SqPacket := []
  /-- flush epoch of this instance's own flushes; device flushes are counted in `SqUnit.flushes` -/
  epoch : BitVec 16 := 0
  /-- a flush is requested and has not taken effect (R54, R57) -/
  flushPending : Bool := false
  /-- HIGH_WATER of SQ_INFO (R64) -/
  highWater : Byte := 0
  corrected : BitVec 16 := 0
  uncorrectable : BitVec 8 := 0
  frogged : BitVec 16 := 0
  tailFired : BitVec 16 := 0
  /-- consecutive stale-tail firings with no read (R61) -/
  tailRun : Nat := 0
deriving DecidableEq, Repr

/-- The stitch queues and their telemetry window (R64, R65). -/
structure SqUnit where
  /-- SQ_SEL -/
  sel : BitVec 12 := 0
  /-- instances that differ from a fresh one, by id (R45) -/
  inst : List (Nat × SqInst) := []
  /-- flushes of every instance by resets of the device (R54) -/
  flushes : BitVec 16 := 0
  /-- the exponents of R62 have been set at S3 -/
  expSet : Bool := false
deriving DecidableEq, Repr

/-! ### Tier T1 (12_memory_and_scrubbing.md, R37, R38) -/


/-- A poison-parking record (R270); records stand in parking order, and a freed one is gone (VALID 0). -/
structure ParkRec where
  /-- the stack in whose area the record lies (R272) -/
  area : Fin 8
  /-- its 128-byte place in that area, 0–8,191 -/
  place : Nat
  seqNo : W64
  source : BitVec 9
  step : BitVec 48
  table : BitVec 20
  /-- values are BF16 rather than FP32 -/
  bf16 : Bool
  /-- target FORMAT 0–2 -/
  format : Nat
  row : Nat
  first : Nat
  sector : Nat
  /-- the values' FP32 bits, one per element; BF16 values are widened exactly -/
  values : List W32
  /-- the draws that travel with an update of a stochastically rounded table (R385) -/
  draws : List Nat
deriving DecidableEq, Repr

/-- Error counts of a (stack, PC, G) cell (R277). -/
structure CellCount where
  corrected : W32 := 0
  uncorrectable : BitVec 16 := 0
deriving DecidableEq, Repr

/-- Counts of one stack (R277) and its Scrubber (R275). -/
structure StackUnit where
  corrected : W32 := 0
  uncorrectable : BitVec 16 := 0
  ondie : BitVec 16 := 0
  repaired : BitVec 16 := 0
  /-- the Scrubber's within-stack byte offset -/
  position : Nat := 0
  late : Bool := false
  passes : W32 := 0
  /-- bytes scrubbed in the present slot -/
  scrubbed : Nat := 0
deriving DecidableEq, Repr

/-- A repair under way (R265): the sector and the source being read: 2 T2, 3 T3, 4 replica or hot-set copy. -/
structure Repair where
  sector : Nat
  source : Nat
  /-- the source's NVMe read ended without success -/
  failed : Bool := false
deriving DecidableEq, Repr

/-- The parameters of the scrub-slot entry in the schedule (R275). -/
structure ScrubSlot where
  /-- index of its schedule entry -/
  entry : Nat
  periodic : Bool
  /-- slot length in µs -/
  slotUs : Nat
  /-- quota per stack and slot in bytes; 0 for a one-shot entry -/
  quota : Nat
  /-- a slot is running -/
  active : Bool
deriving DecidableEq, Repr

/-- Tier T1 with its metadata, the HBM controllers and the Scrubber (R256–R277). -/
structure Ram where
  /-- the bytes of tier T1 by device-physical address (R37) -/
  t1 : List Host.Cell := []
  /-- usable stacks and tiles -/
  stackSet : BitVec 8 := 0xFF
  tiles : BitVec 16 := 0xFFFF
  /-- sector addresses with POISON 1 (R258) -/
  poison : List Nat := []
  /-- VERSION of sectors by sector number, where not 0 (R258) -/
  sectorVer : List (Nat × BitVec 7) := []
  /-- frame-version table by frame number, where not 0 (R261) -/
  frameVer : List (Nat × BitVec 7) := []
  /-- the window write map: frames written while a window is open (R262) -/
  windowMap : List Nat := []
  windowOpen : Bool := false
  cells : List (Nat × CellCount) := []
  stack : Vector StackUnit 8 := Vector.replicate 8 {}
  parked : List ParkRec := []
  /-- sectors whose poison a store or repair has just cleared: their parked records apply before the command ends (R271) -/
  cleared : List Nat := []
  repairs : List Repair := []
  /-- ER_MEM_SEL (R277) -/
  memSel : BitVec 14 := 0
  slot : Option ScrubSlot := none
deriving DecidableEq, Repr

/-! ### Tables, replicas and hot sets (09_tables_and_row_formats.md, 10) -/

/-- A table descriptor (R195), with what the device notes per table. -/
structure Table where
  id : BitVec 20
  tag : BitVec 12
  format : Nat
  codeSigned : Bool
  index : Nat
  oor : Nat
  addMode : Nat
  round : Nat
  sat : Bool
  hashFn : Nat
  width : Nat
  stride : Nat
  rows : Nat
  hashSeed : W64
  vbase : Nat
  dirBase : Nat
  shardKind : Nat
  shardMod : Nat
  localFirst : Nat
  localRows : Nat
  compQ : BitVec 20
  compR : BitVec 20
  modulus : Nat
  combine : Nat
deriving DecidableEq, Repr

/-- A copy of one row in a replica or hot set (R206, R208, R210). -/
structure RowCopy where
  row : Nat
  data : List Byte
  version : BitVec 7
  stale : Bool
deriving DecidableEq, Repr

/-- A replicated range (R206). -/
structure Replica where
  table : BitVec 20
  first : Nat
  count : Nat
  tiles : BitVec 16
  stackSet : BitVec 8
  rows : List RowCopy
deriving DecidableEq, Repr

/-- A hot set (R210). -/
structure HotSet where
  table : BitVec 20
  tiles : BitVec 16
  rows : List RowCopy
deriving DecidableEq, Repr

/-- Tables and copies of rows. -/
structure TableUnit where
  tables : List (Nat × Table) := []
  replicas : List Replica := []
  /-- hot sets by hot-set id -/
  hotSets : List (Nat × HotSet) := []
  /-- hot sets whose refresh waits for fault-ins (R212) -/
  refreshing : List Nat := []
deriving DecidableEq, Repr

/-! ### Address translation (11_translation.md) -/

/-- An address space (R241, R252): the root of its page table and its generation. -/
structure AddrSpace where
  root : Nat
  gen : W32
deriving DecidableEq, Repr

/-- A cached leaf translation (R243). -/
structure CachedLeaf where
  tag : Nat
  gen : W32
  /-- first virtual address of the page, and log2 of its size -/
  page : Nat
  size : Nat
  leaf : W64
deriving DecidableEq, Repr

/-- A fault record (R248) while it is outstanding. -/
structure FaultRec where
  id : Nat
  va : Nat
  accessVa : Nat
  entryAddr : Nat
  tag : Nat
  level : Nat
  access : Nat
  source : Nat
  unit : Nat
  cls : Nat
  again : Bool
  waiters : Nat
  step : Nat
  /-- it has been written into the fault ring -/
  written : Bool
deriving DecidableEq, Repr

/-- A range invalidation under way (R253). -/
structure Inval where
  qp : Nat
  cid : Nat
  tag : Nat
  base : Nat
  len : Nat
  /-- engines that have not acknowledged, 58 bits: thread engines, Hooks, Purls, ports, the aperture -/
  waiting : BitVec 58
  /-- it is the pool withdrawal of an AS_DESTROY (R241) -/
  destroy : Bool
deriving DecidableEq, Repr

/-- An active stream descriptor (R245, R246). -/
structure Stream where
  tile : Fin 16
  /-- it belongs to the tile's Purl rather than its Hook -/
  purl : Bool
  thread : Nat
  tag : Nat
  base : Nat
  len : Nat
  stride : Nat
  span : Nat
  lookahead : Nat
  /-- address up to which the engine has accessed the region -/
  reached : Nat
  /-- address up to which the Hub has walked ahead -/
  walked : Nat
deriving DecidableEq, Repr

/-- The Translation Hub (R235–R255). -/
structure TxUnit where
  spaces : List (Nat × AddrSpace) := []
  /-- generation of tags by number, kept beyond AS_DESTROY -/
  gens : List (Nat × W32) := []
  cache : List CachedLeaf := []
  nextFault : Nat := 1
  /-- outstanding records, oldest first -/
  faults : List FaultRec := []
  /-- (tag, entry address) of entries whose fault has been replayed (R250) -/
  replayed : List (Nat × Nat) := []
  /-- FAULT_RING_SET has been accepted, and its base -/
  ringSet : Bool := false
  ringBase : W64 := 0
  frHead : Nat := 0
  frTail : Nat := 0
  frPhase : Bool := true
  /-- records written and not released -/
  frCount : Nat := 0
  /-- TX_FR_AGE in ms, counted by the watchdog -/
  frAge : W32 := 0
  invals : List Inval := []
  /-- ranges whose pool update a reset interrupted: tag, base, length (R562) -/
  owed : List (Nat × Nat × Nat) := []
  streams : List Stream := []
  /-- range-invalidation acknowledgements expected and received (R451) -/
  ackExpected : Nat := 0
  ackReceived : Nat := 0
deriving DecidableEq, Repr

/-! ### Residency (10_residency_and_flash_tail.md) -/

/-- A fault-in under way (R217). -/
structure FaultIn where
  table : Nat
  blk : Nat
  cls : Nat
  /-- the pool frame it fills, once it has one -/
  frame : Option Nat
  /-- the dirty block whose write-back must free the frame first (R221) -/
  victim : Option (Nat × Nat)
  /-- fills that a read error has already failed (R218): the fault to deliver -/
  failed : Option Nat
deriving DecidableEq, Repr

/-- A write-back under way (R222). -/
structure WriteBack where
  table : Nat
  blk : Nat
  /-- target tier, 2 or 3 -/
  tier : Nat
  /-- an update or store has cancelled it (R223) -/
  cancelled : Bool
  /-- its block leaves T1 when it completes (eviction, R221; PREFETCH, R233) -/
  evict : Bool
deriving DecidableEq, Repr

/-- What an outstanding NVMe command does (R227). -/
inductive NvmeUse where
  | read (table blk : Nat)
  | write (table blk : Nat)
  | dealloc (table blk lba : Nat)
  | flush
  | stepRecord (step : Nat)
  | repair (sector : Nat)
deriving DecidableEq, Repr

/-- An outstanding NVMe command: its id, use, and whether it has timed out and been sent an Abort (R229). -/
structure NvmeCmd where
  id : Nat
  use : NvmeUse
  aborted : Bool
deriving DecidableEq, Repr

/-- One NVMe port and its drive (R226–R231). -/
structure Drive where
  /-- NPRSNT# read low when it was last sampled (R554) -/
  fitted : Bool := false
  usable : Bool := false
  fenced : Bool := false
  /-- drive faults since the last initialisation (R229) -/
  faults : Nat := 0
  /-- capacity of namespace 1 in LBAs, and MDTS in bytes (0: no limit) -/
  capacity : Nat := 0
  mdts : Nat := 0
  nextId : Nat := 0
  cmds : List NvmeCmd := []
  /-- the drive's contents by byte address, an environment memory -/
  data : List Host.Cell := []
  /-- NPERST# of the port, held low from every reset until stage S3 initialises the port (R554) -/
  nperst : Bool := true
deriving DecidableEq, Repr

/-- A write-back journal record (R224). -/
structure WbRec where
  seqNo : Nat
  kind : Nat
  tier : Nat
  table : Nat
  blk : Nat
  target : W64
deriving DecidableEq, Repr

/-- The row-block pool, its clock, write-backs and drives. -/
structure Residency where
  /-- the POOL leaves read so far: (tag, page, first 64 KiB frame, frames); the pool is their union (R241) -/
  poolDecl : List (Nat × Nat × Nat × Nat) := []
  /-- what each used frame holds or is reserved for: (table, block) -/
  used : List (Nat × (Nat × Nat)) := []
  hand : Nat := 0
  faultIns : List FaultIn := []
  writeBacks : List WriteBack := []
  drives : Vector Drive 4 := Vector.replicate 4 {}
  journal : List WbRec := []
  journalSeq : Nat := 1
  /-- accessed-by sets by number 1–63: 512-bit device masks (R234) -/
  absets : List (Nat × BitVec 512) := []
deriving DecidableEq, Repr

/-! ### Threads (13_threads.md, 14_pyrat_processor.md) -/

/-- A segment descriptor (R302). -/
structure Seg where
  base : Nat := 0
  limit : Nat := 0
  r : Bool := false
  w : Bool := false
  x : Bool := false
  a : Bool := false
deriving DecidableEq, Repr

/-- A loaded pattern (R182): its mode and its code. -/
structure Pattern where
  plain : Bool
  image : List Byte
deriving DecidableEq, Repr

/-- The status a counter has latched, with the XI and XF of its operation (R288). -/
structure Latch where
  status : Nat
  xi : W64
  xf : W64
deriving DecidableEq, Repr

/-- A completion counter (R287, R288). -/
structure Counter where
  out : Nat := 0
  latch : Option Latch := none
  more : Bool := false
deriving DecidableEq, Repr

/-- Why a thread is not ready (R286). -/
inductive Hold where
  | ready
  /-- the data of a load, fill or returning atomic is on its way (R306) -/
  | data
  | waitc (k : Fin 4) (n : Nat)
  | fence (f : FenceScope)
  /-- it waits for a hardware resource with this id (R289) -/
  | resource (id : Nat)
  /-- a recoverable stall, with SEG, WRITE and ADDR of the access in XF's layout (R304, R317) -/
  | stall (why : Stall) (access : W64)
  /-- it has ended; its context waits for its asynchronous operations (R284) -/
  | ended
deriving DecidableEq, Repr

/-- A loaded value on its way to its physical slot in plain mode (R309). -/
structure PendingLoad where
  left : Nat
  slot : Fin 16
  value : W64
deriving DecidableEq, Repr

/-- A product on its way to ML and MH (R307, R309). -/
structure PendingMul where
  left : Nat
  lo : W64
  hi : W64
deriving DecidableEq, Repr

/-- A thread context (13, Model). The word at stack position `p` from the bottom stands in physical slot `p mod 16`. -/
structure Thread where
  launch : Nat
  index : Nat
  cls : Fin 4
  tag : BitVec 12
  pattern : Nat
  slots : Vector W64 16 := Vector.replicate 16 0
  sd : Nat := 4
  preds : BitVec 8 := 1
  segs : Vector Seg 8 := Vector.replicate 8 {}
  ml : W64 := 0
  mh : W64 := 0
  xc : W64 := 0
  xi : W64 := 0
  xf : W64 := 0
  /-- byte offset in SG0 of the current unit -/
  pc : Nat := 0
  cc : Vector Counter 4 := Vector.replicate 4 {}
  /-- the wait counter and the resource id of the latest wait (R289) -/
  waited : W32 := 0
  waitRes : BitVec 16 := 0
  muls : List PendingMul := []
  loads : List PendingLoad := []
  /-- target of a taken branch whose shadow is open (R309) -/
  shadow : Option Nat := none
  /-- remaining iterations of a repeat that runs (R312–R314) -/
  rep : Option Nat := none
  hold : Hold := .ready
  /-- writes not yet performed at the scopes T, D and S (R291) -/
  unT : Nat := 0
  unD : Nat := 0
  unS : Nat := 0
  /-- it ended by fault with this status (R284) -/
  faulted : Option Nat := none
deriving DecidableEq, Repr

/-- A pattern launch from its begin to its completion (R278–R285). -/
structure Launch where
  id : Nat
  qp : Nat
  cid : Nat
  pattern : Nat
  plain : Bool
  cls : Fin 4
  tag : BitVec 12
  mask : BitVec 16
  count : Nat
  block : Nat
  segs : Vector Seg 8
  userArg : W64
  stackBase : Nat
  stackBytes : Nat
  /-- index of the next thread to be placed (R281) -/
  next : Nat
  endedOk : Nat
  endedFault : Nat
  /-- index, status, XF and PC of the faulted thread with the lowest index (R278) -/
  first : Option (Nat × Nat × W64 × Nat)
  waitSum : W64
  /-- threads it lost to tile resets; it then ends ABANDONED (R103, R112) -/
  lost : Nat
deriving DecidableEq, Repr

/-- A block copy under way (R336). -/
structure Copy where
  /-- context key and counter of the issuing thread -/
  thread : Nat
  counter : Fin 4
  srcSeg : Fin 8
  dstSeg : Fin 8
  src : W64
  dst : W64
  len : W64
  /-- bytes copied so far -/
  done : Nat
  stall : Stall
deriving DecidableEq, Repr

/-- A claim that waits for units of a pool (R449). -/
structure Claim where
  /-- resource id and scope of the pool (R443) -/
  res : Nat
  scope : Nat
  cls : Fin 4
  units : Nat
  /-- the context whose instruction makes the claim -/
  thread : Nat
deriving DecidableEq, Repr

/-- What a pool remembers between decisions (R448, R449). -/
structure PoolMem where
  /-- occupancy at the start of the present cycle, and units granted in it -/
  start : Nat := 0
  taken : Nat := 0
  /-- grants to other classes since the last C3 grant -/
  sinceC3 : Nat := 0
deriving DecidableEq, Repr

/-- The thread engines, the work distributor and the pools' wait lists (chapters 13, 14, 21). -/
structure ThreadUnit where
  patterns : List (Nat × Pattern) := []
  launches : List Launch := []
  nextLaunch : Nat := 0
  /-- contexts by key: 512 × tile + context number; 8,192 is Pyrat-M's plain-mode thread -/
  threads : List (Nat × Thread) := []
  copies : List Copy := []
  /-- the rotating pointer of R281 -/
  pointer : Nat := 0
  /-- waiting claims, oldest first -/
  claims : List Claim := []
  pools : List (Nat × PoolMem) := []
deriving DecidableEq, Repr

/-! ### Hook, Bag Unit and held packets (16_gather_and_pool.md, 17_speculation.md) -/

/-- The three kinds of Hook operation (16, Model). -/
inductive HookKind where
  | gather | pool | addr
deriving DecidableEq, Repr

/-- Where a speculatively read row was served from (R369). -/
inductive ReadPlace where
  | primary
  | copy
  /-- a remote owner and the tracking step it returned (R370); `answer` is its reply to the validation request -/
  | remote (dev : Nat) (track : Nat) (answer : Option Bool)
deriving DecidableEq, Repr

/-- A record of the read log (R369). -/
structure ReadRec where
  elem : Nat
  table : Nat
  row : Nat
  blk : Nat
  frame : Nat
  version : BitVec 7
  place : ReadPlace
  /-- the copy was rewritten since the read (R372) -/
  rewritten : Bool
deriving DecidableEq, Repr

/-- A fetched element that has not committed: the bytes of its row, or of its two component rows (R205). -/
structure Fetched where
  elem : Nat
  rows : List (List Byte)
deriving DecidableEq, Repr

/-- The partial bag a confirmed operation carries over (R373). -/
structure SavedBag where
  bag : Nat
  next : Nat
  n : Nat
  acc : List W32
  cnt : Counts
deriving DecidableEq, Repr

/-- A Hook operation (R346–R375). -/
structure HookOp where
  id : Nat
  tile : Fin 16
  /-- context key, counter, class and tag of the issuing thread -/
  thread : Nat
  counter : Fin 4
  cls : Fin 4
  tag : BitVec 12
  kind : HookKind
  /-- the 64-byte descriptor and its virtual address -/
  desc : BitVec 512
  descVa : Nat
  segs : Vector Seg 8
  /-- the checks of R347 have been passed -/
  accepted : Bool
  /-- the bag offsets, read whole (R347) -/
  ofs : List Nat
  /-- next element to commit, and the element before which elements are skipped (R359) -/
  next : Nat
  skipTo : Nat
  /-- the bag under way, its committed elements, its accumulator -/
  bag : Nat
  inBag : Nat
  acc : List W32
  committed : Nat
  bagsOut : Nat
  empty : Nat
  cnt : Counts
  /-- row buffers it holds: accumulator and next row (R351), and the held packet (R363) -/
  bufs : Nat
  packetBufs : Nat
  fetched : List Fetched
  stall : Stall
  /-- SEG, WRITE and ADDR of a stalled access, in XF's layout -/
  stallXf : W64
  /-- it runs speculatively (R348) -/
  spec : Bool
  /-- commit halted at a suppressed fault (R368) -/
  halted : Bool
  reads : List ReadRec
  /-- outputs held (R363), by element or bag -/
  packet : List (Nat × List Byte)
  saved : Option SavedBag
  /-- it has ended with this status, XI and XF and writes its record (R354) -/
  ending : Option (Nat × W64 × W64)
  /-- sector requests issued, and those returned and committed (R451) -/
  issuedReq : Nat
  committedReq : Nat
  /-- the counts of the held outputs, by element or bag (R354, R375) -/
  held : List (Nat × Counts)
deriving DecidableEq, Repr

/-! ### Purl and adders (18_scatter_and_step_close.md) -/

/-- An update accepted by a Purl (R379), or received from a sender (R382). -/
structure Update where
  /-- the accepting Purl's tile and context, for an own update -/
  tile : Nat
  thread : Nat
  dest : Nat
  sender : Nat
  seqNo : W64
  step : Nat
  table : Nat
  row : Nat
  /-- FP32 bits of the values; BF16 values are widened exactly -/
  values : List W32
  bf16 : Bool
  cls : Fin 4
  /-- one 16-bit draw per element of a stochastically rounded table (R385) -/
  draws : List Nat
  stall : Stall
  /-- the launch whose thread issued it, for an own update (R285) -/
  launch : Option Nat := none
deriving DecidableEq, Repr

/-- A ROW_ADD whose rows are being accepted (R377–R379). -/
structure RowAddOp where
  tile : Fin 16
  thread : Nat
  counter : Fin 4
  cls : Fin 4
  tag : BitVec 12
  segs : Vector Seg 8
  /-- the segment of the chain and the offset of the current descriptor -/
  seg : Fin 8
  off : Nat
  /-- the current 32-byte descriptor, once it has been read and checked -/
  desc : Option (BitVec 256)
  /-- descriptors before the current one -/
  links : Nat
  /-- next row of the current descriptor, and rows accepted over the whole chain -/
  next : Nat
  accepted : Nat
  step : Nat
  stall : Stall
deriving DecidableEq, Repr

/-- One accumulator entry (R386). -/
structure AccEntry where
  base : W32
  state : Nat
  acc : BitVec 92
deriving DecidableEq, Repr

/-- A per-row accumulator of the exact-add region (R386). -/
structure Accum where
  stack : Fin 8
  table : Nat
  row : Nat
  step : Nat
  /-- where it lies in the region: its device-physical address -/
  addr : Nat
  entries : List AccEntry
deriving DecidableEq, Repr

/-- A receiver's record of one sender (R382). -/
structure SenderRec where
  next : W64 := 1
  map : BitVec 1024 := 0
deriving DecidableEq, Repr

/-- What an outstanding ROW_GET or ROW_ADD waits for (R435–R437). -/
inductive GetWait where
  | answer
  /-- until the shard map reaches this generation (R437) -/
  | gen (g : Nat)
  /-- until the 1 ms resend to a lagging owner (R437) -/
  | lag
deriving DecidableEq, Repr

/-- An update in the retransmit store (R380). -/
structure Resend where
  upd : Update
  wait : GetWait
deriving DecidableEq, Repr

/-- The scatter-and-add units. -/
structure PurlUnit where
  /-- updates in Purl slots, oldest first -/
  slots : List Update := []
  ops : List RowAddOp := []
  /-- next sequence number per destination (R380) -/
  seq : List (Nat × W64) := []
  store : List Resend := []
  /-- per sender -/
  senders : List (Nat × SenderRec) := []
  /-- received updates in service and those held under R20 -/
  inbound : List Update := []
  held : List Update := []
  accums : List Accum := []
  /-- (step, table, row) of exact-add rows that take float-adds, and (step, table) of tables flagged for it (R271, R389) -/
  fellRows : List (Nat × Nat × Nat) := []
  fellTables : List (Nat × Nat) := []
  /-- accumulators allocated and released per stack (R451) -/
  allocated : Vector Nat 8 := Vector.replicate 8 0
  released : Vector Nat 8 := Vector.replicate 8 0
  /-- subnormal operands the adders have flushed (R385) -/
  flushed : Nat := 0
deriving DecidableEq, Repr

/-! ### Matrix Unit (19_tensor_arithmetic.md) -/

/-- An accumulator's value (R398). -/
inductive AccVal where
  | i32 (x : W32)
  | f32 (x : W32)
  | f64 (x : W64)
deriving DecidableEq, Repr

/-- A queued Matrix Unit operation (R294, R402). -/
structure MxOp where
  tile : Fin 16
  thread : Nat
  counter : Fin 4
  cls : Fin 4
  tag : BitVec 12
  segs : Vector Seg 8
  desc : BitVec 512
  started : Bool
  /-- rows completed, and what it counted so far -/
  row : Nat
  cnt : Counts
  written : Nat
  /-- flushed entries of its expansion tables counted so far (R405, R416) -/
  seen : List Nat
  stall : Stall
  stallXf : W64
  ending : Option (Nat × W64 × W64)
deriving DecidableEq, Repr

/-- What the tiles hold beside their thread contexts. -/
structure TileUnit where
  staging : Vector (List Host.Cell) 16 := Vector.replicate 16 []
  lfsr : Vector W32 16 := Vector.ofFn (fun t => BitVec.ofNat 32 (0x5EED0000 + t.val))
  hooks : List HookOp := []
  retained : List HookOp := []
  nextOp : Nat := 0
  /-- sector requests of operations that have left each tile's Hook: issued, and committed (R451) -/
  reqIssued : Vector Nat 16 := Vector.replicate 16 0
  reqCommitted : Vector Nat 16 := Vector.replicate 16 0
  mx : List MxOp := []
  /-- accumulators by tile × 2^18 + 512 × row + column -/
  accs : List (Nat × AccVal) := []
deriving DecidableEq, Repr

/-! ### Steps and windows (01_rows_bags_and_steps.md, 17, 18) -/

/-- The phase of a live step (01, Steps and their phases). -/
inductive StepPhase where
  | opened
  | confirm
  /-- in close stage 1–7 -/
  | closing (stage : Nat)
deriving DecidableEq, Repr

/-- The state of a speculation window after its SPEC_OPEN took effect (17, Model). -/
inductive WindowState where
  | opened | validating | closed | abandoned
deriving DecidableEq, Repr

/-- A live step. -/
structure Step where
  num : Nat
  phase : StepPhase
  /-- queue pair and CID of the STEP_CLOSE that runs -/
  closer : Option (Nat × Nat)
  /-- the flip mark of its kind 0x05 entry has been reached, or there is none (R75) -/
  flipReady : Bool
  damaged : Bool
  /-- local updates applied, parked; remote acknowledged, refused; inbound applied or parked; duplicates -/
  applied : Nat
  parked : Nat
  acked : Nat
  refused : Nat
  inApplied : Nat
  dups : Nat
  converted : Nat
  elements : Nat
  rewritten : Nat
  heldApplied : Nat
deriving DecidableEq, Repr

/-- The speculation window (R361–R376). -/
structure Window where
  step : Nat
  state : WindowState
  issued : Nat
  held : Nat
  reread : Nat
  suppressed : Nat
  /-- halted elements counted at the confirm (R374), and re-read elements counted there -/
  deferred : Nat
  frogged : Nat
deriving DecidableEq, Repr

/-- A step-journal record (R393). -/
structure JournalRec where
  num : Nat
  kind : Nat
  stage : Nat
  step : Nat
  a : W64
  b : W64
  c : W64
deriving DecidableEq, Repr

/-- A held or waiting confirm (R23). -/
structure HeldConfirm where
  step : Nat
  window : Bool
  /-- queue pair and CID of its command -/
  owner : Nat × Nat
  late : Bool
deriving DecidableEq, Repr

/-- Steps, window and step journal. -/
structure StepUnit where
  /-- the last STEP_OPEN that took effect (R16) -/
  last : Option Nat := none
  /-- the device's closed step (R391) -/
  closed : Nat := 0
  /-- the last step whose record is durable (R108) -/
  durable : Nat := 0
  /-- live steps, oldest first -/
  live : List Step := []
  window : Option Window := none
  /-- step of the last window that was abandoned (R186) -/
  lastAbandoned : Option Nat := none
  /-- step of the window write map (R371) -/
  mapStep : Nat := 0
  /-- confirms held for the close before them (R23), and confirms whose window validates (R375) -/
  heldConfirm : Option HeldConfirm := none
  validating : Option HeldConfirm := none
  journal : List JournalRec := []
  journalNext : Nat := 0
  /-- DRAIN(n) received, and sent: peer and step (R391) -/
  drainsIn : List (Nat × Nat) := []
  drainsOut : List (Nat × Nat) := []
  /-- repeated DRAINs answered: peer and step (R559) -/
  drainsAns : List (Nat × Nat) := []
  /-- orderly leavers (R392) -/
  left : List Nat := []
deriving DecidableEq, Repr

/-! ### Henur fabric (20_henur_fabric.md) -/

/-- The state of a port (R442). -/
inductive PortState where
  | down | training | joined | fenced | disabled
deriving DecidableEq, Repr

/-- A shard-directory entry (R433). -/
structure ShardEntry where
  table : Nat
  kind : Nat
  device : Nat
  modulus : Nat
  first : Nat
deriving DecidableEq, Repr

/-- A SHARDMAP_LOAD that waits for a close (R188): queue pair and CID, GEN, and the checked map. -/
structure HeldLoad where
  owner : Nat × Nat
  gen : Nat
  shards : List ShardEntry
deriving DecidableEq, Repr

/-- What an answer to a ROW_GET brings: the row, or the status of a refusal (R436). -/
inductive GetResult where
  | row (data : List Byte)
  | fault (status : Nat)
deriving DecidableEq, Repr

/-- An outstanding ROW_GET (R435). -/
structure RowGet where
  req : Nat
  dest : Nat
  cls : Fin 4
  spec : Bool
  /-- a validation request (R372) -/
  validate : Bool
  table : Nat
  row : Nat
  version : Nat
  track : Nat
  frame : Nat
  /-- the Hook operation, element and component it serves -/
  op : Nat
  elem : Nat
  comp : Nat
  wait : GetWait
  /-- what its answer brought -/
  result : Option GetResult
deriving DecidableEq, Repr

/-- A ROW_GET in service at the owner (R435). -/
structure Service where
  port : Fin 9
  src : Nat
  req : Nat
  cls : Fin 4
  spec : Bool
  table : Nat
  row : Nat
  stall : Stall
deriving DecidableEq, Repr

/-- An outgoing message that waits at a port: its VC, whether it is a request, and its bytes. -/
structure TxMsg where
  vc : Fin 5
  request : Bool
  data : List Byte
deriving DecidableEq, Repr

/-- One Henur port (R419–R425, R429, R438, R439, R442). -/
structure Port where
  state : PortState := .disabled
  /-- PORT_CONFIG: enabled, the expected peer (`none`: any), the violation limit -/
  enabled : Bool := false
  expected : Option Nat := none
  violLimit : Nat := 64
  plies : BitVec 8 := 0
  peer : Nat := 0
  rtt : Nat := 0
  /-- one-way delay in ps (R70) -/
  delay : Nat := 0
  violations : Nat := 0
  /-- violations counted in the present second (R439) -/
  inSecond : Nat := 0
  replayed : Nat := 0
  fecCorrected : Nat := 0
  fecFailed : Nat := 0
  lastCause : Nat := 0
  gaugeIgnored : Nat := 0
  dropped : Nat := 0
  /-- credits the peer advertised, and those available (R425) -/
  alloc : Vector Nat 5 := Vector.replicate 5 0
  avail : Vector Nat 5 := Vector.replicate 5 0
  /-- received flits held, and freed ones not yet returned -/
  rxHeld : Vector Nat 5 := Vector.replicate 5 0
  rxFreed : Vector Nat 5 := Vector.replicate 5 0
  /-- SEQ of the next flit to send, of the oldest unacknowledged one, and of the next flit expected (R422) -/
  txSeq : Nat := 0
  txAck : Nat := 0
  rxSeq : Nat := 0
  /-- flits accepted since the last ACK; a NAK is out for the present gap -/
  unacked : Nat := 0
  nakSent : Bool := false
  /-- consecutive replays without an acceptance -/
  replays : Nat := 0
  txq : List TxMsg := []
  /-- queue pairs and CIDs of the PORT_CONFIG, PORT_RESET and PORT_UNFENCE commands that wait for the join, oldest first -/
  waiters : List (Nat × Nat) := []
  /-- send time of an echo exchange under way (R70) -/
  echo : Option Nat := none
  /-- the unmeasured port waits for its first round trip (R420) -/
  measuring : Bool := false
  /-- a HELLO received before this port has sent its own (R429) -/
  peerHello : Option (List Byte) := none
  /-- this port has sent its HELLO since it last trained -/
  helloSent : Bool := false
  /-- link-state periods of the present second since the join (R439) -/
  periods : Nat := 0
deriving DecidableEq, Repr

/-- A link-state record (R428, R430). -/
structure LinkRec where
  origin : Nat
  seqNo : Nat
  peers : List (Option Nat)
deriving DecidableEq, Repr

/-- Counts of a peer for the update ledgers (R451). -/
structure PeerCount where
  accepted : W64 := 0
  applied : W64 := 0
  acked : W64 := 0
  refused : W64 := 0
  received : W64 := 0
  inApplied : W64 := 0
  dups : W64 := 0
  nacked : W64 := 0
  gets : W64 := 0
  answered : W64 := 0
  retired : W64 := 0
  inGets : W64 := 0
  inAnswered : W64 := 0
  inDropped : W64 := 0
deriving DecidableEq, Repr

/-- The fabric unit. -/
structure Fabric where
  /-- FABRIC_ID (R187) -/
  id : Option Nat := none
  ports : Vector Port 9 := Vector.replicate 9 {}
  gen : Nat := 0
  shards : List ShardEntry := []
  /-- SHARDMAP_LOADs held for a close (R188), oldest first -/
  loads : List HeldLoad := []
  nextReq : Nat := 1
  gets : List RowGet := []
  services : List Service := []
  links : List LinkRec := []
  lsSeq : Nat := 0
  /-- routed port by destination (R431) -/
  routes : List (Nat × Nat) := []
  /-- ports whose first join since a cold reset lies ahead (R428) -/
  coldPorts : BitVec 9 := 0x1FF
  /-- ports found usable at stage S3 (R173) -/
  usable : BitVec 9 := 0x1FF
  counts : List (Nat × PeerCount) := []
deriving DecidableEq, Repr

/-! ### Tally (21_capacity_and_tally.md, R451–R457) -/

/-- What a check of the ledgers is for (R453). -/
inductive CheckFor where
  /-- a TALLY_AUDIT: queue pair and CID -/
  | audit (qp cid : Nat)
  /-- close stage 3 of a step -/
  | close (step : Nat)
deriving DecidableEq, Repr

/-- A check of ledgers under way. -/
structure Check where
  purpose : CheckFor
  compared : Nat
  /-- RECOUNT_DONE at its start (R454) -/
  recountDone : Bool
  /-- ledgers still to be re-read: id and re-reads made (R453 step 4) -/
  rereads : List (Nat × Nat)
  /-- ledgers in window: id, window code, deficit -/
  inWindow : List (Nat × Nat × Nat)
  /-- ledgers out of balance: id, deficit -/
  outOf : List (Nat × Nat)
deriving DecidableEq, Repr

/-- The tally. -/
structure TallyUnit where
  /-- TY_ALARM's ALARM, LEDGER and COUNT (R457) -/
  alarm : Bool := false
  ledger : Nat := 0
  count : W32 := 0
  check : Option Check := none
  /-- by how much a ledger's baseline has moved (R456) -/
  base : List (Nat × Nat) := []
deriving DecidableEq, Repr


/-! ### Power, cooling and monitors (23_power_thermal_monitors.md) -/

/-- The default limit of a thermal monitor in 0.1 °C (R473). -/
def defaultLimit (m : Nat) : Nat := if m < 38 then 1000 else if m < 46 then 900 else if m = 46 then 1150 else 450

/-- A monitor (R469–R474): 0–47 thermal, 48–71 voltage, 72–87 process. -/
structure Monitor where
  /-- the last sample: 0.1 °C, mV or MHz, two's complement -/
  value : BitVec 16 := 0
  valid : Bool := false
  /-- OVER at the last sample -/
  over_ : Bool := false
  warn : Bool := false
  limit : BitVec 16 := 0
  /-- ladder positions the thermal governor asks for on account of this monitor -/
  press : Nat := 0
  /-- its pressure is being released, and power-controller periods since the last position was given back (R474, R483) -/
  releasing : Bool := false
  ticks : Nat := 0
deriving DecidableEq, Repr

/-- A committed grant that has not taken effect: watts, and its GRANT_BEAT unless it has none (R478, R476). -/
structure PendingGrant where
  watts : Nat
  beat : Option W32
deriving DecidableEq, Repr

/-- The power controller and the monitors (R469–R490). -/
structure PowerUnit where
  monitors : Vector Monitor 88 := Vector.ofFn (fun i => { limit := BitVec.ofNat 16 (if i.val < 48 then defaultLimit i.val else 0) })
  /-- the last samples of input power in W, newest first, at most ten of 10 µs (R470) -/
  samples : List Nat := []
  /-- effective cap, grant in force, host ceiling, in W (R476, R490) -/
  cap : Nat := 450
  grant : Nat := 450
  hostCap : Nat := 1150
  /-- the GRANT_W last written (R478) -/
  grantW : Nat := 450
  /-- the GRANT_BEAT last written -/
  grantBeat : W32 := 0
  pendingGrant : Option PendingGrant := none
  ramping : Bool := false
  /-- PWR_BRAKE# asserted (R487) -/
  brake : Bool := false
  standalone : Bool := false
  /-- ladder positions the power controller asks for, 0–44, and its periods 3 % or more below the cap (R483) -/
  ladder : Nat := 0
  upTicks : Nat := 0
  event : W32 := 0
  eventMask : W32 := 0
  throttleUs : W32 := 0
  speedBin : Byte := 0
deriving DecidableEq, Repr


/-! ### Module flash: keys, tags, boot banks (24_identity_and_keys.md, 25_firmware_update.md) -/

/-- A public key: its coordinates, or a key that the spec names without giving it. -/
inductive PubKey where
  | release
  | factory
  | point (x y : Nat)
deriving DecidableEq, Repr

/-- An owner key slot (R499). -/
structure KeySlot where
  valid : Bool
  gen : Nat
  key : PubKey
deriving DecidableEq, Repr

/-- The key in force as taken at stage S1 (R499, R492). -/
structure KeyForce where
  gen : Nat := 0
  slot : Nat := 0
  factory : Bool := false
  key : PubKey := .release
deriving DecidableEq, Repr

/-- A boot bank with its record (25, Model): state code 0–4; an image of `none` is the one installed at manufacture. -/
structure Bank where
  state : Nat
  seqNo : Nat
  version : Nat
  fallbacks : Nat
  image : Option (List Byte)
deriving DecidableEq, Repr

/-- A delivery that is being staged (R510, R516): the next OFFSET, the bytes kept, VERSION and size from the checked header (0
before the check), and the chain chunks that wait for the check before they are forwarded (R515). A chain delivery whose header
only steps 3 or 4 refuse is forwarded and not kept. -/
structure Staging where
  chain : Bool
  next : Nat
  bytes : List Byte
  checked : Bool
  keep : Bool
  version : Nat
  size : Nat
  unsent : List (List Byte)
deriving DecidableEq, Repr

/-- An apply under way (R512): the whole delivery, and the command that waits for it. -/
structure Apply where
  bytes : List Byte
  owner : Option (Nat × Nat)
deriving DecidableEq, Repr

/-- Module flash and the firmware's delivery state (R491–R525). -/
structure FwUnit where
  banks : Vector Bank 2 := #v[⟨3, 1, 0x0001000000000001, 0, none⟩, ⟨0, 0, 0, 0, some []⟩]
  running : Fin 2 := 0
  staging : Option Staging := none
  applying : Option Apply := none
  /-- version of the retained previous image (R517, R519) -/
  retained : Option Nat := none
  pauseUs : Nat := 0
  /-- chain chunks dropped (R516) -/
  dropped : Nat := 0
  /-- status and subcode of the last refused or failed delivery (R524) -/
  lastStatus : Nat := 0
  lastSub : Nat := 0
  chainUp : Nat := 0xFF
  chainMask : BitVec 9 := 0
  /-- a failed trial that is logged after READY: bank and version (R520) -/
  fallback : Option (Nat × Nat) := none
  slots : Vector KeySlot 2 := #v[⟨true, 1, .release⟩, ⟨false, 0, .release⟩]
  key : KeyForce := {}
  /-- the identity page failed its CRC (R491) -/
  calDefault : Bool := false
  /-- contents of the 17 tag areas where they have been written, and the write counts (R494, R496) -/
  tags : List (Nat × List Byte) := []
  tagCounts : List (Nat × Nat) := []
deriving DecidableEq, Repr

/-! ### Sideband and attestation (23, R477, R488; 24, R498, R506; 27, R550) -/

/-- What a sideband request is refused with (R477, R478, R488). -/
inductive SbError where
  | unsupported | invalidData
deriving DecidableEq, Repr

/-- A sideband answer: numbers, names, bytes, or an error. -/
inductive SbReply where
  | values (xs : List Nat)
  | names (xs : List String)
  | bytes (bs : List Byte)
  /-- FRU record data: record type, field number, content -/
  | fru (fields : List (Nat × Nat × List Byte))
  | unavailable
  | error (e : SbError)
deriving DecidableEq, Repr

/-- One snapshot of the FRU record table (R498): tag areas and write counts. -/
structure FruTable where
  areas : List (List Byte)
  counts : List Nat
deriving DecidableEq, Repr

/-- How far an SPDM requester has come (R506). -/
inductive SpdmPhase where
  | initial | version | capabilities | negotiated
deriving DecidableEq, Repr

/-- The SPDM errors (R506). -/
inductive SpdmError where
  | versionMismatch | unsupportedRequest | unexpectedRequest | invalidRequest
deriving DecidableEq, Repr

/-- An SPDM response (R506, R507). -/
inductive SpdmReply where
  | version
  | capabilities
  | algorithms
  | digests (d : List Byte)
  | certificate (portion : List Byte) (remainder : Nat)
  | challengeAuth (signature : BitVec 768)
  | measurements (blocks : List (Nat × List Byte)) (signature : Option (BitVec 768))
  | error (e : SpdmError)
deriving DecidableEq, Repr

/-- The management sideband and the SPDM responder. -/
structure Sideband where
  /-- I3C dynamic address (R481, R550), MCTP endpoint id, PLDM event receiver -/
  addr : Option (BitVec 7) := none
  eid : Option Byte := none
  receiver : Option Byte := none
  /-- state sensor 110 as last reported (R488) -/
  lastState : Nat := 0
  fru : Option FruTable := none
  spdm : SpdmPhase := .initial
deriving DecidableEq, Repr



/-! ### Outputs -/

/-- What the block sends out. -/
inductive Output where
  /-- an MSI-X message (R135) -/
  | msix (v : Fin 128) (addr : W64) (data : W32)
  /-- the data of a BAR0 read -/
  | regData (off size value : Nat)
  /-- an Unsupported Request completion -/
  | unsupported
  | sqFlushed (id : Nat)
  | sqCommitted (id : Nat) (epoch : BitVec 16)
  | sqWord (id : Nat) (w : W64) (epoch : BitVec 16)
  | sqDiscarded (id : Nat)
  | sqTail (id : Nat)
  /-- an NVMe command (R227) -/
  | nvme (port : Fin 4) (id : Nat) (use : NvmeUse)
  | nvmeAbort (port : Fin 4) (id : Nat)
  /-- bytes of a message sent on a Henur port and VC -/
  | fabric (port : Fin 9) (vc : Fin 5) (data : List Byte)
  /-- an acknowledgement or a replay request of a Henur port (R421, R422) -/
  | linkCtl (port : Fin 9) (ack : Nat) (nak : Bool)
  /-- a replay of `count` flits from SEQ `start` (R422) -/
  | replay (port : Fin 9) (start count : Nat)
  /-- a completion of a BAR2 read, poisoned or not (R129, R266), and a Completer Abort (R128) -/
  | apData (data : List Byte) (poison : Bool)
  | completerAbort
  /-- the answer to a CXL.cache snoop (R122) -/
  | snoopIHitI
  /-- the answer to a DOE Discovery: index, vendor, type, next index (R116) -/
  | doe (index vendor type next : Nat)
  /-- an answer on the management sideband, and a sensor event (R477, R488) -/
  | sideband (r : SbReply)
  | sensorEvent (receiver : Byte) (state : Nat)
  | spdm (r : SpdmReply)
  /-- the link trains (R91) -/
  | linkTraining
deriving DecidableEq, Repr

/-- The reasons a command could stop with a fault: no row of this block stops, so nothing raises one. -/
inductive Fault where
  /-- Raised by nothing: every meaning answers a next state. Safe: it stands here because the interface asks for a type of faults. -/
  | internal
deriving DecidableEq, Repr

/-- The reasons a command could be refused. -/
inductive Refusal where
  /-- Raised by the arm of a row without a meaning, of which there is none left. Safe: a run would stop there. -/
  | notModelled (mnemonic : String)
deriving DecidableEq, Repr

/-- The module: everything the spec gives it, the queue of waiting commands, and what it has sent out. -/
structure State where
  /-- commands that wait, first in, first out -/
  pending : List Instr := []
  /-- what the block has sent, newest first -/
  out : List Output := []
  /-- the model's own: the position in the stream of values the spec leaves open -/
  freeCtr : Nat := 0
  /-- host memory by host address: an environment memory that the device reads and writes (06) -/
  host : List Host.Cell := []
  /-- ranges of host memory whose reads the host refuses, as address and length (R134): set from outside -/
  hostBad : List (Nat × Nat) := []
  /-- error log and error registers (22) -/
  er : ErrUnit := {}
  /-- gauge receiver and schedule (04) -/
  gg : Gauge := {}
  /-- host link (06) -/
  hl : HostLink := {}
  /-- mailbox engine (07) -/
  mb : Mailbox := {}
  /-- cast-on, reset and bind-off (05) -/
  rst : ResetUnit := {}
  /-- pins and inputs (27) -/
  pins : Pins := {}
  /-- stitch queues (03) -/
  sq : SqUnit := {}
  /-- tier T1, its metadata and the Scrubber (12) -/
  ram : Ram := {}
  /-- tables, replicas, hot sets (09, 10) -/
  tbl : TableUnit := {}
  /-- Translation Hub (11) -/
  tx : TxUnit := {}
  /-- row-block pool, write-backs and drives (10) -/
  res : Residency := {}
  /-- thread contexts, launches, patterns, claims (13, 14, 21) -/
  th : ThreadUnit := {}
  /-- Hooks, staging memories, Matrix Units (15, 16, 19) -/
  tl : TileUnit := {}
  /-- Purls, retransmit store, adders (18) -/
  pu : PurlUnit := {}
  /-- steps, speculation window, step journal (01, 17, 18) -/
  stp : StepUnit := {}
  /-- Henur ports, routes, shard map (20) -/
  fab : Fabric := {}
  /-- monitors, power controller (23) -/
  pm : PowerUnit := {}
  /-- boot banks, staging, keys and tag areas in module flash (24, 25) -/
  fw : FwUnit := {}
  /-- the tally's alarm and checks (21) -/
  ty : TallyUnit := {}
  /-- management sideband and SPDM responder (23, 24) -/
  sb : Sideband := {}
deriving DecidableEq, Repr

/-- The module before its first power-on: no input is valid, stage S0 has not ended, and the persistent memories are as manufactured; every
other field holds its reset value (R89, R98; the values where the spec gives none are in the assumption log). -/
def State.reset : State := {}

end Sys2Proof.Machine
end

