-- ==== Sys2Proof/Machine/Ops.lean ====
section
/-! DEFINITION. The named operations every unit uses: outputs, host memory, interrupts (R135, R136), device-initiated
writes (R120, R121, R133), the error log (R458–R467), the feature word and the small views of the machine's condition. -/

namespace Sys2Proof.Machine

open Sys2Proof

/-! ### Outputs -/

/-- Send something out of the block. -/
def emit (o : Output) (s : State) : State := { s with out := o :: s.out }

/-! ### Free values -/

/-- A value the spec leaves open: it is drawn from the opaque stream and the stream's counter advances. -/
def drawFree (s : State) : W64 × State := (Config.freeValue s.freeCtr, { s with freeCtr := s.freeCtr + 1 })

/-! ### Conditions -/

/-- The gauge is lost: HOLDOVER, FREE_RUN, or a LOCKING entered from either (04, Model). -/
def gaugeLost (s : State) : Bool :=
  match s.gg.state with
  | .holdover | .freeRun => true
  | .locking => s.gg.lost
  | _ => false

/-- The device can initiate a memory write: link up, D0, Bus Master Enable 1, stage S4 ended (R91, R120, R121). -/
def hostReach (s : State) : Bool := s.hl.up && s.hl.bme && !s.hl.d3hot && s.rst.hostOn

/-- Feature bit `i` has been granted (R2, R159). -/
def granted (i : Nat) (s : State) : Bool := s.mb.negotiated && s.mb.features.getLsbD i

/-- A tier T2 slot can be reached; a slot on CXL.cache waits while the link has left CXL mode (R123; 06, Corners). -/
def t2Reach (cxl : Bool) (s : State) : Bool := hostReach s && (!cxl || s.hl.cxl)

/-- The firmware runs and takes commands: the device is up, READY, not held. -/
def running (s : State) : Bool := decide (s.rst.phase = .up) && s.rst.ready && !s.rst.held

/-- The device is operational: stage S7 (R89). -/
def operational (s : State) : Bool := running s && decide (s.rst.stage = 7)

/-- A BIND_OFF has begun its work (R96 step 1). -/
def binding (s : State) : Bool := s.rst.bindOff.any (fun b => decide (0 < b.stage))

/-- The engines work: operational, out of the fatal state and not bound (R97, R467). -/
def engines (s : State) : Bool := operational s && !s.er.fatal && !s.rst.bound

/-! ### MSI-X (R135, R136) -/

/-- Raise vector `v`: one message, or its pending bit where it is masked or cannot be sent. -/
def raise (v : Fin 128) (s : State) : State :=
  let e := s.hl.msix[v]
  if e.mask || s.hl.funcMask || !hostReach s then
    { s with hl := { s.hl with pba := s.hl.pba ||| BitVec.twoPow 128 v } }
  else emit (.msix v e.addr e.data) s

/-- Send the message of vector `v` if it is pending and may be sent. -/
def sendPending (s : State) (v : Fin 128) : State :=
  let e := s.hl.msix[v]
  if s.hl.pba.getLsbD v && !e.mask && !s.hl.funcMask && hostReach s then
    emit (.msix v e.addr e.data) { s with hl := { s.hl with pba := s.hl.pba &&& ~~~ (BitVec.twoPow 128 v) } }
  else s

/-- Send every pending message that may be sent, in vector order (R136). -/
def sendAllPending (s : State) : State := (List.finRange 128).foldl sendPending s

/-! ### Host memory (R132–R134) -/

/-- Does the host refuse a device read of `[a, a+n)`? -/
def hostRefuses (a n : Nat) (s : State) : Bool := s.hostBad.any (fun r => overlaps a n r.1 r.2)

/-- A device read of host memory; `none` where the host refuses it (R134). -/
def hostRead (a n : Nat) (s : State) : Option (List Byte) :=
  if hostRefuses a n s then none else some (cellsRead s.host a n)

/-- The number of host-side violations rises (R138, R531). -/
def countViol (s : State) : State := { s with hl := { s.hl with violCount := satInc s.hl.violCount } }

/-! ### The error log -/

/-- The class code of R458. -/
def ErrClass.code : ErrClass → Nat
  | .corrected => 0 | .deferred => 1 | .contained => 2 | .fatal => 3 | .partner => 4

/-- The class as an index of ER_COUNT. -/
def ErrClass.idx : ErrClass → Fin 5
  | .corrected => 0 | .deferred => 1 | .contained => 2 | .fatal => 3 | .partner => 4

/-- The SCOPE code of R458. -/
def Scope.code : Scope → Nat
  | .none => 0 | .data => 1 | .operation => 2 | .tile => 3 | .henurPort => 4 | .nvmePort => 5 | .queuePair => 6
  | .step => 7 | .table => 8 | .addressSpace => 9 | .bank => 10 | .device => 11

/-- Bytes 8–31 of a log entry (R458): UNIT, REPEAT, BEAT, PHASE, INFO_A, INFO_B. -/
def logBody (unit rpt : Nat) (beat : W64) (phase : BitVec 16) (a b : Nat) : BitVec 192 :=
  BitVec.ofNat 192 (unit % 2 ^ 16 + rpt % 2 ^ 16 * 2 ^ 16 + beat.toNat % 2 ^ 48 * 2 ^ 32 + phase.toNat * 2 ^ 80
    + a % 2 ^ 32 * 2 ^ 96 + b % 2 ^ 64 * 2 ^ 128)

/-- The entry's 32 bytes (R458). -/
def LogEntry.bytes (e : LogEntry) : List Byte :=
  toBytes 4 e.seq.toNat
    ++ [BitVec.ofNat 8 (e.cls.code + 8 * b2n e.cont + 16 * b2n e.locked), BitVec.ofNat 8 e.cause,
        BitVec.ofNat 8 e.scope.code, 0]
    ++ toBytes 24 e.body.toNat

/-- The ring index of an entry (R460). -/
def LogEntry.slot (e : LogEntry) : Nat := (e.seq - 1).toNat % 4096

/-- The 32 bytes at ring index `i`: the newest entry there, or zeros (R460). -/
def logAt (i : Nat) (s : State) : List Byte :=
  match s.er.ring.find? (fun e => e.slot == i) with
  | some e => e.bytes
  | none => List.replicate 32 0

/-- ER_LOG_HEAD: the SEQ of the newest entry; 0 if none (R465). -/
def logHead (s : State) : W32 :=
  match s.er.ring with
  | [] => 0
  | e :: _ => e.seq

/-- The mirror write of ring slot `i` (R464). -/
def mirrorSlot (i : Nat) (s : State) : State :=
  { s with host := cellsWrite s.host (s.er.mirrorBase.toNat + 32 * i) (logAt i s) }

/-- Mirror the newest entry, or hold its mirror write (R120, R464). -/
def mirror (e : LogEntry) (s : State) : State :=
  if s.er.mirrorEn then
    if hostReach s then mirrorSlot e.slot s else { s with hl := { s.hl with held := s.hl.held ++ [.mirror e.slot] } }
  else s

/-- Write one entry into the ring with the next SEQ, and mirror it (R460, R464). -/
def pushEntry (e : LogEntry) (s : State) : State :=
  let e := { e with seq := s.er.nextSeq }
  mirror e { s with er := { s.er with ring := (e :: s.er.ring).take 4096, nextSeq := s.er.nextSeq + 1 } }

/-- PENDING, the class vector, and ER_FATAL after an entry of class `cls` (R465). -/
def noteEntry (cls : ErrClass) (cause : Nat) (seq : W32) (s : State) : State :=
  let er := { s.er with pendingBits := s.er.pendingBits ||| BitVec.twoPow 5 cls.code }
  let er := if cls = .fatal ∧ er.fatalSeq = 0 then { er with fatalSeq := seq, fatalCause := BitVec.ofNat 8 cause } else er
  let s := { s with er := er }
  if er.mask.getLsbD cls.code then s else raise (Fin.ofNat 128 (66 + cls.code)) s

/-- The pair of R462 under which occurrences merge; R138 limits host-side causes 0x01–0x0F by cause alone. -/
def limitUnit (cause unit : Nat) : Nat := if cause < 0x10 then 0 else unit

/-- ER_COUNT of the class counts one occurrence (R465). -/
def countClass (cls : ErrClass) (s : State) : State := { s with er := { s.er with count := vmod s.er.count cls.idx satInc } }

/-- An occurrence merges into its open limit (R462). -/
def mergeEntry (u : Nat) (e : LogEntry) (s : State) : State :=
  let here (l : Limiter) : Bool := l.cause == e.cause && l.unit == u
  { s with er := { s.er with limits := modFirst here (fun l => { l with count := l.count + 1, last := some e }) s.er.limits } }

/-- A limit opens for a cause and unit (R462). -/
def openLimit (cause u : Nat) (s : State) : State := { s with er := { s.er with limits := ⟨cause, u, 0, none⟩ :: s.er.limits } }

/-- An entry and its continuation are written and noted (R459, R460, R465). -/
def writeEntry (e : LogEntry) (cont : Option (BitVec 192)) (s : State) : State :=
  noteEntry e.cls e.cause s.er.nextSeq (match cont with
    | some body => pushEntry { e with cont := true, body := body } (pushEntry e s)
    | none => pushEntry e s)

/-- The containment of an entry is still to do (R466, R467). -/
def toContain (e : LogEntry) (unit : Nat) (s : State) : State :=
  if decide (e.cls = .contained) || decide (e.cls = .fatal) then
    { s with er := { s.er with todo := s.er.todo ++ [⟨e.cls, e.scope, unit, e.cause⟩] } }
  else s

/-- Log one occurrence (R458–R466): count it, merge it if R462 says so, else write the entry and its continuation. -/
def logFull (cls : ErrClass) (cause : Nat) (scope : Scope) (unit a b : Nat) (cont : Option (BitVec 192)) (s : State) :
    State :=
  let e : LogEntry := ⟨0, cls, false, decide (s.gg.state = .locked), cause, scope, logBody unit 0 s.gg.beat s.gg.phase a b⟩
  let u := limitUnit cause unit
  let limited := decide (cls = .corrected) || decide (cls = .partner)
  let s := countClass cls s
  if limited && s.er.limits.any (fun l => l.cause == cause && l.unit == u) then mergeEntry u e s
  else toContain e unit (writeEntry e cont (if limited then openLimit cause u s else s))

/-- Log one occurrence without a continuation, and the first hold of a device request under Bus Master Enable 0 that its
mirror write may be (R121). -/
def logErr (cls : ErrClass) (cause : Nat) (scope : Scope) (unit a b : Nat) (s : State) : State :=
  let s := logFull cls cause scope unit a b none s
  if s.hl.bmeArmed && !s.hl.bme && !s.hl.held.isEmpty then
    logFull .partner 0x0B .none 0 0 0 none (countViol { s with hl := { s.hl with bmeArmed := false } })
  else s

/-- A host-side violation of R138: counted and logged as a partner violation. -/
def violation (cause unit a b : Nat) (s : State) : State :=
  logErr .partner cause (if cause = 0x0C ∨ cause = 0x0E ∨ cause = 0x0F then .queuePair else .none) unit a b (countViol s)

/-- A merge window ends: one entry carries the last occurrence, REPEAT the number of them (R462). -/
def flushLimit (l : Limiter) (s : State) : State :=
  let s := { s with er := { s.er with limits := s.er.limits.filter (fun x => !(x.cause == l.cause && x.unit == l.unit)) } }
  match l.last with
  | none => s
  | some e =>
    let seq := s.er.nextSeq
    let rpt := BitVec.ofNat 192 (satTo 16 l.count * 2 ^ 16)
    noteEntry e.cls e.cause seq (pushEntry { e with body := e.body ||| rpt } s)

/-! ### Device-initiated writes -/

/-- A write to host memory, performed or held in order (R120, R121, R133). -/
def hostWrite (a : Nat) (bs : List Byte) (s : State) : State :=
  if hostReach s then { s with host := cellsWrite s.host a bs }
  else
    let s := { s with hl := { s.hl with held := s.hl.held ++ [.bytes a bs] } }
    if s.hl.bmeArmed && !s.hl.bme then
      logFull .partner 0x0B .none 0 0 0 none (countViol { s with hl := { s.hl with bmeArmed := false } })
    else s

/-- Perform one held write. -/
def performHeld (s : State) (w : HostWrite) : State :=
  match w with
  | .bytes a bs => { s with host := cellsWrite s.host a bs }
  | .mirror i => mirrorSlot i s

/-- The waiting requests proceed in their original order, then pending messages are sent (R120, R121). -/
def releaseHeld (s : State) : State :=
  if hostReach s then
    sendAllPending (s.hl.held.foldl performHeld { s with hl := { s.hl with held := [] } })
  else s

end Sys2Proof.Machine
end

