-- ==== Sys2Proof/Machine/StitchQueue.lean ====
section
/-! DEFINITION. Stitch queues (03_stitch_queues.md) and the instance ids of R45. -/

namespace Sys2Proof.Machine

open Sys2Proof

/-- A reset of any kind discards the held lower halves of BAR0's registers (R527). -/
def dropHeld (s : State) : State := { s with hl := { s.hl with low := [] } }

/-- R45 reports this instance id. -/
def sqIdOk (id : Nat) : Bool :=
  let i := id % 256
  match id / 256 with
  | 0 => decide (i % 16 < 12)
  | 1 => decide (i % 32 < 6)
  | 2 => decide (i / 16 < 9 ∧ i % 16 < 12)
  | 3 => decide (i < 20)
  | 4 => decide (i % 64 < 8)
  | 5 => decide (i < 8)
  | 6 => decide (i < 2)
  | 7 => decide (i < 2)
  | 8 => decide (i < 3)
  | 9 => decide (i % 64 < 4)
  | _ => false

/-- DEPTH_LOG2 of an instance: fixed, 7 to 11, and not given per instance (R64). -/
def sqDepthLog (id : Nat) : Nat := 7 + Config.sqDepth id % 5

/-- The stale-tail exponent set at S3 (R62). -/
def sqExponent (id : Nat) : Nat :=
  if Config.sqIdle id then 120
  else match id / 256 with
    | 2 => if id % 16 < 8 then 255 else 80
    | 3 => 255
    | 4 => 255
    | 5 => 80
    | 6 => 80
    | 7 => 120
    | 8 => 120
    | _ => 40

/-- TAIL_EXP as it stands: 0 until S3 has set it (R62, R64). -/
def sqTailExp (id : Nat) (s : State) : Nat := if s.sq.expSet then sqExponent id else 0

/-- The instance with this id. -/
def sqGet (id : Nat) (s : State) : SqInst := (kvGet s.sq.inst id).getD {}

/-- Replace the instance with this id. -/
def sqPut (id : Nat) (x : SqInst) (s : State) : State := { s with sq := { s.sq with inst := kvSet s.sq.inst id x } }

/-- Committed, unread words (R64). -/
def SqInst.occupancy (x : SqInst) : Nat := (x.packets.map (fun p => p.words.length)).sum

/-- HIGH_WATER for an occupancy (R64). -/
def sqWater (id occ : Nat) : Nat := min 255 (ceilDiv (occ * 256) (2 ^ sqDepthLog id))

/-- The epoch in force: own flushes and device flushes, modulo 2^16 (R54). -/
def sqEpoch (id : Nat) (s : State) : BitVec 16 := (sqGet id s).epoch + s.sq.flushes

/-- A flush takes effect: the epoch advances and every packet whose header is unread is discarded (R54, R55). -/
def SqInst.flush (x : SqInst) : SqInst :=
  { x with epoch := x.epoch + 1, flushPending := false, packets := x.packets.filter (fun p => p.opened) }

/-- A packet is frogged (R52, R53). -/
def SqInst.frog (x : SqInst) : SqInst := { x with frogged := satInc x.frogged }

/-- A producer writes a packet's last word (R51). A pending flush frogs the packet and takes effect (R54); a full queue stalls
the producer (R47, R48). -/
def sqCommit (id : Nat) (words : List W64) (s : State) : State :=
  let x := sqGet id s
  if !sqIdOk id || decide (words.length = 0 ∨ 64 < words.length) then s
  else if x.flushPending then emit (.sqFlushed id) (sqPut id x.frog.flush s)
  else if 2 ^ sqDepthLog id < x.occupancy + words.length then s
  else
    let ep := sqEpoch id s
    let x := { x with packets := x.packets ++ [SqPacket.mk words words.length ep false] }
    let w := sqWater id x.occupancy
    let x := { x with highWater := if x.highWater.toNat < w then BitVec.ofNat 8 w else x.highWater }
    emit (.sqCommitted id ep) (sqPut id x s)

/-- A producer flags its packet bad (R52); a pending flush takes effect at the boundary the frog leaves (03, Corners). -/
def sqBad (id : Nat) (s : State) : State :=
  let x := sqGet id s
  if !sqIdOk id then s
  else if x.flushPending then emit (.sqFlushed id) (sqPut id x.frog.flush s)
  else sqPut id x.frog s

/-- An owning block requests a flush (R54, R57). -/
def sqFlushRequest (id : Nat) (s : State) : State :=
  if sqIdOk id then sqPut id { sqGet id s with flushPending := true } s else s

/-- The requested flush takes effect at the producer's packet boundary (R54). -/
def sqFlushEffect (id : Nat) (s : State) : State :=
  let x := sqGet id s
  if sqIdOk id && x.flushPending then sqPut id x.flush s else s

/-- A word error met by a read (R63). -/
def sqScope (id : Nat) : Scope :=
  match id / 256 with
  | 0 => .tile
  | 2 => .henurPort
  | 4 => .nvmePort
  | 5 => if (Config.sqMailboxQp id).isSome then .queuePair else .device
  | _ => .device

/-- The class of a double-bit error: contained for tile, Henur, queue-pair and NVMe instances, fatal for the others (R63). -/
def sqErrClass (id : Nat) : ErrClass := if sqScope id = .device then .fatal else .contained

/-- A consumer reads one word (R49, R59, R63). -/
def sqRead (id : Nat) (fault : SqFault) (s : State) : State :=
  let x := sqGet id s
  if !sqIdOk id then s
  else match x.packets with
  | [] => if Config.sqIdle id then emit (.sqWord id (BitVec.allOnes 64) 0) s else s
  | p :: ps =>
    match p.words with
    | [] => sqPut id { x with packets := ps } s
    | w :: ws =>
      if fault = .double then
        logErr (sqErrClass id) 0x61 (sqScope id) id p.size 0
          (emit (.sqDiscarded id) (sqPut id { x with packets := ps, uncorrectable := satInc x.uncorrectable, tailRun := 0 } s))
      else if !p.opened && !Config.sqIdle id && decide (w.toNat / 2 ^ 56 = 0xFF) then
        logErr .contained 0x62 (sqScope id) id 0 0 (emit (.sqDiscarded id) (sqPut id { x with packets := ps, tailRun := 0 } s))
      else
        let x := { x with tailRun := 0, corrected := if fault = SqFault.single then satInc x.corrected else x.corrected }
        let ps := if ws.isEmpty then ps else { p with words := ws, opened := true } :: ps
        emit (.sqWord id w p.epoch) (sqPut id { x with packets := ps } s)

/-- Deliver every word of the instance, oldest first. -/
def sqDrain (id : Nat) (s : State) : State :=
  let x := sqGet id s
  let s := x.packets.foldl (fun s p => p.words.foldl (fun s w => emit (.sqWord id w p.epoch) s) s) s
  sqPut id { x with packets := [], tailRun := 0 } s

/-- The stale-tail timer fires (R60, R61): TAIL is signalled, and a consumer that can read reads down to EMPTY. -/
def sqTimeout (id : Nat) (canRead : Bool) (s : State) : State :=
  let x := sqGet id s
  if !sqIdOk id || x.packets.isEmpty || sqTailExp id s == 255 then s
  else
    let x := { x with tailFired := satInc x.tailFired, tailRun := x.tailRun + 1 }
    let s := emit (.sqTail id) (sqPut id x s)
    let s := if x.tailRun = 16 then logErr .corrected 0x60 .none id 0 0 s else s
    if canRead then sqDrain id s else s

/-- Flush one instance in a reset; answers how many packets it discarded (R58). -/
def sqResetFlush (id : Nat) (s : State) : State := sqPut id (sqGet id s).flush s

/-- Packets a reset flush of every instance discards (R58, R105). -/
def sqDiscards (s : State) : Nat :=
  (s.sq.inst.map (fun x => (x.2.packets.filter (fun p => !p.opened)).length)).sum

/-- The reset of the device flushes every instance; a packet whose header has been read is still delivered (R54, R55, R58). -/
def sqFlushAll (s : State) : State :=
  { s with sq := { s.sq with
    flushes := s.sq.flushes + 1,
    inst := s.sq.inst.map (fun x => (x.1, { x.2 with flushPending := false, packets := x.2.packets.filter (fun p => p.opened) })) } }

/-- The twelve instances of tile `t`, or of Henur port `p` (R45). -/
def sqTileIds (t : Nat) : List Nat := (List.range 12).map (fun i => 16 * t + i)
def sqPortIds (p : Nat) : List Nat := (List.range 12).map (fun i => 0x200 + 16 * p + i)
/-- The eight instances of NVMe port `d` (R45). -/
def sqNvmeIds (d : Nat) : List Nat := (List.range 8).map (fun i => 0x400 + 64 * d + i)

/-- Flush a list of instances. -/
def sqFlushIds (ids : List Nat) (s : State) : State := ids.foldl (fun s id => sqResetFlush id s) s

/-- SQ_INFO (R64). -/
def sqInfoReg (s : State) : Nat :=
  let id := s.sq.sel.toNat
  let x := sqGet id s
  2 ^ 32 * sqDepthLog id + 2 ^ 36 * b2n (Config.sqIdle id) + 2 ^ 40 * sqTailExp id s
    + (if s.rst.recovery then 0 else x.occupancy + 2 ^ 12 * x.highWater.toNat + 2 ^ 48 * (sqEpoch id s).toNat)

/-- SQ_COUNT (R64). -/
def sqCountReg (s : State) : Nat :=
  let x := sqGet s.sq.sel.toNat s
  2 ^ 8 * x.tailFired.toNat + 2 ^ 24 * x.frogged.toNat + 2 ^ 40 * x.uncorrectable.toNat + 2 ^ 48 * x.corrected.toNat

/-- A read of SQ_INFO clears HIGH_WATER (R64). -/
def clearHighWater (s : State) : State :=
  let id := s.sq.sel.toNat
  sqPut id { sqGet id s with highWater := 0 } s

/-- A read of SQ_COUNT clears the four counters together (R65). -/
def clearSqCount (s : State) : State :=
  let id := s.sq.sel.toNat
  sqPut id { sqGet id s with corrected := 0, uncorrectable := 0, frogged := 0, tailFired := 0 } s

/-- A write of SQ_SEL; an id R45 never reports keeps the register and logs cause 0x10 (R7, R64). -/
def writeSqSel (v : Nat) (s : State) : State :=
  if sqIdOk (v % 4096) then { s with sq := { s.sq with sel := BitVec.ofNat 12 v } }
  else logErr .partner 0x10 .none 0 0xA0000 v s

end Sys2Proof.Machine
end

