-- ==== Sys2Proof/Machine/Ram.lean ====
section
/-! DEFINITION. Tier T1 (12_memory_and_scrubbing.md; R37, R38): sectors, versions, poison, error counts. Poison repair and
parked records need the row directory and the tables and stand in later files. -/

namespace Sys2Proof.Machine

open Sys2Proof

/-! ### Addresses -/

/-- The stack of a device-physical T1 address (R37). -/
def stackOf (a : Nat) : Fin 8 := Fin.ofNat 8 (a / 2 ^ 36)

/-- The first byte of stack `k`. -/
def stackBase (k : Nat) : Nat := k * 2 ^ 36

/-- The reservation of stack `k`: its top 256 MiB (R38). -/
def reserveBase (k : Nat) : Nat := stackBase k + 2 ^ 36 - 2 ^ 28

/-- A usable stack. -/
def stackUsable (k : Nat) (s : State) : Bool := s.ram.stackSet.getLsbD k

/-- The address lies in tier T1, on a usable stack (R37; 02, Corners). -/
def t1Usable (a : Nat) (s : State) : Bool := decide (a < 2 ^ 39) && stackUsable (a / 2 ^ 36) s

/-- The address lies in the reservation of its stack (R38). -/
def reserved (a : Nat) : Bool := decide (2 ^ 36 - 2 ^ 28 ≤ a % 2 ^ 36)

/-- The pseudo-channel of an address (R257). -/
def pseudoChannel (a : Nat) : Nat :=
  let sp := a % 2 ^ 36 / 256
  (bits sp 0 5 ^^^ bits sp 5 5) ^^^ bits sp 10 5

/-- The row address group of an address (R257). -/
def rowGroup (a : Nat) : Nat := a % 2 ^ 36 / 2 ^ 30

/-- The cell of an address in the ER_MEM_SEL layout (R277). -/
def cellOf (a : Nat) : Nat := (stackOf a).val + 8 * pseudoChannel a + 256 * rowGroup a

/-- The sector address of an address (R256). -/
def sectorOf (a : Nat) : Nat := a / 32 * 32

/-- The 64 KiB frame number of an address (R261). -/
def frameOf (a : Nat) : Nat := a / 65536

/-- The sector addresses that `[a, a+n)` touches. -/
def sectorsOf (a n : Nat) : List Nat :=
  if n = 0 then [] else (List.range ((a + n - 1) / 32 - a / 32 + 1)).map (fun i => (a / 32 + i) * 32)

/-- The frame numbers that `[a, a+n)` touches. -/
def framesOf (a n : Nat) : List Nat :=
  if n = 0 then [] else (List.range ((a + n - 1) / 65536 - a / 65536 + 1)).map (fun i => a / 65536 + i)

/-! ### Reading -/

/-- Bytes of T1. -/
def t1Read (a n : Nat) (s : State) : List Byte := cellsRead s.ram.t1 a n

/-- A little-endian number in T1. -/
def t1Nat (a n : Nat) (s : State) : Nat := ofBytes (t1Read a n s)

/-- The sector is poisoned (R264). -/
def poisoned (sector : Nat) (s : State) : Bool := s.ram.poison.contains sector

/-- The first poisoned sector that `[a, a+n)` touches (R266). -/
def firstPoison (a n : Nat) (s : State) : Option Nat := (sectorsOf a n).find? (fun x => poisoned x s)

/-- A sector is covered whole by `[a, a+n)`. -/
def coversSector (a n sector : Nat) : Bool := decide (a ≤ sector ∧ sector + 32 ≤ a + n)

/-- The first poisoned sector that a store of `[a, a+n)` covers only in part: the whole store is refused (R267). -/
def partialPoison (a n : Nat) (s : State) : Option Nat :=
  (sectorsOf a n).find? (fun x => poisoned x s && !coversSector a n x)

/-- The current version of a frame (R261). -/
def frameVersion (f : Nat) (s : State) : BitVec 7 := (kvGet s.ram.frameVer f).getD 0

/-- The VERSION a sector carries (R258). -/
def sectorVersion (a : Nat) (s : State) : BitVec 7 := (kvGet s.ram.sectorVer (a / 32)).getD 0

/-! ### Writing -/

/-- Replace bytes without a write event: firmware areas, repairs, corrections (R261). -/
def t1Put (a : Nat) (bs : List Byte) (s : State) : State := { s with ram := { s.ram with t1 := cellsWrite s.ram.t1 a bs } }

/-- Set the version of a frame. -/
def setFrameVersion (f : Nat) (v : BitVec 7) (s : State) : State :=
  { s with ram := { s.ram with frameVer := if v = 0 then kvErase s.ram.frameVer f else kvSet s.ram.frameVer f v } }

/-- Set the VERSION of sectors. -/
def setSectorVersions (secs : List Nat) (v : BitVec 7) (s : State) : State :=
  { s with ram := { s.ram with sectorVer :=
                                 secs.foldl (fun m a => if v = 0 then kvErase m (a / 32) else kvSet m (a / 32) v) s.ram.sectorVer } }
    
/-- One write event to frame `f` (R261, R262): its version advances modulo 128, and while a window is open its bit of the
window write map is set. -/
def writeEvent (f : Nat) (s : State) : State :=
  let s := setFrameVersion f (frameVersion f s + 1) s
  if s.ram.windowOpen && !s.ram.windowMap.contains f then
    { s with ram := { s.ram with windowMap := f :: s.ram.windowMap } }
  else s

/-- Clear the poison of sectors and remember them for their parked records (R267, R271). -/
def clearPoison (secs : List Nat) (s : State) : State :=
  let hit := secs.filter (fun x => poisoned x s)
  { s with ram := { s.ram with
    poison := s.ram.poison.filter (fun x => !hit.contains x), cleared := s.ram.cleared ++ hit,
    repairs := s.ram.repairs.filter (fun r => !hit.contains r.sector) } }

/-- A store of `bs` at `a`: one write event per frame, the frame's new version in every sector written, and the poison of
sectors covered whole cleared (R261, R267). The caller has checked `partialPoison`. -/
def t1Store (a : Nat) (bs : List Byte) (s : State) : State :=
  let n := bs.length
  let s := t1Put a bs s
  let s := (framesOf a n).foldl (fun s f =>
    let s := writeEvent f s
    setSectorVersions ((sectorsOf a n).filter (fun x => frameOf x == f)) (frameVersion f s) s) s
  clearPoison ((sectorsOf a n).filter (coversSector a n)) s

/-- A fill of a whole frame by a fault-in: data, version and clean sectors (R217, R261, R267). -/
def t1Fill (f : Nat) (bs : List Byte) (v : BitVec 7) (s : State) : State :=
  let s := t1Put (f * 65536) (bs.take 65536) { s with ram := { s.ram with t1 := cellsBlank s.ram.t1 (f * 65536) 65536 } }
  let s := setFrameVersion f v s
  let secs := (List.range 2048).map (fun i => f * 65536 + 32 * i)
  clearPoison secs (setSectorVersions secs v s)

/-! ### Errors (R263, R264) -/

/-- Change the counts of a cell. -/
def modCell (c : Nat) (f : CellCount → CellCount) (s : State) : State :=
  { s with ram := { s.ram with cells := kvSet s.ram.cells c (f ((kvGet s.ram.cells c).getD {})) } }

/-- Change a stack's counts. -/
def modStack (k : Fin 8) (f : StackUnit → StackUnit) (s : State) : State :=
  { s with ram := { s.ram with stack := vmod s.ram.stack k f } }

/-- A corrected error in the sector at `a` (R263, R277). -/
def correctedError (a : Nat) (s : State) : State :=
  let c := cellOf a
  let s := modCell c (fun x => { x with corrected := satInc x.corrected }) s
  let s := modStack (stackOf a) (fun x => { x with corrected := satInc x.corrected }) s
  let k := ((kvGet s.ram.cells c).getD {}).corrected.toNat
  if [1, 16, 256, 4096, 65536].contains k then logErr .corrected 0x30 .none c k 0 s else s

/-- A sector found uncorrectable is poisoned, counted and logged; one already poisoned is not counted again (R264). -/
def poisonSector (a : Nat) (s : State) : State :=
  let sec := sectorOf a
  if poisoned sec s then s
  else
    let c := cellOf sec
    let s := { s with ram := { s.ram with poison := sec :: s.ram.poison } }
    let s := modCell c (fun x => { x with uncorrectable := satInc x.uncorrectable }) s
    let s := modStack (stackOf sec) (fun x => { x with uncorrectable := satInc x.uncorrectable }) s
    logErr .deferred 0x31 .data c 0 sec s

/-! ### The ER_MEM_ registers (R277) -/

/-- The stack ER_MEM_SEL selects. -/
def memStack (s : State) : Fin 8 := Fin.ofNat 8 (bits s.ram.memSel.toNat 0 3)

/-- ER_MEM_COUNT. -/
def memCountReg (s : State) : Nat :=
  let x := (kvGet s.ram.cells s.ram.memSel.toNat).getD {}
  x.corrected.toNat + 2 ^ 32 * x.uncorrectable.toNat

/-- ER_MEM_STACK. -/
def memStackReg (s : State) : Nat :=
  let x := s.ram.stack[memStack s]
  x.corrected.toNat + 2 ^ 32 * x.uncorrectable.toNat + 2 ^ 48 * x.ondie.toNat

/-- ER_MEM_POISON. -/
def memPoisonReg (s : State) : Nat :=
  let k := memStack s
  satTo 32 (s.ram.poison.filter (fun a => stackOf a = k)).length
    + 2 ^ 32 * satTo 16 (s.ram.parked.filter (fun r => r.area = k)).length
    + 2 ^ 48 * (s.ram.stack[k]).repaired.toNat

/-- ER_SCRUB_STAT. -/
def scrubStatReg (s : State) : Nat :=
  let x := s.ram.stack[memStack s]
  x.position / 4096 + 2 ^ 24 * b2n s.ram.slot.isSome + 2 ^ 25 * b2n x.late + 2 ^ 32 * x.passes.toNat

def clearMemCount (s : State) : State := { s with ram := { s.ram with cells := kvErase s.ram.cells s.ram.memSel.toNat } }
def clearMemStack (s : State) : State :=
  modStack (memStack s) (fun x => { x with corrected := 0, uncorrectable := 0, ondie := 0 }) s
def clearRepaired (s : State) : State := modStack (memStack s) (fun x => { x with repaired := 0 }) s

/-- A write of ER_MEM_SEL: every value of its 14 bits names a cell. -/
def writeMemSel (v : Nat) (s : State) : State := { s with ram := { s.ram with memSel := BitVec.ofNat 14 v } }

end Sys2Proof.Machine
end

