-- ==== Sys2Proof/Machine/Tables.lean ====
section
/-! DEFINITION. Tables (09_tables_and_row_formats.md): the descriptor and its checks (R195, R196), where a row lies (R197,
R199, R200), indexing (R203–R205), and the copies of a row (R206–R208). -/

namespace Sys2Proof.Machine

open Sys2Proof

/-! ### The descriptor -/

/-- The descriptor a 128-byte buffer spells (R195). -/
def Table.parse (d : Nat) : Table where
  id := BitVec.ofNat 20 (bits d 0 20)
  tag := BitVec.ofNat 12 (bits d 20 12)
  format := bits d 32 4
  codeSigned := d.testBit 36
  index := bits d 40 2
  oor := bits d 42 2
  addMode := bits d 48 2
  round := bits d 50 2
  sat := d.testBit 52
  hashFn := bits d 56 2
  width := bits d 64 11
  stride := bits d 80 13
  rows := bits d 128 41
  hashSeed := BitVec.ofNat 64 (bits d 192 64)
  vbase := bits d 256 52
  dirBase := bits d 320 52
  shardKind := bits d 384 2
  shardMod := bits d 400 10
  localFirst := bits d 448 41
  localRows := bits d 512 41
  compQ := BitVec.ofNat 20 (bits d 640 20)
  compR := BitVec.ofNat 20 (bits d 672 20)
  modulus := bits d 704 41
  combine := bits d 768 2

/-- The descriptor's 128 bytes (R195). -/
def Table.pack (t : Table) : Nat :=
  t.id.toNat + 2 ^ 20 * t.tag.toNat + 2 ^ 32 * t.format + 2 ^ 36 * b2n t.codeSigned + 2 ^ 40 * t.index + 2 ^ 42 * t.oor
    + 2 ^ 48 * t.addMode + 2 ^ 50 * t.round + 2 ^ 52 * b2n t.sat + 2 ^ 56 * t.hashFn + 2 ^ 64 * t.width + 2 ^ 80 * t.stride
    + 2 ^ 128 * t.rows + 2 ^ 192 * t.hashSeed.toNat + 2 ^ 256 * t.vbase + 2 ^ 320 * t.dirBase + 2 ^ 384 * t.shardKind
    + 2 ^ 400 * t.shardMod + 2 ^ 448 * t.localFirst + 2 ^ 512 * t.localRows + 2 ^ 640 * t.compQ.toNat
    + 2 ^ 672 * t.compR.toNat + 2 ^ 704 * t.modulus + 2 ^ 768 * t.combine

/-- A mask of `n` ones at bit `lo`. -/
def maskAt (lo n : Nat) : Nat := (2 ^ n - 1) * 2 ^ lo

/-- The bits the descriptor's fields cover (R195); every other bit is reserved. -/
def descMask : Nat :=
  maskAt 0 32 + maskAt 32 5 + maskAt 40 4 + maskAt 48 5 + maskAt 56 2 + maskAt 64 11 + maskAt 80 13 + maskAt 128 41
    + maskAt 192 64 + maskAt 256 52 + maskAt 320 52 + maskAt 384 2 + maskAt 400 10 + maskAt 448 41 + maskAt 512 41
    + maskAt 640 20 + maskAt 672 20 + maskAt 704 41 + maskAt 768 2

/-- The first byte, among `n`, that holds a non-zero bit outside `mask` (R5, R162). -/
def reservedByte (x mask n : Nat) : Option Nat :=
  (List.range n).find? (fun i => decide (bytesAt x i 1 - (bytesAt x i 1 &&& bytesAt mask i 1) ≠ 0))

/-- Bytes of one element of a float format (R199). -/
def elemBytes (format : Nat) : Nat := if format = 0 then 4 else if format ≤ 2 then 2 else 1

/-- The row size of a format and width (R199, R200). -/
def rowSize (format width : Nat) : Nat :=
  if format ≤ 4 then width * elemBytes format else if format = 5 then 4 + width else 4 + width / 2

/-- Rows per block (R197). -/
def Table.rpb (t : Table) : Nat := 65536 / max 1 t.stride

/-- Blocks of the local shard (R197). -/
def Table.blocks (t : Table) : Nat := if t.shardKind = 0 then 0 else ceilDiv t.localRows (max 1 t.rpb)

/-- The row size of the table. -/
def Table.rowBytes (t : Table) : Nat := rowSize t.format t.width

/-- The verdict on one descriptor field: a violated constraint, or a feature it needs (R196). -/
inductive FieldVerdict where
  | ok | bad | needs (feature : Nat)
deriving DecidableEq, Repr

/-- `bad` where the condition fails. -/
def must (b : Bool) : FieldVerdict := if b then .ok else .bad

/-- The field checks of R196 with their byte offsets, in ascending order. -/
def Table.checks (t : Table) (s : State) : List (Nat × FieldVerdict) :=
  let k := t.shardKind
  let n := t.rows
  let comp := decide (t.index = 2)
  [ (4, must (decide (t.format ≤ 6 ∧ (t.index = 2 → t.format = 0)))),
    (4, must (!t.codeSigned || t.format == 5 || t.format == 6)),
    (5, if 2 < t.index then .bad
        else if t.index = 1 ∧ !granted 12 s then .needs 12
        else if t.index = 2 ∧ !granted 11 s then .needs 11 else .ok),
    (5, must (decide (t.oor ≤ 2 ∧ (t.index = 1 → t.oor = 0)))),
    (6, if 2 < t.addMode ∨ (t.addMode ≠ 0 ∧ (3 ≤ t.format ∨ t.index = 2)) then .bad
        else if t.addMode = 2 ∧ !granted 2 s then .needs 2 else .ok),
    (6, if 2 < t.round ∨ (t.round ≠ 0 ∧ t.addMode ≠ 1) ∨ (t.round = 2 ∧ t.format = 0) then .bad
        else if t.round = 2 ∧ !granted 6 s then .needs 6 else .ok),
    (6, must (!t.sat || t.addMode != 0)),
    (7, must (t.index == 1 || t.hashFn == 0)),
    (8, must (decide (4 ≤ t.width ∧ t.width ≤ 1024 ∧ (t.format = 6 → t.width % 2 = 0)))),
    (10, must (decide (t.stride % 4 = 0 ∧ t.rowBytes ≤ t.stride ∧ t.stride ≤ 4096))),
    (16, must (decide (1 ≤ n ∧ n ≤ 2 ^ 40))),
    (24, must (t.index == 1 || t.hashSeed == 0)),
    (32, must (if k = 0 then t.vbase == 0
        else decide (t.vbase % 2 ^ 21 = 0 ∧ t.vbase + t.blocks * 65536 < 2 ^ 52))),
    (40, must (if k = 0 then t.dirBase == 0
        else decide (t.dirBase % 4096 = 0 ∧ t.dirBase + t.blocks * 32 < 2 ^ 52))),
    (48, must (!comp || k == 0)),
    (50, must (if k = 3 then decide (2 ≤ t.shardMod ∧ t.shardMod ≤ 512) else t.shardMod == 0)),
    (56, must (if k = 2 then decide (t.localFirst < n) else if k = 3 then decide (t.localFirst < t.shardMod)
        else t.localFirst == 0)),
    (64, must (if k = 0 then t.localRows == 0 else if k = 1 then t.localRows == n
        else if k = 2 then decide (1 ≤ t.localRows ∧ t.localFirst + t.localRows ≤ n)
        else decide (1 ≤ t.localRows ∧ t.localRows = ceilDiv (n - t.localFirst) (max 1 t.shardMod)))),
    (80, must (comp || t.compQ == 0)),
    (84, must (comp || t.compR == 0)),
    (88, must (if comp then decide (1 ≤ t.modulus ∧ t.modulus ≤ 2 ^ 40) else t.modulus == 0)),
    (96, must (if comp then decide (t.combine ≤ 2) else t.combine == 0)) ]

/-- The field checks and the reserved bits together, by byte offset (R5, R196): the offset at fault and its verdict. -/
def descVerdict (d : Nat) (t : Table) (s : State) : Option (Nat × FieldVerdict) :=
  let f := (t.checks s).find? (fun x => x.2 != .ok)
  let r := reservedByte d descMask 128
  match f, r with
  | none, none => none
  | some x, none => some x
  | none, some o => some (o, .bad)
  | some x, some o => if o < x.1 then some (o, .bad) else some x

/-- The table with this id. -/
def tableOf (id : Nat) (s : State) : Option Table := kvGet s.tbl.tables id

/-- The component checks of a composed table (R196, R205): status, SUBCODE, RESULT0. -/
def compVerdict (t : Table) (s : State) : Option (Nat × Nat × Nat) :=
  if t.index ≠ 2 then none
  else
    let rowsOk (c : Table) (need : Nat) := decide (c.index = 0 ∧ need ≤ c.rows ∧ (t.combine ≤ 1 → c.width = t.width))
    match tableOf t.compQ.toNat s with
    | none => some (0x31, 0, t.compQ.toNat)
    | some q =>
      if !rowsOk q (ceilDiv t.rows (max 1 t.modulus)) then some (0x30, 0x8050, 0)
      else match tableOf t.compR.toNat s with
      | none => some (0x31, 0, t.compR.toNat)
      | some r =>
        if !rowsOk r t.modulus then some (0x30, 0x8054, 0)
        else if t.combine = 2 ∧ q.width + r.width ≠ t.width then some (0x30, 0x8060, 0)
        else none

/-! ### Where a row lies (R197, R198) -/

/-- The local slot of a row, if this device's descriptor gives it one. -/
def Table.slot (t : Table) (row : Nat) : Option Nat :=
  let s := if t.shardKind = 3 then row / max 1 t.shardMod else row - t.localFirst
  let ok := match t.shardKind with
    | 0 => false
    | 3 => decide (row % max 1 t.shardMod = t.localFirst)
    | _ => decide (t.localFirst ≤ row)
  if ok && decide (s < t.localRows) then some s else none

/-- The virtual address of a slot (R197). -/
def Table.slotVa (t : Table) (slot : Nat) : Nat :=
  t.vbase + slot / max 1 t.rpb * 65536 + slot % max 1 t.rpb * t.stride

/-- The block a slot lies in (R13, R197). -/
def Table.slotBlock (t : Table) (slot : Nat) : Nat := slot / max 1 t.rpb

/-- The offset of a slot in its block. -/
def Table.slotOffset (t : Table) (slot : Nat) : Nat := slot % max 1 t.rpb * t.stride

/-! ### Indexing (R203–R205) -/

/-- The row of a hashed index (R204); `hash_seed or 1` is read as a bitwise or. -/
def hashRow (t : Table) (x : W64) : Nat :=
  let a := (t.hashSeed ||| 1).toNat
  let lo (p : Nat) := p % 2 ^ 64
  let hi (p : Nat) := p / 2 ^ 64
  let h := match t.hashFn with
    | 0 => lo (a * x.toNat) / 2 ^ 24
    | 1 => hi (a * x.toNat)
    | 2 => lo (a * (x ^^^ (x >>> 31)).toNat) / 2 ^ 24
    | _ => lo (a * x.toNat) ^^^ hi (a * x.toNat)
  h % max 1 t.rows

/-- The row an index names, or FAULT_INDEX (R203, R204). -/
def Table.rowOf (t : Table) (x : W64) : Option Nat :=
  if t.index = 1 then some (hashRow t x)
  else if x.toNat < t.rows then some x.toNat
  else match t.oor with
    | 1 => some (t.rows - 1)
    | 2 => some (x.toNat % max 1 t.rows)
    | _ => none

/-! ### Copies of a row (R39, R206–R208) -/

/-- Tiles T0–T7 and stacks HS0–HS3 are on the north die (R33). -/
def tileNorth (t : Nat) : Bool := decide (t < 8)
def stackNorth (k : Nat) : Bool := decide (k < 4)

/-- The distance class of tile `u`'s Swatch from tile `t` (R39). -/
def swatchClass (t u : Nat) : Nat := if t = u then 0 else if tileNorth t = tileNorth u then 1 else 3

/-- The distance class of stack `k` from tile `t` (R39). -/
def stackClass (t k : Nat) : Nat := if tileNorth t = stackNorth k then 2 else 4

/-- One current copy of a row: where it lies, and its bytes and version unless it is the primary. -/
structure CopyAt where
  /-- tile number of a Swatch copy, 16 + stack number of an HBM copy -/
  place : Nat
  cls : Nat
  data : Option (List Byte × BitVec 7)
deriving DecidableEq, Repr

/-- The tiles of a mask. -/
def tilesOf (m : BitVec 16) : List Nat := (List.range 16).filter (fun i => m.getLsbD i)
/-- The stacks of a mask. -/
def stacksOf (m : BitVec 8) : List Nat := (List.range 8).filter (fun i => m.getLsbD i)

/-- The non-stale copies of a row in replicas and hot sets, seen from tile `t`. -/
def rowCopies (id : Nat) (row t : Nat) (s : State) : List CopyAt :=
  let reps := s.tbl.replicas.flatMap (fun r =>
    if r.table.toNat = id then
      match r.rows.find? (fun c => c.row == row && !c.stale) with
      | some c =>
        (tilesOf (r.tiles &&& s.ram.tiles)).map (fun u => ⟨u, swatchClass t u, some (c.data, c.version)⟩)
          ++ (stacksOf (r.stackSet &&& s.ram.stackSet)).map (fun k => ⟨16 + k, stackClass t k, some (c.data, c.version)⟩)
      | none => []
    else [])
  let hots := s.tbl.hotSets.flatMap (fun h =>
    if h.2.table.toNat = id then
      match h.2.rows.find? (fun c => c.row == row && !c.stale) with
      | some c => (tilesOf (h.2.tiles &&& s.ram.tiles)).map (fun u => ⟨u, swatchClass t u, some (c.data, c.version)⟩)
      | none => []
    else [])
  reps ++ hots

/-- Insert a copy by place: Swatch copies by tile, then HBM copies by stack (R207). -/
def insertCopy (c : CopyAt) : List CopyAt → List CopyAt
  | [] => [c]
  | d :: ds => if c.place < d.place then c :: d :: ds else d :: insertCopy c ds

/-- The copy a gather of tile `t` reads: position (row + t) mod k among the copies of the lowest class (R207). `primary` is
the primary's class and place. -/
def pickCopy (row t : Nat) (primary : CopyAt) (copies : List CopyAt) : CopyAt :=
  let all := primary :: copies
  let lowest := all.foldl (fun m c => min m c.cls) 6
  let kept := (all.filter (fun c => c.cls == lowest)).foldl (fun acc c => insertCopy c acc) []
  (kept[(row + t) % max 1 kept.length]?).getD primary

/-- Mark every copy of a row stale (R208). -/
def markStale (id row : Nat) (s : State) : State :=
  let stale (cs : List RowCopy) := cs.map (fun c => if c.row = row then { c with stale := true } else c)
  { s with tbl := { s.tbl with
    replicas := s.tbl.replicas.map (fun r => if r.table.toNat = id then { r with rows := stale r.rows } else r),
    hotSets := s.tbl.hotSets.map (fun h => if h.2.table.toNat = id then (h.1, { h.2 with rows := stale h.2.rows }) else h) } }

end Sys2Proof.Machine
end

