-- ==== Sys2Proof/Machine/Walk.lean ====
section
/-! DEFINITION. The page-table walk (11_translation.md R235–R239, R242) and the row directory (10 R213): what a virtual address
resolves to, as a pure function of the state. -/

namespace Sys2Proof.Machine

open Sys2Proof

/-- The kinds of access (R239, R248). -/
inductive Access where
  | read | write | add | fetch
deriving DecidableEq, Repr

/-- The code of a fault record's ACCESS (R248). -/
def Access.code : Access → Nat
  | .read => 0 | .write => 1 | .add => 2 | .fetch => 3

/-! ### Entries (R237, R238) -/

/-- The virtual-address bits that index a level (R236). -/
def levelIndex (level va : Nat) : Nat :=
  match level with
  | 1 => bits va 39 13
  | 2 => bits va 30 9
  | 3 => bits va 26 4
  | _ => bits va 21 5

/-- log2 of the page size of a leaf at a level. -/
def pageLog (level : Nat) : Nat :=
  match level with
  | 2 => 30
  | 3 => 26
  | _ => 21

/-- A T1 address may hold a table or a frame: outside the reservation, on a usable stack (R235, R238). -/
def framePlace (a : Nat) (s : State) : Bool := t1Usable a s && !reserved a

/-- The size of the table a table entry at `level` points to (R236). -/
def nextAlign (level : Nat) : Nat :=
  match level with
  | 1 => 4096
  | 2 => 128
  | _ => 256

/-- The frame or host address of a leaf at a level. -/
def leafFrame (e : Nat) : Nat := bits e 21 18 * 2 ^ 21
def leafHost (e : Nat) : Nat := bits e 21 43 * 2 ^ 21
def leafTable (e : Nat) : Nat := bits e 12 20
def leafKind (e : Nat) : Nat := bits e 2 2

/-- A valid entry is malformed (R238). -/
def malformed (level e : Nat) (s : State) : Bool :=
  if e.testBit 1 then
    level == 1 ||
    (match leafKind e with
     | 1 => decide (bits e 8 13 ≠ 0) || decide (leafHost e % 2 ^ pageLog level ≠ 0)
     | 2 => decide (bits e 8 4 ≠ 0 ∨ bits e 32 32 ≠ 0)
     | _ => decide (bits e 8 13 ≠ 0 ∨ bits e 39 25 ≠ 0 ∨ leafFrame e % 2 ^ pageLog level ≠ 0)
        || !framePlace (leafFrame e) s || !framePlace (leafFrame e + 2 ^ pageLog level - 1) s)
  else
    level == 4 || decide (bits e 2 5 ≠ 0 ∨ bits e 39 25 ≠ 0)
      || decide (bits e 7 32 * 128 % nextAlign level ≠ 0) || !framePlace (bits e 7 32 * 128) s

/-- How a walk ends (R236, R238, R268). -/
inductive WalkEnd where
  | leaf (level : Nat) (entryAddr : Nat) (e : Nat)
  | absent (level : Nat) (entryAddr : Nat)
  | malformed (level : Nat) (entryAddr : Nat)
  | poison (entryAddr : Nat)
deriving DecidableEq, Repr

/-- Walk from a table of level `5 - fuel` (R236). -/
def walk (va base : Nat) (s : State) : (fuel : Nat) → WalkEnd
  | 0 => .malformed 4 base
  | fuel + 1 =>
    let level := 4 - fuel
    let a := base + 8 * levelIndex level va
    if poisoned (sectorOf a) s then .poison a
    else
      let e := t1Nat a 8 s
      if !e.testBit 0 then .absent level a
      else if malformed level e s then .malformed level a
      else if e.testBit 1 then .leaf level a e
      else walk va (bits e 7 32 * 128) s fuel

/-- The walk of `va` in address space `tag`: from the cache where it holds the leaf (R243), else through the table. -/
def lookup (tag va : Nat) (s : State) : Option WalkEnd :=
  match kvGet s.tx.spaces tag with
  | none => none
  | some sp =>
    match s.tx.cache.find? (fun c => c.tag == tag && c.gen == sp.gen && c.page == va / 2 ^ c.size * 2 ^ c.size) with
    | some c => some (.leaf (if c.size = 30 then 2 else if c.size = 26 then 3 else 4) 0 c.leaf.toNat)
    | none => some (walk va sp.root s 4)

/-- The leaf grants this kind of access (R239). -/
def leafGrants (e : Nat) (acc : Access) : Bool :=
  match acc with
  | .read => e.testBit 4
  | .write => e.testBit 5
  | .fetch => e.testBit 6
  | .add => e.testBit 7

/-! ### The row directory (R213) -/

/-- A row directory entry (R213). -/
structure DirEntry where
  loc : Nat
  home : Nat
  dirty : Bool
  pin : Bool
  readMostly : Bool
  busy : Bool
  ref : Bool
  hot : Bool
  xfer : Bool
  noHome : Bool
  pref : Nat
  abset : Nat
  version : BitVec 7
  frame : Nat
  t2valid : Bool
  t2cxl : Bool
  t2addr : Nat
  t3valid : Bool
  t3port : Fin 4
  t3lba : Nat
deriving DecidableEq, Repr

/-- Read a directory entry from its 32 bytes. -/
def DirEntry.parse (x : Nat) : DirEntry where
  loc := bits x 0 2
  home := bits x 2 2
  dirty := x.testBit 4
  pin := x.testBit 5
  readMostly := x.testBit 6
  busy := x.testBit 7
  ref := x.testBit 8
  hot := x.testBit 9
  xfer := x.testBit 10
  noHome := x.testBit 11
  pref := bits x 12 2
  abset := bits x 16 6
  version := BitVec.ofNat 7 (bits x 24 7)
  frame := bits x 32 23
  t2valid := x.testBit 64
  t2cxl := x.testBit 65
  t2addr := bits x 80 48 * 2 ^ 16
  t3valid := x.testBit 128
  t3port := Fin.ofNat 4 (bits x 129 2)
  t3lba := bits x 136 40

/-- The 32 bytes of a directory entry; the device writes 0 to reserved bits (R6). -/
def DirEntry.pack (d : DirEntry) : Nat :=
  d.loc + 2 ^ 2 * d.home + 2 ^ 4 * b2n d.dirty + 2 ^ 5 * b2n d.pin + 2 ^ 6 * b2n d.readMostly + 2 ^ 7 * b2n d.busy
    + 2 ^ 8 * b2n d.ref + 2 ^ 9 * b2n d.hot + 2 ^ 10 * b2n d.xfer + 2 ^ 11 * b2n d.noHome + 2 ^ 12 * d.pref
    + 2 ^ 16 * d.abset + 2 ^ 24 * d.version.toNat + 2 ^ 32 * d.frame
    + 2 ^ 64 * b2n d.t2valid + 2 ^ 65 * b2n d.t2cxl + 2 ^ 64 * d.t2addr
    + 2 ^ 128 * b2n d.t3valid + 2 ^ 129 * d.t3port.val + 2 ^ 136 * d.t3lba

/-- The bits of an entry that fields cover. -/
def dirMask : Nat :=
  maskAt 0 14 + maskAt 16 6 + maskAt 24 7 + maskAt 32 23 + maskAt 64 2 + maskAt 80 48 + maskAt 128 3 + maskAt 136 40

/-- What the device's own address of a directory entry resolves to (R242 step 2). -/
inductive DirPlace where
  | at (pa : Nat)
  | bad
  | poison (addr : Nat)
deriving DecidableEq, Repr

/-- A plain T1 page at `va` of `tag`, read through the current page table. -/
def plainPa (tag va : Nat) (s : State) : DirPlace :=
  match lookup tag va s with
  | some (.leaf level _ e) =>
    if leafKind e = 0 then .at (leafFrame e + va % 2 ^ pageLog level) else .bad
  | some (.poison a) => .poison a
  | _ => .bad

/-- Where the directory entry of block `b` lies. -/
def dirPlace (t : Table) (b : Nat) (s : State) : DirPlace :=
  match plainPa t.tag.toNat (t.dirBase + 32 * b) s with
  | .at pa => if poisoned (sectorOf pa) s then .poison (t.dirBase + 32 * b) else .at pa
  | r => r

/-- The directory entry of block `b`, where it can be read. -/
def dirEntry (t : Table) (b : Nat) (s : State) : Option DirEntry :=
  match dirPlace t b s with
  | .at pa => some (DirEntry.parse (t1Nat pa 32 s))
  | _ => none

/-- Write the directory entry of block `b` (R215: only the device writes it). -/
def dirWrite (t : Table) (b : Nat) (d : DirEntry) (s : State) : State :=
  match dirPlace t b s with
  | .at pa => t1Put pa (toBytes 32 d.pack) s
  | _ => s

/-- Change the directory entry of block `b`. -/
def dirMod (t : Table) (b : Nat) (f : DirEntry → DirEntry) (s : State) : State :=
  match dirEntry t b s with
  | some d => dirWrite t b (f d) s
  | none => s

/-- A virtual address lies in the directory of a live table of its tag: only the device writes it (R215). -/
def inDirectory (tag va : Nat) (s : State) : Bool :=
  s.tbl.tables.any (fun x => x.2.tag.toNat == tag && decide (x.2.shardKind ≠ 0)
    && decide (x.2.dirBase / 4096 ≤ va / 4096 ∧ va / 4096 ≤ (x.2.dirBase + 32 * x.2.blocks - 1) / 4096))

/-! ### Resolution (R239, R242) -/

/-- What one byte address resolves to for an access. -/
inductive Place where
  /-- a T1 address; of table storage, its table and block -/
  | t1 (pa : Nat) (blk : Option (Nat × Nat))
  | host (addr : Nat)
  /-- a missing page: level and entry address -/
  | absent (level entryAddr : Nat)
  /-- a block of table storage that is not resident -/
  | away (table blk : Nat)
  | malformed (level entryAddr : Nat)
  /-- a TABLE leaf or directory page that does not resolve -/
  | badTable (table : Nat)
  /-- a poisoned page-table entry, or directory word of a table -/
  | poison (table : Option Nat) (addr : Nat)
  /-- no right, a POOL page, a reserved or excluded frame, or no such address space -/
  | refused
deriving DecidableEq, Repr

/-- Resolve a TABLE leaf (R242). -/
def resolveTable (tag va id : Nat) (s : State) : Place :=
  match tableOf id s with
  | none => .badTable id
  | some t =>
    if t.shardKind = 0 ∨ t.tag.toNat ≠ tag ∨ va < t.vbase ∨ t.vbase + t.blocks * 65536 ≤ va then .badTable id
    else
      let b := (va - t.vbase) / 65536
      match dirPlace t b s with
      | .bad => .badTable id
      | .poison a => .poison (some id) a
      | .at pa =>
        let d := DirEntry.parse (t1Nat pa 32 s)
        if d.loc = 1 then .t1 (d.frame * 65536 + va % 65536) (some (id, b)) else .away id b

/-- Resolve one virtual address for an access (R236–R242). -/
def resolve (tag va : Nat) (acc : Access) (s : State) : Place :=
  if 2 ^ 52 ≤ va then .refused
  else match lookup tag va s with
  | none => .refused
  | some (.absent l a) => .absent l a
  | some (.malformed l a) => .malformed l a
  | some (.poison a) => .poison none a
  | some (.leaf level _ e) =>
    if !leafGrants e acc then .refused
    else match leafKind e with
    | 0 =>
      if decide (acc = .write ∨ acc = .add) && inDirectory tag va s then .refused
      else .t1 (leafFrame e + va % 2 ^ pageLog level) none
    | 1 => .host (leafHost e + va % 2 ^ pageLog level)
    | 2 => resolveTable tag va (leafTable e) s
    | _ => .refused

/-- The pieces of `[va, va+n)` that lie in one 64 KiB block each (R240): address and length. -/
def pieces : (fuel : Nat) → Nat → Nat → List (Nat × Nat)
  | 0, _, _ => []
  | fuel + 1, va, n =>
    if n = 0 then []
    else
      let k := min n (65536 - va % 65536)
      (va, k) :: pieces fuel (va + k) (n - k)

/-- The pieces of a whole access. -/
def accessPieces (va n : Nat) : List (Nat × Nat) := pieces (n / 65536 + 2) va n

end Sys2Proof.Machine
end

