-- ==== Sys2Proof/Machine/Stalls.lean ====
section
/-! DEFINITION. The stalls of every engine context: threads, block copies, Hook operations, Purl slots and operations,
Matrix Unit operations and port services (R217, R247, R266). -/

namespace Sys2Proof.Machine

open Sys2Proof

/-- A stall that is `a` becomes `b`. -/
def Stall.swap (a b x : Stall) : Stall := if x = a then b else x

/-- A thread's hold after its stall `a` becomes `b`: with no stall left the thread is ready to replay (R250, R317). -/
def Hold.swap (a b : Stall) : Hold → Hold
  | .stall x xf => if x = a then (if b = .none then .ready else .stall b xf) else .stall x xf
  | h => h

/-- Every context that stalls on `a` goes on with `b`: `.none` to replay, `.failed st` to end with a fault. -/
def releaseStalls (a b : Stall) (s : State) : State :=
  { s with
    th := { s.th with
      threads := s.th.threads.map (fun e => (e.1, { e.2 with hold := Hold.swap a b e.2.hold }))
      copies := s.th.copies.map (fun c => { c with stall := Stall.swap a b c.stall }) }
    tl := { s.tl with
      hooks := s.tl.hooks.map (fun c => { c with stall := Stall.swap a b c.stall })
      mx := s.tl.mx.map (fun c => { c with stall := Stall.swap a b c.stall }) }
    pu := { s.pu with
      slots := s.pu.slots.map (fun c => { c with stall := Stall.swap a b c.stall })
      ops := s.pu.ops.map (fun c => { c with stall := Stall.swap a b c.stall })
      inbound := s.pu.inbound.map (fun c => { c with stall := Stall.swap a b c.stall }) }
    mb := { s.mb with qps := s.mb.qps.map (fun q =>
      { q with cmds := q.cmds.map (fun c => { c with stall := Stall.swap a b c.stall }) }) }
    fab := { s.fab with services := s.fab.services.map (fun c => { c with stall := Stall.swap a b c.stall }) } }

/-- A hold that is the stall `a`. -/
def Hold.isStall (a : Stall) : Hold → Bool
  | .stall x _ => decide (x = a)
  | _ => false

/-- Some context stalls on `a`. -/
def anyStalled (a : Stall) (s : State) : Bool :=
  s.th.threads.any (fun e => Hold.isStall a e.2.hold)
    || s.th.copies.any (fun c => decide (c.stall = a))
    || s.tl.hooks.any (fun c => decide (c.stall = a))
    || s.tl.mx.any (fun c => decide (c.stall = a))
    || s.pu.slots.any (fun c => decide (c.stall = a))
    || s.pu.ops.any (fun c => decide (c.stall = a))
    || s.pu.inbound.any (fun c => decide (c.stall = a))
    || s.fab.services.any (fun c => decide (c.stall = a))
    || s.mb.qps.any (fun q => q.cmds.any (fun c => decide (c.stall = a)))

/-- The step in its confirm phase, as a fault record notes it (R248); 0 if there is none. -/
def confirmStep (s : State) : Nat :=
  match s.stp.live.find? (fun x => decide (x.phase = .confirm)) with
  | some x => x.num
  | none => 0

/-- The asynchronous operations of the context `key` leave the scope of a fence clear (R291): no Hook operation of it runs
unless held speculatively (R292), no Matrix Unit operation and no ROW_ADD is under way; at the device's scope its local updates
have been applied or parked; at the system's scope its remote updates have been acknowledged too. -/
def enginesQuiet (key : Nat) (f : FenceScope) (s : State) : Bool :=
  !s.tl.hooks.any (fun x => x.thread == key && !(x.spec && (x.halted || decide (bits x.desc.toNat 64 17 ≤ x.next))))
    && !s.tl.mx.any (fun x => x.thread == key)
    && !s.pu.ops.any (fun x => x.thread == key)
    && (decide (f = .thread) || !s.pu.slots.any (fun u => u.thread == key))
    && (decide (f ≠ .system) || !s.pu.store.any (fun r => r.upd.thread == key))

end Sys2Proof.Machine
end

