-- ==== Sys2Proof/Machine/Residency.lean ====
section
/-! DEFINITION. Residency across tiers (10_residency_and_flash_tail.md): touches, fault-in (R217–R219), the clock and eviction
(R220, R221), write-backs and their journal (R222–R225), drives, drive faults and fencing (R226–R231). -/

namespace Sys2Proof.Machine

open Sys2Proof

/-! ### Small changes -/

def modRes (f : Residency → Residency) (s : State) : State := { s with res := f s.res }

def modDrive (p : Fin 4) (f : Drive → Drive) (s : State) : State :=
  modRes (fun r => { r with drives := vmod r.drives p f }) s

/-- Block `b` of table `id`. -/
def blockDir (id b : Nat) (s : State) : Option DirEntry := (tableOf id s).bind (fun t => dirEntry t b s)

/-- Change the directory entry of block `b` of table `id`. -/
def blockMod (id b : Nat) (f : DirEntry → DirEntry) (s : State) : State :=
  match tableOf id s with
  | some t => dirMod t b f s
  | none => s

/-- The virtual address of a block. -/
def blockVa (id b : Nat) (s : State) : Nat :=
  match tableOf id s with
  | some t => t.vbase + b * 65536
  | none => 0

/-- A frame holds a poisoned sector (R273). -/
def framePoisoned (f : Nat) (s : State) : Bool := s.ram.poison.any (fun a => frameOf a == f)

/-! ### The write-back journal (R224) -/

/-- Append a journal record. -/
def wbJournal (kind tier id b : Nat) (target : W64) (s : State) : State :=
  modRes (fun r => { r with journal := (⟨r.journalSeq, kind, tier, id, b, target⟩ :: r.journal).take 131072,
                            journalSeq := r.journalSeq + 1 }) s

/-- The journal's target field: a host bus address, or port and LBA (R224). -/
def wbTarget (d : DirEntry) (tier : Nat) : W64 :=
  if tier = 2 then BitVec.ofNat 64 d.t2addr else BitVec.ofNat 64 (d.t3port.val + 256 * d.t3lba)

/-! ### NVMe commands (R227, R228) -/

/-- The commands of a transfer of one block: one, or as many as MDTS asks for (R217). -/
def blockCmds (d : Drive) : Nat := if d.mdts = 0 ∨ 65536 ≤ d.mdts then 1 else ceilDiv 65536 d.mdts

/-- Issue one NVMe command on port `p`. -/
def nvmeIssue (p : Fin 4) (use : NvmeUse) (s : State) : State :=
  let id := (s.res.drives[p]).nextId
  emit (.nvme p id use) (modDrive p (fun d => { d with nextId := (id + 1) % 65536, cmds := d.cmds ++ [⟨id, use, false⟩] }) s)

/-- Issue `n` of them. -/
def nvmeIssueN (p : Fin 4) (use : NvmeUse) : Nat → State → State
  | 0, s => s
  | n + 1, s => nvmeIssueN p use n (nvmeIssue p use s)

/-- A command with this use is outstanding on port `p`. -/
def nvmeBusy (p : Fin 4) (use : NvmeUse) (s : State) : Bool := (s.res.drives[p]).cmds.any (fun c => c.use == use)

/-! ### The pool and its clock (R216, R220, R241) -/

/-- A 64 KiB frame belongs to the pool. -/
def inPool (f : Nat) (s : State) : Bool := s.res.poolDecl.any (fun d => decide (d.2.2.1 ≤ f ∧ f < d.2.2.1 + d.2.2.2))

/-- The first pool frame at or above `f`. -/
def poolFrom (f : Nat) (s : State) : Option Nat :=
  s.res.poolDecl.foldl (fun best d =>
    if f < d.2.2.1 + d.2.2.2 then
      let x := max f d.2.2.1
      match best with
      | some y => some (min x y)
      | none => some x
    else best) none

/-- The pool frame after `f` in ascending order, wrapping. -/
def poolNext (f : Nat) (s : State) : Option Nat := (poolFrom (f + 1) s).orElse (fun _ => poolFrom 0 s)

/-- An upper bound on the number of pool frames. -/
def poolSize (s : State) : Nat := (s.res.poolDecl.map (fun d => d.2.2.2)).sum

/-- What the clock finds. -/
inductive FrameSearch where
  | free (f : Nat)
  /-- a block to evict: its frame, table, block and whether it is dirty -/
  | evict (f id b : Nat) (dirty : Bool)
  | nothing
deriving DecidableEq, Repr

/-- One step of the clock at frame `f` (R220): what it finds there, and the state with REF cleared where it was set. -/
def clockStep (pass cls : Nat) (spec : Bool) (f : Nat) (s : State) : FrameSearch × State :=
  match kvGet s.res.used f with
  | none => (.free f, s)
  | some (id, b) =>
    match blockDir id b s with
    | none => (.nothing, s)
    | some d =>
      if d.busy || d.pin || d.home == 1 || d.noHome || framePoisoned f s && d.dirty then (.nothing, s)
      else if spec && d.dirty then (.nothing, s)
      else if d.hot && decide (2 ≤ cls) then (.nothing, s)
      else if d.pref == 1 && pass == 1 then (.nothing, s)
      else if d.ref then (.nothing, blockMod id b (fun d => { d with ref := false }) s)
      else (.evict f id b d.dirty, s)

/-- One sweep of the clock from frame `f` on (R220). -/
def clockSweep (pass cls : Nat) (spec : Bool) : (fuel f : Nat) → State → FrameSearch × State
  | 0, _, s => (.nothing, s)
  | fuel + 1, f, s =>
    match clockStep pass cls spec f s with
    | (.nothing, s) =>
      match poolNext f s with
      | some g => clockSweep pass cls spec fuel g s
      | none => (.nothing, s)
    | r => r

/-- Two sweeps from the hand (R220); the hand moves past the frame taken. -/
def clockFind (cls : Nat) (spec : Bool) (s : State) : FrameSearch × State :=
  match (poolFrom s.res.hand s).orElse (fun _ => poolFrom 0 s) with
  | none => (.nothing, s)
  | some f =>
    let n := poolSize s
    let (r, s) := clockSweep 1 cls spec n f s
    let (r, s) := if r = .nothing then clockSweep 2 cls spec n f s else (r, s)
    match r with
    | .free g => (r, modRes (fun x => { x with hand := g + 1 }) s)
    | .evict g _ _ _ => (r, modRes (fun x => { x with hand := g + 1 }) s)
    | .nothing => (r, s)

/-! ### Write-back (R221–R223) -/

/-- The target of a write-back: the preferred tier where the block has a slot there, else HOME (R222). -/
def wbTier (d : DirEntry) : Nat :=
  if d.pref = 2 ∧ d.t2valid then 2 else if d.pref = 3 ∧ d.t3valid then 3 else d.home

/-- Start a write-back of a resident block to `tier` (R222). -/
def wbStart (id b tier : Nat) (evict : Bool) (s : State) : State :=
  match blockDir id b s with
  | none => s
  | some d =>
    if d.busy then s
    else
      let s := blockMod id b (fun d => { d with busy := true, xfer := true }) s
      let s := wbJournal 1 tier id b (wbTarget d tier) s
      let s := modRes (fun r => { r with writeBacks := r.writeBacks ++ [⟨id, b, tier, false, evict⟩] }) s
      if tier = 3 then nvmeIssueN d.t3port (.write id b) (blockCmds s.res.drives[d.t3port]) s else s

/-- Drop a write-back from the list. -/
def wbDrop (id b : Nat) (s : State) : State :=
  modRes (fun r => { r with writeBacks := r.writeBacks.filter (fun w => !(w.table == id && w.blk == b)) }) s

/-- A write-back is cancelled: CANCELLED is journaled, the block keeps its frame, dirty (R223). -/
def wbCancel (id b : Nat) (s : State) : State :=
  match s.res.writeBacks.find? (fun w => w.table == id && w.blk == b) with
  | none => s
  | some w =>
    let target := match blockDir id b s with
      | some d => wbTarget d w.tier
      | none => 0
    let s := wbDrop id b (wbJournal 3 w.tier id b target s)
    let s := blockMod id b (fun d => { d with busy := false, xfer := false, dirty := true }) s
    modRes (fun r => { r with faultIns := r.faultIns.map (fun f => if f.victim = some (id, b) then { f with victim := none } else f) }) s

/-- The block leaves its frame: LOC becomes HOME, the frame's version goes to the entry (R221, R261). -/
def blockLeave (id b : Nat) (s : State) : State :=
  match blockDir id b s with
  | none => s
  | some d =>
    let v := frameVersion d.frame s
    let s := blockMod id b (fun d => { d with loc := d.home, version := v, frame := 0 }) s
    modRes (fun r => { r with used := kvErase r.used d.frame }) s

/-! ### Fault-in (R217–R219) -/

/-- Find the fault-in of a block. -/
def faultInOf (id b : Nat) (s : State) : Option FaultIn := s.res.faultIns.find? (fun f => f.table == id && f.blk == b)

/-- Change it. -/
def modFaultIn (id b : Nat) (f : FaultIn → FaultIn) (s : State) : State :=
  modRes (fun r => { r with faultIns := modFirst (fun x => x.table == id && x.blk == b) f r.faultIns }) s

/-- The fault-in takes frame `f`, and its transfer is issued (R217). -/
def faultInFrame (id b f : Nat) (s : State) : State :=
  let s := modRes (fun r => { r with used := kvSet r.used f (id, b) }) s
  let s := blockMod id b (fun d => { d with frame := f }) s
  let s := modFaultIn id b (fun x => { x with frame := some f, victim := none }) s
  match blockDir id b s with
  | some d => if d.loc = 3 then nvmeIssueN d.t3port (.read id b) (blockCmds s.res.drives[d.t3port]) s else s
  | none => s

/-- Find a frame for a fault-in (R220): take a free one, evict a clean block, or start a dirty block's write-back. -/
def faultInPlace (id b : Nat) (spec : Bool) (s : State) : State :=
  match faultInOf id b s with
  | none => s
  | some x =>
    if x.frame.isSome || x.victim.isSome then s
    else
      match clockFind x.cls spec s with
      | (.free f, s) => faultInFrame id b f s
      | (.evict f vid vb dirty, s) =>
        if dirty then
          match blockDir vid vb s with
          | some d => modFaultIn id b (fun x => { x with victim := some (vid, vb) }) (wbStart vid vb (wbTier d) true s)
          | none => s
        else faultInFrame id b f (blockLeave vid vb s)
      | (.nothing, s) => s

/-- What a touch of a block that is not resident comes to. -/
inductive TouchEnd where
  /-- the toucher waits for the fault-in -/
  | wait
  /-- the touch ends with this status at once (R218, R219) -/
  | fail (status : Nat)
deriving DecidableEq, Repr

/-- The home of a block that cannot be reached: a fenced drive (R218, R230). -/
def homeLost (d : DirEntry) (s : State) : Bool :=
  d.noHome || d.loc == 3 && !(s.res.drives[d.t3port]).usable

/-- The failure of a fault-in is logged (R218). -/
def logFaultIn (id b : Nat) (s : State) : State := logErr .contained 0x40 .operation 0 id b s

/-- A touch of a block that is not resident starts or joins its fault-in (R217). -/
def touchAway (id b cls : Nat) (spec : Bool) (s : State) : TouchEnd × State :=
  match blockDir id b s with
  | none => (.fail 0x20, s)
  | some d =>
    let s := blockMod id b (fun d => { d with ref := true, hot := d.hot || decide (cls ≤ 1) }) s
    match faultInOf id b s with
    | some x => (.wait, modFaultIn id b (fun y => { y with cls := min cls x.cls }) s)
    | none =>
      if homeLost d s then (.fail 0x20, logFaultIn id b s)
      else
        let before := s
        let s := blockMod id b (fun d => { d with busy := true, xfer := false }) s
        let s := modRes (fun r => { r with faultIns := r.faultIns ++ [⟨id, b, cls, none, none, none⟩] }) s
        let s := faultInPlace id b spec s
        let found := match faultInOf id b s with
          | some x => x.frame.isSome || x.victim.isSome
          | none => false
        if found then (.wait, s)
        else if spec then (.fail 0x20, before)
        else (.wait, s)

/-- A touch of a resident block: REF, HOT01 for C0 and C1, DIRTY for a write, whose write-back it cancels (R220, R223, R242). -/
def touchHere (id b cls : Nat) (wr : Bool) (s : State) : State :=
  let s := if wr then wbCancel id b s else s
  blockMod id b (fun d => { d with ref := true, hot := d.hot || decide (cls ≤ 1), dirty := d.dirty || wr }) s

/-- The fault-in fails: the block stays on its home, its frame is freed, the waiting engines get the fault (R218). -/
def faultInFail (id b status : Nat) (s : State) : State :=
  let frame := (faultInOf id b s).bind (fun x => x.frame)
  let s := match frame with
    | some f => modRes (fun r => { r with used := kvErase r.used f }) s
    | none => s
  let s := modRes (fun r => { r with faultIns := r.faultIns.filter (fun x => !(x.table == id && x.blk == b)) }) s
  let s := blockMod id b (fun d => { d with busy := false, frame := 0 }) s
  logFaultIn id b (releaseStalls (.block id b) (.failed status) s)

/-- The bytes of a block at its home. -/
def homeBytes (d : DirEntry) (s : State) : Option (List Byte) :=
  match d.loc with
  | 0 => some []
  | 2 => hostRead d.t2addr 65536 s
  | 3 => some (cellsRead (s.res.drives[d.t3port]).data (d.t3lba * 4096) 65536)
  | _ => none

/-- A refused device read is logged: the partner violation of R138, then the contained entry of R134. -/
def logReadRefused (unit addr : Nat) (s : State) : State :=
  logErr .contained 0x0D .operation unit 0 addr (logErr .partner 0x0D .operation unit 0 addr (countViol s))

/-- A fault-in ends (R217, R218). -/
def faultInEnd (id b : Nat) (s : State) : State :=
  match faultInOf id b s, blockDir id b s with
  | some x, some d =>
    match x.failed with
    | some st => faultInFail id b st s
    | none =>
      match x.frame with
      | none => faultInPlace id b false s
      | some f =>
        if d.loc = 2 ∧ !t2Reach d.t2cxl s ∨ d.loc = 3 ∧ nvmeBusy d.t3port (.read id b) s then s
        else match homeBytes d s with
        | none => faultInFail id b 0x20 (logReadRefused 0 d.t2addr s)
        | some bs =>
          let s := t1Fill f bs d.version s
          let s := blockMod id b (fun d => { d with loc := 1, ref := true, busy := false, dirty := d.dirty || d.loc == 0, frame := f }) s
          let s := modRes (fun r => { r with faultIns := r.faultIns.filter (fun x => !(x.table == id && x.blk == b)) }) s
          releaseStalls (.block id b) .none s
  | _, _ => s

/-- Fault-ins that wait for a frame try again. -/
def retryFaultIns (s : State) : State :=
  s.res.faultIns.foldl (fun s x => if x.frame.isNone && x.victim.isNone then faultInPlace x.table x.blk false s else s) s

/-- A write-back's data reaches its target (R222). -/
def wbData (d : DirEntry) (tier : Nat) (bs : List Byte) (s : State) : State :=
  if tier = 2 then hostWrite d.t2addr bs s
  else modDrive d.t3port (fun x => { x with data := cellsWrite x.data (d.t3lba * 4096) bs }) s

/-- A write-back completes (R222): DONE, the entry's new home, the old drive slot's deallocate, and the freed frame. -/
def wbEnd (id b : Nat) (s : State) : State :=
  match s.res.writeBacks.find? (fun w => w.table == id && w.blk == b), blockDir id b s with
  | some w, some d =>
    if w.tier = 2 ∧ !t2Reach d.t2cxl s ∨ w.tier = 3 ∧ nvmeBusy d.t3port (.write id b) s then s
    else
      let s := wbData d w.tier (t1Read (d.frame * 65536) 65536 s) s
      let s := wbJournal 2 w.tier id b (wbTarget d w.tier) s
      let s := wbDrop id b s
      let moved := decide (d.home = 3 ∧ w.tier ≠ 3)
      let s := blockMod id b (fun d => { d with home := w.tier, dirty := false, busy := false, xfer := false, noHome := false }) s
      let s := if moved then nvmeIssue d.t3port (.dealloc id b d.t3lba) s else s
      if w.evict then
        let s := blockLeave id b s
        match s.res.faultIns.find? (fun x => x.victim == some (id, b)) with
        | some x => faultInFrame x.table x.blk d.frame s
        | none => retryFaultIns s
      else s
  | _, _ => s

/-! ### Drives (R226–R231) -/

/-- Handle a block homed on a drive that is being fenced (R230 step 4). -/
def fenceBlock (id b : Nat) (s : State) : State :=
  match blockDir id b s with
  | none => s
  | some d =>
    if d.loc = 1 then
      if d.t2valid then wbStart id b 2 false (blockMod id b (fun d => { d with home := 2, pref := 2, dirty := true }) s)
      else blockMod id b (fun d => { d with noHome := true, dirty := true }) s
    else blockMod id b (fun d => { d with noHome := true }) s

/-- Every block of every local table whose home is on drive `p`. -/
def homedOn (p : Fin 4) (s : State) : List (Nat × Nat) :=
  s.tbl.tables.flatMap (fun x => ((List.range x.2.blocks).filter (fun b =>
    match dirEntry x.2 b s with
    | some d => d.home == 3 && d.t3port == p
    | none => false)).map (fun b => (x.1, b)))

/-- What the end of an NVMe command without success does (R218, R223). -/
def nvmeFailed (use : NvmeUse) (status : Nat) (s : State) : State :=
  match use with
  | .read id b => modFaultIn id b (fun x => { x with failed := some status }) s
  | .write id b => wbCancel id b s
  | .repair sec =>
    { s with ram := { s.ram with repairs := modFirst (fun r => r.sector == sec) (fun r => { r with failed := true }) s.ram.repairs } }
  | _ => s

/-- Fence drive `p` (R230). -/
def fenceDrive (p : Fin 4) (s : State) : State :=
  let d := s.res.drives[p]
  if d.fenced then s
  else
    let cs := d.cmds
    let s := modDrive p (fun d => { d with fenced := true, usable := false, cmds := [] }) s
    let s := cs.foldl (fun s c => nvmeFailed c.use 0x20 s) s
    let s := { s with rst := { s.rst with degraded := true } }
    let s := logErr .contained 0x42 .nvmePort p.val d.faults 0 s
    let s := (s.res.faultIns.filter (fun x => x.failed.isSome)).foldl (fun s x => faultInEnd x.table x.blk s) s
    (homedOn p s).foldl (fun s x => fenceBlock x.1 x.2 s) s

/-- One drive fault of a kind of R229; the 16th fences the drive. -/
def driveFault (p : Fin 4) (kind id : Nat) (s : State) : State :=
  let s := modDrive p (fun d => { d with faults := d.faults + 1 }) s
  let s := logErr .partner 0x41 .nvmePort p.val kind id s
  if 16 ≤ (s.res.drives[p]).faults then fenceDrive p s else s

/-- Remove an outstanding command. -/
def nvmeRemove (p : Fin 4) (id : Nat) (s : State) : State :=
  modDrive p (fun d => { d with cmds := d.cmds.filter (fun c => c.id != id) }) s

/-- The DEALLOC record of a completed deallocate (R222 step 6). -/
def deallocDone (p : Fin 4) (id b lba : Nat) (s : State) : State :=
  wbJournal 4 3 id b (BitVec.ofNat 64 (p.val + 256 * lba)) s

/-- An old slot's deallocate completes (row DEALLOCATE_COMPLETE, R222 step 6): its command, if one is outstanding, ends and the DEALLOC
record is journaled. -/
def deallocComplete (p : Fin 4) (id b lba : Nat) (s : State) : State :=
  match (s.res.drives[p]).cmds.find? (fun c => c.use == .dealloc id b lba) with
  | none => s
  | some c => deallocDone p id b lba (nvmeRemove p c.id s)

/-- An NVMe completion arrives (R229): `headOk` says its SQ head lies inside the queue, `ok` that it reports success. -/
def nvmeComplete (p : Fin 4) (id : Nat) (headOk ok : Bool) (s : State) : State :=
  let d := s.res.drives[p]
  if !d.usable then s
  else if !headOk then driveFault p 2 id s
  else match d.cmds.find? (fun c => c.id == id) with
  | none => driveFault p 1 id s
  | some c =>
    let s := nvmeRemove p id s
    match c.use, ok with
    | .dealloc t b lba, true => deallocDone p t b lba s
    | .stepRecord n, true => { s with stp := { s.stp with durable := max s.stp.durable n } }
    | _, true => s
    | .read t b, false => driveFault p 5 id (nvmeFailed (.read t b) 0x22 s)
    | .repair sec, false => driveFault p 5 id (nvmeFailed (.repair sec) 0x22 s)
    | .write t b, false => driveFault p 4 id (nvmeFailed (.write t b) 0 s)
    | .stepRecord _, false => driveFault p 4 id s
    | _, false => s

/-- A command has not completed within 8 s: it is aborted, and counted as a fault (R229). -/
def nvmeTimeout (p : Fin 4) (id : Nat) (s : State) : State :=
  let d := s.res.drives[p]
  if d.usable && d.cmds.any (fun c => c.id == id && !c.aborted) then
    let s := modDrive p (fun d => { d with cmds := modFirst (fun c => c.id == id) (fun c => { c with aborted := true }) d.cmds }) s
    driveFault p 3 id (emit (.nvmeAbort p id) s)
  else s

/-- Nor within 2 s more: it counts again and is abandoned (R229). -/
def nvmeAbortTimeout (p : Fin 4) (id : Nat) (s : State) : State :=
  match (s.res.drives[p]).cmds.find? (fun c => c.id == id && c.aborted) with
  | none => s
  | some c => driveFault p 3 id (nvmeFailed c.use 0x20 (nvmeRemove p id s))

/-- Examine a drive at stage S3, or re-initialise it (R226); NPERST# of a fitted drive goes high (R554). -/
def initDrive (p : Fin 4) (r : DriveReport) (s : State) : State :=
  let s := modDrive p (fun d => { d with fitted := r.fitted, nperst := !r.fitted }) s
  if r.failed = 0 ∧ r.fitted then
    modDrive p (fun d => { d with usable := true, fenced := false, faults := 0, cmds := [], capacity := r.capacity, mdts := r.mdts }) s
  else
    let s := modDrive p (fun d => { d with usable := false, cmds := [] }) s
    logErr .contained 0x43 .nvmePort p.val (if r.fitted then r.failed else 1) 0 { s with rst := { s.rst with degraded := true } }

/-- A drive that re-initialises frees its blocks of NO_HOME (R231). -/
def unfenceBlocks (p : Fin 4) (s : State) : State :=
  s.tbl.tables.foldl (fun s x => (List.range x.2.blocks).foldl (fun s b =>
    blockMod x.1 b (fun d => if d.noHome && d.t3valid && d.t3port == p then { d with noHome := false } else d) s) s) s

/-! ### Withdrawn frames (R255, R562) -/

/-- Move a block whole to a free pool frame, with versions, poison and parking records (R255). -/
def moveBlock (f g id b : Nat) (s : State) : State :=
  let bs := t1Read (f * 65536) 65536 s
  let secs := (List.range 2048).map (fun i => f * 65536 + 32 * i)
  let vers := secs.map (fun a => sectorVersion a s)
  let fv := frameVersion f s
  let shift (a : Nat) := if frameOf a = f then g * 65536 + a % 65536 else a
  let s := t1Put (g * 65536) bs s
  let s := setFrameVersion g fv s
  let s := (secs.zip vers).foldl (fun s x => setSectorVersions [shift x.1] x.2 s) s
  let s := { s with ram := { s.ram with
    poison := s.ram.poison.filter (fun a => frameOf a != g) |>.map shift,
    parked := s.ram.parked.map (fun r => { r with sector := shift r.sector }) } }
  let s := modRes (fun r => { r with used := kvSet (kvErase r.used f) g (id, b) }) s
  blockMod id b (fun d => { d with frame := g }) s

/-- A free pool frame. -/
def freeFrame (s : State) : Option Nat :=
  let rec go : Nat → Nat → Option Nat
    | 0, _ => none
    | fuel + 1, f => if (kvGet s.res.used f).isNone then some f else (poolNext f s).bind (go fuel)
  (poolFrom 0 s).bind (go (poolSize s))

/-- Used frames outside the pool. -/
def withdrawnFrames (s : State) : List (Nat × (Nat × Nat)) := s.res.used.filter (fun u => !inPool u.1 s)

/-- Empty one withdrawn frame: evict its block where R220 allows it, else copy it out (R255). -/
def emptyFrame (s : State) (u : Nat × (Nat × Nat)) : State :=
  let (f, id, b) := u
  match blockDir id b s with
  | none => modRes (fun r => { r with used := kvErase r.used f }) s
  | some d =>
    if (faultInOf id b s).isSome then s
    else if d.home == 1 || d.pin || d.noHome || d.busy || framePoisoned f s && d.dirty then
      match freeFrame s with
      | some g => moveBlock f g id b s
      | none => s
    else if d.dirty then wbStart id b (wbTier d) true s
    else blockLeave id b s

/-- Empty every withdrawn frame as far as it goes. -/
def emptyWithdrawn (s : State) : State := (withdrawnFrames s).foldl emptyFrame s

/-- The POOL leaves of a range of an address space: (tag, page, first frame, frames) (R241, R255). `lo` and `hi` bound the
virtual range; the walk covers the whole tree below `base`. -/
def poolLeaves (tag lo hi base va0 : Nat) (s : State) : (fuel : Nat) → List (Nat × Nat × Nat × Nat)
  | 0 => []
  | fuel + 1 =>
    let level := 4 - fuel
    let n := match level with
      | 1 => 8192
      | 2 => 512
      | 3 => 16
      | _ => 32
    let span := match level with
      | 1 => 2 ^ 39
      | 2 => 2 ^ 30
      | 3 => 2 ^ 26
      | _ => 2 ^ 21
    (List.range n).flatMap (fun i =>
      let va := va0 + i * span
      let e := t1Nat (base + 8 * i) 8 s
      if !e.testBit 0 || decide (va + span ≤ lo ∨ hi ≤ va) || malformed level e s then []
      else if e.testBit 1 then
        if leafKind e = 3 then [(tag, va, leafFrame e / 65536, span / 65536)] else []
      else poolLeaves tag lo hi (bits e 7 32 * 128) va s fuel)

/-- Re-read the POOL leaves of `[lo, hi)` of `tag` (R255). -/
def rereadPool (tag lo hi : Nat) (s : State) : State :=
  match kvGet s.tx.spaces tag with
  | none => s
  | some sp =>
    let kept := s.res.poolDecl.filter (fun d => !(d.1 == tag && decide (d.2.1 < hi ∧ lo < d.2.1 + d.2.2.2 * 65536)))
    modRes (fun r => { r with poolDecl := kept ++ poolLeaves tag lo hi sp.root 0 s 4 }) s

end Sys2Proof.Machine
end

