-- ==== Sys2Proof/Machine/Translation.lean ====
section
/-! DEFINITION. The Translation Hub's operations (11_translation.md): cached leaves (R243), page faults and the fault ring
(R247–R251), translated accesses of the engines (R240), poisoned reads and repairs (12 R265, R266), streams (R245, R246). -/

namespace Sys2Proof.Machine

open Sys2Proof

/-! ### The cache (R243) -/

/-- Cache the leaf found for `va`; the oldest entry makes room in a full cache. -/
def cacheLeaf (tag va : Nat) (s : State) : State :=
  match kvGet s.tx.spaces tag, lookup tag va s with
  | some sp, some (.leaf level ea e) =>
    let page := va / 2 ^ pageLog level * 2 ^ pageLog level
    let tx := { s.tx with replayed := s.tx.replayed.filter (fun r => !(r.1 == tag && r.2 == ea)) }
    if tx.cache.any (fun c => c.tag == tag && c.gen == sp.gen && c.page == page) then { s with tx := tx }
    else { s with tx := { tx with cache := (⟨tag, sp.gen, page, pageLog level, BitVec.ofNat 64 e⟩ :: tx.cache).take 65536 } }
  | _, _ => s

/-- Remove every cached leaf of the tag that maps a byte of the range (R253 step 1). -/
def uncacheRange (tag lo n : Nat) (s : State) : State :=
  { s with tx := { s.tx with cache := s.tx.cache.filter (fun c => !(c.tag == tag && overlaps c.page (2 ^ c.size) lo n)) } }

/-! ### Page faults (R247–R249) -/

/-- Who makes an access: SOURCE and UNIT of a fault record, the service class, whether it is speculative, and the start
address of the access (R247, R248). -/
structure Accessor where
  source : Nat
  unit : Nat
  cls : Nat
  spec : Bool
  accessVa : Nat
deriving DecidableEq, Repr

/-- A demand walk meets V = 0: the context joins the entry's outstanding record or gets a new one (R248). -/
def pageFault (who : Accessor) (tag va level ea : Nat) (acc : Access) (s : State) : Nat × State :=
  match s.tx.faults.find? (fun f => f.tag == tag && f.entryAddr == ea) with
  | some f =>
    (f.id, { s with tx := { s.tx with faults := modFirst (fun x => x.id == f.id)
                                        (fun x => { x with waiters := x.waiters + 1 }) s.tx.faults } })
  | none =>
    let id := s.tx.nextFault
    let again := s.tx.replayed.contains (tag, ea)
    let r : FaultRec := ⟨id, va, who.accessVa, ea, tag, level, acc.code, who.source, who.unit, who.cls, again, 1,
      confirmStep s, false⟩
    (id, { s with tx := { s.tx with nextFault := id + 1, faults := s.tx.faults ++ [r] } })

/-- The 64 bytes of a fault record (R248). -/
def FaultRec.bytes (f : FaultRec) (phase : Bool) : List Byte :=
  toBytes 8 f.id ++ toBytes 8 f.va ++ toBytes 8 f.accessVa ++ toBytes 8 f.entryAddr ++ toBytes 2 f.tag
    ++ [BitVec.ofNat 8 f.level, BitVec.ofNat 8 f.access, BitVec.ofNat 8 f.source, BitVec.ofNat 8 f.unit,
        BitVec.ofNat 8 (f.cls + 4 * b2n f.again), BitVec.ofNat 8 (b2n phase)]
    ++ toBytes 4 f.waiters ++ toBytes 6 f.step ++ toBytes 14 0

/-- The Hub writes the oldest pending record into a released slot of the fault ring (R249). -/
def faultRecordWrite (s : State) : State :=
  match s.tx.faults.find? (fun f => !f.written) with
  | none => s
  | some f =>
    if !s.tx.ringSet || decide (4096 ≤ s.tx.frCount) then s
    else
      let i := s.tx.frTail
      let s := hostWrite (s.tx.ringBase.toNat + 64 * i) (f.bytes s.tx.frPhase) s
      let next := (i + 1) % 4096
      raise 64 { s with tx := { s.tx with
        frTail := next, frCount := s.tx.frCount + 1, frPhase := if next = 0 then !s.tx.frPhase else s.tx.frPhase,
        frAge := if s.tx.faults.any (fun x => x.written) then s.tx.frAge else 0,
        faults := modFirst (fun x => x.id == f.id) (fun x => { x with written := true }) s.tx.faults } }

/-- A write of TX_FR_HEAD releases the slots before it; a value outside the ring or past TAIL follows R7. -/
def writeFrHead (v : Nat) (s : State) : State :=
  let k := (v + 4096 - s.tx.frHead) % 4096
  if 4096 ≤ v ∨ s.tx.frCount < k then logErr .partner 0x10 .none 0 0x90000 v s
  else { s with tx := { s.tx with frHead := v, frCount := s.tx.frCount - k } }

/-- TX_FR_STAT (11, TX_ registers). -/
def txStatReg (s : State) : Nat :=
  s.tx.frTail + 4096 * b2n s.tx.frPhase
    + 2 ^ 16 * satTo 16 (s.tx.faults.filter (fun f => !f.written)).length + 2 ^ 32 * s.tx.faults.length

/-- The watchdog of R251: once per second while a written record is outstanding. -/
def faultWatchdog (s : State) : State :=
  if s.tx.faults.any (fun f => f.written) then raise 65 { s with tx := { s.tx with frAge := s.tx.frAge + 1000 } } else s

/-- What is known of the age of the oldest written record once `f` has ended: the next oldest was written later, at a moment that no row
tells, so that a free number of ms remains of it. -/
def ageWithout (f : FaultRec) (s : State) : State :=
  match s.tx.faults.filter (fun x => x.written) with
  | x :: _ :: _ =>
    if x.id = f.id then
      let (v, s) := drawFree s
      { s with tx := { s.tx with frAge := BitVec.ofNat 32 (v.toNat % (s.tx.frAge.toNat + 1)) } }
    else s
  | _ => s

/-- A record ends: its contexts replay or end with FAULT_TRANSLATION (R250). -/
def endFault (f : FaultRec) (replay : Bool) (s : State) : State :=
  let s := ageWithout f s
  let tx := { s.tx with faults := s.tx.faults.filter (fun x => x.id != f.id)
                        replayed := if replay then (f.tag, f.entryAddr) :: s.tx.replayed else s.tx.replayed }
  releaseStalls (.page f.id) (if replay then .none else .failed 0x20) { s with tx := tx }

/-- TX_FR_AGE: the whole seconds the watchdog has counted, and a free number of ms of the second that runs; 0 with no record (R251). -/
def txAgeReg (s : State) : Nat :=
  if s.tx.faults.any (fun f => f.written) then (s.tx.frAge.toNat + (Config.freeValue s.freeCtr).toNat % 1000) % 2 ^ 32 else 0

/-- Records whose waiting contexts have all ended stop being outstanding (R251, R536). -/
def pruneFaults (s : State) : State :=
  { s with tx := { s.tx with faults := s.tx.faults.filter (fun f => anyStalled (.page f.id) s) } }

/-! ### Poisoned reads and repairs (R265, R266) -/

/-- The rows of a table's block that overlap `[off, off+32)` of it: their slots. -/
def rowsOver (t : Table) (b off : Nat) : List Nat :=
  (List.range t.rpb).filter (fun i => overlaps (i * t.stride) t.stride off 32 && decide (b * t.rpb + i < t.localRows))
    |>.map (fun i => b * t.rpb + i)

/-- The row stored in a slot (R197). -/
def Table.slotRow (t : Table) (slot : Nat) : Nat :=
  if t.shardKind = 3 then slot * t.shardMod + t.localFirst else slot + t.localFirst

/-- A current copy of a row, of a version, in a replica or hot set. -/
def cleanCopy (id row : Nat) (v : BitVec 7) (s : State) : Option (List Byte) :=
  let ok (c : RowCopy) := c.row == row && !c.stale && c.version == v
  let fromReps := s.tbl.replicas.findSome? (fun r => if r.table.toNat = id then (r.rows.find? ok).map (·.data) else none)
  fromReps.orElse (fun _ => s.tbl.hotSets.findSome? (fun h =>
    if h.2.table.toNat = id then (h.2.rows.find? ok).map (·.data) else none))

/-- The 32 bytes of a sector rebuilt from copies of the rows over it; padding is 0 (R265). -/
def copySector (t : Table) (id b off : Nat) (v : BitVec 7) (s : State) : Option (List Byte) :=
  let slots := rowsOver t b off
  let datas := slots.map (fun sl => (sl, cleanCopy id (t.slotRow sl) v s))
  if slots.isEmpty || datas.any (fun d => d.2.isNone) then none
  else some ((List.range 32).map (fun k =>
    let o := off + k
    match datas.find? (fun d => decide (t.slotOffset d.1 ≤ o ∧ o < t.slotOffset d.1 + t.stride)) with
    | some (sl, some bs) => (bs[o - t.slotOffset sl]?).getD 0
    | _ => 0))

/-- The directory entry and table of a sector of table storage. -/
def sectorHome (sec : Nat) (s : State) : Option (Nat × Nat × Table × DirEntry) :=
  match kvGet s.res.used (frameOf sec) with
  | none => none
  | some (id, b) =>
    match tableOf id s, blockDir id b s with
    | some t, some d => if d.loc = 1 then some (id, b, t, d) else none
    | _, _ => none

/-- The bytes a source gives for a sector (R265): 2 T2, 3 T3, 4 a copy. -/
def repairBytes (sec src : Nat) (s : State) : Option (List Byte) :=
  (sectorHome sec s).bind fun (id, b, t, d) =>
    let off := sec % 65536
    if src = 2 then hostRead (d.t2addr + off) 32 s
    else if src = 3 then some (cellsRead (s.res.drives[d.t3port]).data (d.t3lba * 4096 + off) 32)
    else copySector t id b off (frameVersion (frameOf sec) s) s

/-- A source has a clean copy of the sector (R265). -/
def repairHas (sec src : Nat) (s : State) : Bool :=
  match sectorHome sec s with
  | none => false
  | some (id, b, t, d) =>
    if src = 2 then !d.dirty && d.home == 2 && d.t2valid
    else if src = 3 then !d.dirty && d.home == 3 && d.t3valid && (s.res.drives[d.t3port]).usable && !d.noHome
    else (copySector t id b (sec % 65536) (frameVersion (frameOf sec) s) s).isSome

/-- The first source after `src` that has a clean copy (R265). -/
def repairSource (sec src : Nat) (s : State) : Option Nat := [2, 3, 4].find? (fun k => decide (src < k) && repairHas sec k s)

/-- The drive a T3 repair reads. -/
def repairDrive (sec : Nat) (s : State) : Fin 4 :=
  match sectorHome sec s with
  | some (_, _, _, d) => d.t3port
  | none => 0

/-- The repair of `sec` goes to source `k`: T3 is read by an NVMe command (R227, R265). -/
def repairFrom (sec k : Nat) (s : State) : State :=
  let s := { s with ram := { s.ram with repairs := s.ram.repairs.filter (fun r => r.sector != sec) ++ [⟨sec, k, false⟩] } }
  if k = 3 then nvmeIssue (repairDrive sec s) (.repair sec) s else s

/-- A repair of a poisoned sector starts if a clean copy exists (R264 step 4, R276). -/
def repairStart (sec : Nat) (s : State) : State :=
  if !poisoned sec s || s.ram.repairs.any (fun r => r.sector == sec) then s
  else match repairSource sec 0 s with
  | none => s
  | some k => repairFrom sec k s

/-- A sector found uncorrectable: poisoned, counted, logged, and its repair started (R264). -/
def uncorrectableSector (a : Nat) (s : State) : State := repairStart (sectorOf a) (poisonSector a s)

/-- A read of a sector decodes as `ecc` says (R263, R264). -/
def eccRead (a : Nat) (ecc : Ecc) (s : State) : State :=
  match ecc with
  | .clean => s
  | .corrected => correctedError a s
  | .uncorrectable => uncorrectableSector a s

/-- The source read of a repair has not ended: the host cannot be reached, or the drive has not answered. -/
def repairReading (r : Repair) (s : State) : Bool :=
  !r.failed && ((r.source == 2 && !t2Reach ((sectorHome r.sector s).any (fun h => h.2.2.2.t2cxl)) s) || (r.source == 3 && nvmeBusy (repairDrive r.sector s) (.repair r.sector) s))

/-- A repair's source read ends: the sector is written whole and clean, or the next source is tried (R265). -/
def repairEnd (sec : Nat) (ok : Bool) (s : State) : State :=
  match s.ram.repairs.find? (fun r => r.sector == sec) with
  | none => s
  | some r =>
    if repairReading r s then s
    else
      let got := if ok && !r.failed then repairBytes sec r.source s else none
      match got with
      | some bs =>
        let s := t1Put sec bs s
        let s := setSectorVersions [sec] (frameVersion (frameOf sec) s) s
        let s := clearPoison [sec] s
        let s := modStack (stackOf sec) (fun x => { x with repaired := satInc x.repaired }) s
        releaseStalls (.repair sec) .none (logErr .corrected 0x32 .data (cellOf sec) r.source sec s)
      | none =>
        let s := if r.source = 2 then
            (match sectorHome sec s with
             | some (_, _, _, d) => if hostRefuses (d.t2addr + sec % 65536) 32 s then logReadRefused 0 (d.t2addr + sec % 65536) s else s
             | none => s)
          else s
        match repairSource sec r.source s with
        | some k => repairFrom sec k s
        | none =>
          releaseStalls (.repair sec) (.failed 0x22)
            { s with ram := { s.ram with repairs := s.ram.repairs.filter (fun x => x.sector != sec) } }

/-! ### Translated accesses (R239, R240) -/

/-- How an access goes on. -/
inductive XEnd where
  /-- every byte translated: (address, length, is T1) pieces in order -/
  | ok (ps : List (Nat × Nat × Bool))
  | stall (why : Stall)
  | fault (status : Nat)
  /-- a speculative access whose fault is recorded and suppressed (R368) -/
  | suppressed
deriving DecidableEq, Repr

/-- Translate one address with every effect of the access: cached leaf, touch of the block, fault record, log entry. -/
def xlateOne (who : Accessor) (tag va : Nat) (acc : Access) (s : State) : XEnd × State :=
  let wr : Bool := decide (acc = .write ∨ acc = .add)
  match resolve tag va acc s with
  | .t1 pa blk =>
    let s := cacheLeaf tag va s
    match blk with
    | some (id, b) => (.ok [(pa, 0, true)], touchHere id b who.cls wr s)
    | none => (.ok [(pa, 0, true)], s)
  | .host a => (.ok [(a, 0, false)], cacheLeaf tag va s)
  | .absent level ea =>
    if who.spec then (.suppressed, s)
    else
      let (id, s) := pageFault who tag va level ea acc s
      (.stall (.page id), s)
  | .away id b =>
    match touchAway id b who.cls who.spec (cacheLeaf tag va s) with
    | (.wait, s) => (.stall (.block id b), s)
    | (.fail st, s) => (if who.spec then .suppressed else .fault st, s)
  | .malformed level ea =>
    if who.spec then (.suppressed, s) else (.fault 0x20, logErr .partner 0x44 .addressSpace tag level ea s)
  | .badTable id =>
    if who.spec then (.suppressed, s) else (.fault 0x20, logErr .contained 0x45 .table tag id va s)
  | .poison t a =>
    if who.spec then (.suppressed, s)
    else (.fault 0x22, logErr .contained 0x36 (if t.isSome then .table else .addressSpace) tag (t.getD 0) a s)
  | .refused => (if who.spec then .suppressed else .fault 0x20, s)

/-- Translate every piece of an access before any byte moves (R240). -/
def xlatePieces (who : Accessor) (tag : Nat) (acc : Access) : List (Nat × Nat) → State → XEnd × State
  | [], s => (.ok [], s)
  | (va, k) :: ps, s =>
    match xlateOne who tag va acc s with
    | (.ok r, s) =>
      match xlatePieces who tag acc ps s with
      | (.ok rs, s) => (.ok (r.map (fun x => (x.1, k, x.2.2)) ++ rs), s)
      | e => e
    | e => e

/-- Translate `[va, va+n)` (R240). -/
def translate (who : Accessor) (tag va n : Nat) (acc : Access) (s : State) : XEnd × State :=
  if 2 ^ 52 < va + n then (if who.spec then .suppressed else .fault 0x20, s)
  else xlatePieces { who with accessVa := va } tag acc (accessPieces va n) s

/-- The host pieces of a translation can be reached, or there are none. -/
def piecesReady (ps : List (Nat × Nat × Bool)) (s : State) : Bool := ps.all (fun p => p.2.2 || hostReach s)

/-- The first poisoned sector a translation touches. -/
def piecesPoison (ps : List (Nat × Nat × Bool)) (s : State) : Option Nat :=
  ps.findSome? (fun p => if p.2.2 then firstPoison p.1 p.2.1 s else none)

/-- A host page the host refuses to read. -/
def piecesRefused (ps : List (Nat × Nat × Bool)) (s : State) : Option Nat :=
  ps.findSome? (fun p => if !p.2.2 && hostRefuses p.1 p.2.1 s then some p.1 else none)

/-- The bytes of the pieces. -/
def piecesBytes (ps : List (Nat × Nat × Bool)) (s : State) : List Byte :=
  ps.flatMap (fun p => if p.2.2 then t1Read p.1 p.2.1 s else cellsRead s.host p.1 p.2.1)

/-- How a read ends. -/
inductive ReadEnd where
  | data (bs : List Byte)
  | stall (why : Stall)
  | fault (status : Nat)
  | suppressed
  /-- the host cannot be reached now: the access waits -/
  | wait
deriving DecidableEq, Repr

/-- A translated read of `n` bytes (R240, R266). -/
def xRead (who : Accessor) (tag va n : Nat) (acc : Access) (s : State) : ReadEnd × State :=
  match translate who tag va n acc s with
  | (.stall w, s) => (.stall w, s)
  | (.fault st, s) => (.fault st, s)
  | (.suppressed, s) => (.suppressed, s)
  | (.ok ps, s) =>
    if !piecesReady ps s then (.wait, s)
    else match piecesRefused ps s with
    | some a => if who.spec then (.suppressed, s) else (.fault 0x20, logReadRefused who.unit a s)
    | none =>
      match piecesPoison ps s with
      | none => (.data (piecesBytes ps s), s)
      | some sec =>
        let s := repairStart sec s
        if s.ram.repairs.any (fun r => r.sector == sec) then (.stall (.repair sec), s)
        else if who.spec then (.suppressed, s) else (.fault 0x22, s)

/-- Where a refused read of `[va, va+n)` first goes wrong: the start of its first 32-byte piece that faults when it is read
by itself, or `va` (R357). -/
def firstFaultVa (who : Accessor) (tag va n : Nat) (s : State) : Nat :=
  let starts := va :: (sectorsOf va n).filter (fun a => va < a)
  (starts.find? (fun a => match (xRead who tag a (min (va + n) (sectorOf a + 32) - a) .read s).1 with
    | .fault _ => true
    | _ => false)).getD va

/-- How a store ends. -/
inductive StoreEnd where
  | done
  | stall (why : Stall)
  | fault (status : Nat)
  | wait
deriving DecidableEq, Repr

/-- Write the pieces in order. -/
def storePieces : List (Nat × Nat × Bool) → List Byte → State → State
  | [], _, s => s
  | (a, k, t1) :: ps, bs, s =>
    let here := bs.take k
    storePieces ps (bs.drop k) (if t1 then t1Store a here s else hostWrite a here s)

/-- A translated store (R240, R267): a store that covers part of a poisoned sector is refused whole. -/
def xStore (who : Accessor) (tag va : Nat) (bs : List Byte) (s : State) : StoreEnd × State :=
  match translate who tag va bs.length .write s with
  | (.stall w, s) => (.stall w, s)
  | (.fault st, s) => (.fault st, s)
  | (.suppressed, s) => (.fault 0x20, s)
  | (.ok ps, s) =>
    if !piecesReady ps s then (.wait, s)
    else if ps.any (fun p => p.2.2 && (partialPoison p.1 p.2.1 s).isSome) then (.fault 0x22, s)
    else (.done, storePieces ps bs s)

/-! ### Streams (R245, R246) -/

/-- The engine has accessed `[va, va+n)` of `tag`: its streams advance, and end with the region's last page. -/
def streamAccess (tile : Fin 16) (purl : Bool) (tag va n : Nat) (s : State) : State :=
  let step (x : Stream) : Option Stream :=
    if x.tile = tile ∧ x.purl = purl ∧ x.tag = tag ∧ x.base ≤ va ∧ va < x.base + x.len then
      if (x.base + x.len - 1) / 2 ^ 21 ≤ (va + n - 1) / 2 ^ 21 then none
      else some { x with reached := max x.reached (va + n) }
    else some x
  { s with tx := { s.tx with streams := s.tx.streams.filterMap step } }

/-- The first page of the region at or after the page at `page`: a strided region holds the pages that some span touches (R245). -/
def Stream.pageFrom (x : Stream) (page : Nat) : Nat :=
  if x.stride = 0 ∨ page ≤ x.base then page
  else
    let off := page - x.base
    let next := (off / x.stride + 1) * x.stride
    if off % x.stride < x.span ∨ next < off + 2 ^ 21 then page else (x.base + next) / 2 ^ 21 * 2 ^ 21

/-- The `n` pages of the region from `page` on, ascending, as far as the region goes. -/
def Stream.pagesFrom (x : Stream) : (n : Nat) → Nat → List Nat
  | 0, _ => []
  | n + 1, page =>
    let p := x.pageFrom page
    if x.base + x.len ≤ p then [] else p :: x.pagesFrom n (p + 2 ^ 21)

/-- The next page a stream's look-ahead reaches, if any: of the LOOKAHEAD pages of the region that follow the highest one accessed, the
first that has not been walked (R246). -/
def Stream.next (x : Stream) : Option Nat :=
  let first := if x.reached ≤ x.base then x.base / 2 ^ 21 * 2 ^ 21 else ((x.reached - 1) / 2 ^ 21 + 1) * 2 ^ 21
  (x.pagesFrom x.lookahead first).find? (fun p => decide (x.walked ≤ p ∨ x.walked = x.base))

/-- The Hub walks one page ahead for stream `k` of an engine; a walk that ends without a leaf caches nothing (R246). -/
def streamPrewalk (tile : Fin 16) (purl : Bool) (k : Nat) (s : State) : State :=
  match (s.tx.streams.filter (fun x => x.tile == tile && x.purl == purl))[k]? with
  | none => s
  | some x =>
    match x.next with
    | none => s
    | some page =>
      let s := cacheLeaf x.tag page s
      { s with tx := { s.tx with streams := modFirst (fun y => y == x) (fun y => { y with walked := page + 2 ^ 21 }) s.tx.streams } }

/-- A 17th descriptor retires the engine's oldest one (R246). -/
def streamAdd (x : Stream) (s : State) : State :=
  let mine := s.tx.streams.filter (fun y => y.tile == x.tile && y.purl == x.purl)
  let keep := if mine.length < 16 then s.tx.streams else
    match mine with
    | y :: _ => s.tx.streams.erase y
    | [] => s.tx.streams
  { s with tx := { s.tx with streams := keep ++ [x] } }

end Sys2Proof.Machine
end

