-- ==== Sys2Proof/Machine/Capacity.lean ====
section
/-! DEFINITION. Resource ids and class policy (21_capacity_and_tally.md R443–R449): what a pool grants, refuses or lets wait. A
pool's occupancy is computed from the state by the unit that owns it. -/

namespace Sys2Proof.Machine

open Sys2Proof

/-! ### Resource ids (R443) -/

def resContexts : Nat := 0x01
def resBuffers : Nat := 0x02
def resHook : Nat := 0x03
def resPurl : Nat := 0x04
def resMatrix : Nat := 0x05
def resCounter : Nat := 0x06
def resFrames : Nat := 0x07
def resRetransmit : Nat := 0x0A
/-- fabric credits of VC1 -/
def resCredits : Nat := 0x11
def resMailbox : Nat := 0x18
def resSched : Nat := 0x19
def resHotSets : Nat := 0x1A
def resSwatch : Nat := 0x1B
def resReplicaHbm : Nat := 0x1C
def resReplicas : Nat := 0x1D
def resAbsets : Nat := 0x1E
def resInvals : Nat := 0x1F

/-- The units of a pool (R443). -/
def poolUnits (res : Nat) : Nat :=
  if res = resContexts then 512 else if res = resBuffers then 8192 else if res = resHook then 256
  else if res = resPurl then 1024 else if res = resMatrix then 64 else if res = resCounter then 255
  else if res = resMailbox then 1024 else 0

/-- The C0 reserve of a pool (R443). -/
def poolReserve (res : Nat) : Nat :=
  if res = resContexts then 64 else if res = resBuffers then 1024 else if res = resPurl then 128
  else if res = resMailbox then 128 else 0

/-- The C2 high watermark of a pool (R443). -/
def poolWater (res : Nat) : Nat :=
  if res = resBuffers then 6144 else if res = resPurl then 768 else if res = resMailbox then 768 else poolUnits res

/-- The limit of a claim's class (R444): the occupancy after the grant may not pass it. -/
def classLimit (res : Nat) (cls : Fin 4) (refusable : Bool) : Nat :=
  if cls = 0 then poolUnits res
  else if cls = 2 ∧ refusable then min (poolWater res) (poolUnits res - poolReserve res)
  else poolUnits res - poolReserve res

/-- The key of a pool's memory. -/
def poolKey (res scope : Nat) : Nat := res * 65536 + scope

/-- What a pool remembers. -/
def poolMem (res scope : Nat) (s : State) : PoolMem := (kvGet s.th.pools (poolKey res scope)).getD {}

/-- Replace it. -/
def setPoolMem (res scope : Nat) (m : PoolMem) (s : State) : State :=
  { s with th := { s.th with pools := kvSet s.th.pools (poolKey res scope) m } }

/-- How a claim ends (R445, R448). -/
inductive ClaimEnd where
  | granted | wait | capacity | race
deriving DecidableEq, Repr

/-- The turn of a waiting C3 claim has come: 63 grants went to other classes since its last (R449). -/
def turnOfC3 (res scope : Nat) (s : State) : Bool :=
  s.th.claims.any (fun c => c.res == res && c.scope == scope && c.cls == 3) && decide (63 ≤ (poolMem res scope s).sinceC3)

/-- A claim waits at the pool that a new claim of this class may not pass: one of its class or a higher one, or a C3 claim whose turn has
come (R449). -/
def claimWaits (res scope : Nat) (cls : Fin 4) (s : State) : Bool :=
  s.th.claims.any (fun c => c.res == res && c.scope == scope && decide (c.cls.val ≤ cls.val)) || turnOfC3 res scope s

/-- What bars a new claim at occupancy `occ`: a C0 claim may still take the reserve units that no C3 claim could use (R449). -/
def claimBarred (res scope occ : Nat) (cls : Fin 4) (s : State) : Bool :=
  s.th.claims.any (fun c => c.res == res && c.scope == scope && decide (c.cls.val ≤ cls.val))
    || turnOfC3 res scope s && !(decide (cls = 0) && decide (classLimit res 3 false ≤ occ))

/-- Note a grant: C3's turn counter (R449). -/
def noteGrant (res scope : Nat) (cls : Fin 4) (units : Nat) (s : State) : State :=
  let m := poolMem res scope s
  setPoolMem res scope { m with taken := m.taken + units, sinceC3 := if cls = 3 then 0 else m.sinceC3 + 1 } s

/-- Decide a new claim on a pool with occupancy `used` (R444, R445, R448). `same`: the claim falls into the same pool cycle as
the pool's last decision. -/
def decideClaim (res scope used : Nat) (cls : Fin 4) (units : Nat) (refusable same : Bool) (s : State) : ClaimEnd × State :=
  let refusable := refusable && decide (cls = 2)
  let m := poolMem res scope s
  let m := if same then m else { m with start := used, taken := 0 }
  let limit := classLimit res cls refusable
  let occ := max used (m.start + m.taken)
  let barred := claimBarred res scope occ cls s
  let s := setPoolMem res scope m s
  if refusable then
    if occ + units ≤ limit && !barred then (.granted, noteGrant res scope cls units s)
    else if m.start + units ≤ limit && !barred then (.race, s) else (.capacity, s)
  else if occ + units ≤ limit && !barred then (.granted, noteGrant res scope cls units s)
  else (.wait, s)

/-- Join a pool's wait list, once per context (R449). -/
def joinClaims (c : Claim) (s : State) : State :=
  if s.th.claims.any (fun x => x.thread == c.thread && x.res == c.res) then s
  else { s with th := { s.th with claims := s.th.claims ++ [c] } }

/-- The head claim of a class at a pool. -/
def headClaim (res scope cls : Nat) (s : State) : Option Claim :=
  s.th.claims.find? (fun c => c.res == res && c.scope == scope && c.cls.val == cls)

/-- The claim a pool grants next with occupancy `used` (R449): the head of the highest class whose list is not empty, or of the
C3 list when its 64th turn has come; C0 may still take reserve units that C3 could never use. -/
def nextGrant (res scope used : Nat) (s : State) : Option Claim :=
  let fits (c : Claim) := decide (used + c.units ≤ classLimit res c.cls false)
  let heads := [0, 1, 2, 3].filterMap (fun k => headClaim res scope k s)
  let m := poolMem res scope s
  match headClaim res scope 3 s with
  | some c3 =>
    if 63 ≤ m.sinceC3 then
      if fits c3 then some c3
      else match headClaim res scope 0 s with
        | some c0 => if classLimit res 3 false ≤ used ∧ fits c0 then some c0 else none
        | none => none
    else match heads with
      | c :: _ => if fits c then some c else none
      | [] => none
  | none => match heads with
    | c :: _ => if fits c then some c else none
    | [] => none

end Sys2Proof.Machine
end

