-- ==== Sys2Proof/Machine/Mailbox.lean ====
section
/-! DEFINITION. The mailbox engine (07_septeth_mailbox): completion rings and interrupts (R149–R151, R158), commands from
fetch to final completion (R152–R157), doorbells (R144, R139), queue-pair control (R140–R143, R163, R164). -/

namespace Sys2Proof.Machine

open Sys2Proof

/-! ### Status codes (R161) -/

def stOK : Nat := 0x00
def stPartial : Nat := 0x01
def stDeferred : Nat := 0x08
def stCapacity : Nat := 0x10
def stRace : Nat := 0x11
def stPolicy : Nat := 0x12
def stFeature : Nat := 0x13
def stTranslation : Nat := 0x20
def stSegment : Nat := 0x21
def stPoison : Nat := 0x22
def stIndex : Nat := 0x23
def stMalformed : Nat := 0x30
def stState : Nat := 0x31
def stAbandoned : Nat := 0x38
def stQuarantined : Nat := 0x3A
def stDegraded : Nat := 0x40
def stInternal : Nat := 0x7F

/-! ### Fields of a command entry (R146) -/

/-- `n` bytes at byte offset `o` of the entry. -/
def efld (e : Entry) (o n : Nat) : Nat := bytesAt e.toNat o n

def Entry.opcode (e : Entry) : Nat := efld e 0 1
def Entry.fence (e : Entry) : Bool := e.getLsbD 8
def Entry.marked (e : Entry) : Bool := e.getLsbD 9
def Entry.noIrq (e : Entry) : Bool := e.getLsbD 10
def Entry.cid (e : Entry) : Nat := efld e 2 2
def Entry.tag (e : Entry) : Nat := bits e.toNat 32 12
def Entry.dptr (e : Entry) : Nat := efld e 40 8
def Entry.beat (e : Entry) : W64 := BitVec.ofNat 64 (efld e 48 8)
def Entry.phase (e : Entry) : BitVec 16 := BitVec.ofNat 16 (efld e 56 2)
def Entry.lockReq (e : Entry) : Bool := e.getLsbD (58 * 8)
def Entry.periodic (e : Entry) : Bool := e.getLsbD (58 * 8 + 1)
def Entry.period (e : Entry) : BitVec 16 := BitVec.ofNat 16 (efld e 60 2)

/-- The entry with its opcode byte set: a command's row fixes the opcode. -/
def Entry.withOpcode (e : Entry) (op : Nat) : Entry :=
  BitVec.ofNat 512 (e.toNat / 256 * 256 + op % 256)

/-! ### Queue pairs -/

/-- Change queue pair `n`. -/
def modQp (n : Fin 64) (f : QueuePair → QueuePair) (s : State) : State :=
  { s with mb := { s.mb with qps := vmod s.mb.qps n f } }

/-- Entries of the completion ring the host has not released (R151). -/
def QueuePair.unreleased (q : QueuePair) : Nat := (q.cqTail + 2 ^ q.cqLog - q.cqHead) % 2 ^ q.cqLog

/-- The completion ring has a free entry: one entry stays free at all times (R151). -/
def QueuePair.hasRoom (q : QueuePair) : Bool := decide (q.unreleased + 1 < 2 ^ q.cqLog)

/-- The 32 bytes of a completion entry (R149). -/
def Completion.bytes (c : Completion) (phase : Bool) : List Byte :=
  toBytes 8 c.r0.toNat ++ toBytes 8 c.r1.toNat ++ toBytes 2 (c.sqHead % 4096) ++ toBytes 2 c.cid
    ++ [BitVec.ofNat 8 c.status, BitVec.ofNat 8 (b2n phase + 2 * b2n c.interim + 4 * b2n c.late)]
    ++ toBytes 2 c.sub ++ toBytes 4 (satTo 32 c.beats) ++ toBytes 4 0

/-- The moderation of R158 after one more posted entry: the queue pair, and whether its vector is raised. -/
def QueuePair.moderate (q : QueuePair) (c : Completion) : QueuePair × Bool :=
  let q := { q with sinceRaise := q.sinceRaise + 1 }
  if !q.irqEn || c.noIrq then (q, false)
  else if (!(c.status == stOK || c.status == stPartial || c.status == stDeferred))
      || decide (max 1 q.coalCount ≤ q.sinceRaise) then
    ({ q with sinceRaise := 0, timer := false }, true)
  else ({ q with timer := q.timer || decide (q.coalTime ≠ 0) }, false)

/-- Raise the vector of queue pair `n` (R135). -/
def raiseQp (n : Fin 64) (s : State) : State := raise (Fin.ofNat 128 n.val) s

/-- The queue pair after its completion ring's producer has moved by one entry (R150). -/
def QueuePair.advance (q : QueuePair) : QueuePair :=
  let next := (q.cqTail + 1) % 2 ^ q.cqLog
  { q with cqTail := next, phase := if next = 0 then !q.phase else q.phase }

/-- Queue pair `n` becomes `r.1`, and its vector is raised if `r.2` says so. -/
def qpBecomes (n : Fin 64) (r : QueuePair × Bool) (s : State) : State :=
  let s := modQp n (fun _ => r.1) s
  if r.2 then raiseQp n s else s

/-- Write one completion entry into its ring and moderate the interrupt (R149, R150, R158). -/
def postNow (n : Fin 64) (c : Completion) (s : State) : State :=
  let q := s.mb.qps[n]
  qpBecomes n (q.advance.moderate c) (hostWrite (q.cqBase.toNat + 32 * q.cqTail) (c.bytes q.phase) s)

/-- Post a completion, or let it wait for a free entry in order (R151). A quarantined or disabled queue pair posts none
(R139). -/
def post (n : Fin 64) (c : Completion) (s : State) : State :=
  let q := s.mb.qps[n]
  if q.state ≠ .enabled then s
  else if q.waiting.isEmpty && q.hasRoom then postNow n c s
  else modQp n (fun q => { q with waiting := q.waiting ++ [c] }) s

/-- Post waiting completions while the ring has room. -/
def drainWaiting (n : Fin 64) : (fuel : Nat) → State → State
  | 0, s => s
  | fuel + 1, s =>
    let q := s.mb.qps[n]
    match q.waiting with
    | [] => s
    | c :: cs => if q.hasRoom then drainWaiting n fuel (postNow n c (modQp n (fun q => { q with waiting := cs }) s)) else s

/-- Find the command `cid` of queue pair `n`. -/
def findCmd (n : Fin 64) (cid : Nat) (s : State) : Option Cmd :=
  (s.mb.qps[n]).cmds.find? (fun c => Entry.cid c.entry == cid)

/-- Change the command `cid` of queue pair `n`. -/
def modCmd (n : Fin 64) (cid : Nat) (f : Cmd → Cmd) (s : State) : State :=
  modQp n (fun q => { q with cmds := modFirst (fun c => Entry.cid c.entry == cid) f q.cmds }) s

/-- A schedule entry that the command `cid` of queue pair `n` created and waits for. -/
def waitsForMark (n : Fin 64) (cid : Nat) (s : State) : Bool :=
  s.gg.sched.any (fun e => e.2.owner == some (n.val, cid))

/-- Cancel the schedule entries a command waits for. -/
def cancelMarks (n : Fin 64) (cid : Nat) (s : State) : State :=
  { s with gg := { s.gg with sched := s.gg.sched.filter (fun e => !(e.2.owner == some (n.val, cid))) } }

/-- The mark of an entry and the present instant, in units of 2^-16 beat (R66, R149). -/
def Entry.point (e : Entry) : Nat := (Entry.beat e).toNat * 65536 + (Entry.phase e).toNat
def nowPoint (s : State) : Nat := s.gg.beat.toNat * 65536 + s.gg.phase.toNat

/-- The due point of a command: its mark's beat when MARKED is 1, else its fetch (R149). -/
def Cmd.due (c : Cmd) : Nat := if Entry.marked c.entry then Entry.point c.entry else c.fetched

/-- Whole beats from `due` to now. -/
def beatsSince (due : Nat) (s : State) : Nat := (nowPoint s - due) / 65536

/-- The final completion of a command without the release of its queue pair: the command leaves its slot (R156), and a
waiting interim entry of its CID is dropped (07, Corners). -/
def finishCmd (n : Fin 64) (cid status sub : Nat) (r0 r1 : W64) (late : Bool) (s : State) : State :=
  match findCmd n cid s with
  | none => s
  | some c =>
    let s := cancelMarks n cid s
    let s := modQp n (fun q => { q with
      cmds := q.cmds.filter (fun c => !(Entry.cid c.entry == cid)),
      waiting := q.waiting.filter (fun w => !(w.interim && w.cid == cid)) }) s
    post n ⟨r0, r1, c.sqHead, cid, status, false, late || c.late, sub, beatsSince c.due s, Entry.noIrq c.entry⟩ s

/-- A command that has started: begun, and not waiting for its own mark (R139, R163). -/
def started (n : Fin 64) (s : State) (c : Cmd) : Bool := c.begun && (c.effective || !waitsForMark n (Entry.cid c.entry) s)

/-- Complete every fetched command that has not started. -/
def finishUnstarted (n : Fin 64) (status sub : Nat) (s : State) : State :=
  let cs := (s.mb.qps[n]).cmds.filter (fun c => !started n s c)
  cs.foldl (fun s c => finishCmd n (Entry.cid c.entry) status sub 0 0 false s) s

/-- Steps 3 to 5 of R163 once no begun command and no waiting completion is left. -/
def releaseIfStopped (n : Fin 64) (s : State) : State :=
  let q := s.mb.qps[n]
  match q.stop with
  | none => s
  | some who =>
    if q.cmds.any (started n s) || !q.waiting.isEmpty then s
    else
      let k := q.cmds.length
      let s := finishUnstarted n stAbandoned 0 s
      match who with
      | none => modQp n (fun q => { q with state := .disabled, stop := none, cmds := [], waiting := [], timer := false }) s
      | some cid => finishCmd 0 cid stOK 0 (BitVec.ofNat 64 k) 0 false (modQp n (fun _ => {}) s)

/-- A command's final completion (R157, R161), and the release of a queue pair that waited for it (R163). -/
def complete (n : Fin 64) (cid status sub : Nat) (r0 r1 : W64) (s : State) : State :=
  releaseIfStopped n (finishCmd n cid status sub r0 r1 false s)

/-- The completion of a scheduled command, LATE where its event followed its mark (R149). -/
def completeAt (n : Fin 64) (cid status sub : Nat) (r0 r1 : W64) (late : Bool) (s : State) : State :=
  releaseIfStopped n (finishCmd n cid status sub r0 r1 late s)

/-- Stop a queue pair under R163. -/
def stopQp (n : Fin 64) (who : Option Nat) (s : State) : State :=
  releaseIfStopped n (modQp n (fun q => { q with stop := some who }) s)

/-- Quarantine queue pair `n` (R139). -/
def quarantine (n : Fin 64) (cause : Nat) (s : State) : State :=
  if (s.mb.qps[n]).state = .enabled then
    let s := finishUnstarted n stQuarantined cause s
    modQp n (fun q => { q with state := .quarantined, cause := cause, waiting := [], timer := false }) s
  else s

/-- The checks of R140 on a pair of ring bases: `none` when they pass, else the cause. -/
def ringCause (sq cq : W64) (s : State) : Option Nat :=
  if sq.toNat % 4096 ≠ 0 ∨ cq.toNat % 4096 ≠ 0 then some 0x0E
  else if hostRefuses sq.toNat 64 s || hostRefuses cq.toNat 32 s then some 0x0F
  else none

/-! ### MB_QP0_CTRL (R142, R143, R163, R164) -/

/-- IRQ_EN, COAL_COUNT, COAL_TIME and DEFER_AFTER of MB_QP0_CTRL, taken from the next completion on (R143). -/
def ctrlModeration (v : W64) (q : QueuePair) : QueuePair :=
  { q with irqEn := v.getLsbD 12, coalCount := bits v.toNat 16 8, coalTime := bits v.toNat 24 8,
           deferAfter := bits v.toNat 32 8 }

/-- Enable queue pair 0 with the registers in force (R140, R143). -/
def enableQp0 (s : State) : State :=
  let v := s.mb.ctrl
  match ringCause s.mb.sqBaseReg s.mb.cqBaseReg s with
  | some c =>
    let base := if hostRefuses s.mb.sqBaseReg.toNat 64 s then s.mb.sqBaseReg else s.mb.cqBaseReg
    let s := { s with mb := { s.mb with ctrl := s.mb.ctrl &&& ~~~ (1 : W64) } }
    violation c 0 0 base.toNat (modQp 0 (fun q => { q with state := .disabled, cause := c }) s)
  | none =>
    modQp 0 (fun _ => ctrlModeration v { state := .enabled, sqBase := s.mb.sqBaseReg, cqBase := s.mb.cqBaseReg,
                                                             sqLog := bits v.toNat 4 4, cqLog := bits v.toNat 8 4, cls := Fin.ofNat 4 (bits v.toNat 2 2) }) s

/-- A write of EN 0 to queue pair 0 (R163). -/
def disableQp0 (s : State) : State :=
  if (s.mb.qps[(0 : Fin 64)]).state = .enabled then stopQp 0 none s else s

/-- An accepted REINIT (R164), steps 1 and 2. -/
def reinitQp0 (s : State) : State :=
  let s := { s with mb := { s.mb with ctrl := s.mb.ctrl &&& ~~~ (3 : W64) } }
  modQp 0 (fun _ => {}) s

/-- A k of 4–12 (R142). -/
def logOk (k : Nat) : Bool := decide (4 ≤ k ∧ k ≤ 12)

/-- The value MB_QP0_CTRL stores for a write of `v`: reserved bits 0, an unassigned ring size keeps its field (R7, R142). -/
def ctrlStore (old v : W64) : W64 :=
  let keep := if logOk (bits v.toNat 4 4) then v else (v &&& ~~~ (0xF0 : W64)) ||| (old &&& 0xF0)
  let keep := if logOk (bits v.toNat 8 4) then keep else (keep &&& ~~~ (0xF00 : W64)) ||| (old &&& 0xF00)
  keep &&& 0x000000FFFFFF1FFD

/-- The mailbox engine acts on EN and REINIT now; before READY a change of EN waits for stage S5 (R533). -/
def mbLive (s : State) : Bool := running s

/-- A write of MB_QP0_CTRL (R142, R143, R163, R164). -/
def writeCtrl (v : W64) (s : State) : State :=
  let st := (s.mb.qps[(0 : Fin 64)]).state
  let old := s.mb.ctrl
  let new := ctrlStore old v
  let s := if logOk (bits v.toNat 4 4) && logOk (bits v.toNat 8 4) then s
    else logErr .partner 0x10 .none 0 0x10008 v.toNat s
  let s := { s with mb := { s.mb with ctrl := new } }
  let s := if st = .enabled then modQp 0 (ctrlModeration new) s else s
  let reinit := v.getLsbD 1
  if reinit && decide (st = .enabled) then
    let s := logErr .partner 0x10 .none 0 0x10008 v.toNat s
    if mbLive s && !new.getLsbD 0 then disableQp0 s else s
  else if reinit then
    let s := reinitQp0 s
    if new.getLsbD 0 then
      let s := { s with mb := { s.mb with ctrl := s.mb.ctrl ||| 1 } }
      if mbLive s then enableQp0 s else s
    else s
  else if !mbLive s then s
  else if new.getLsbD 0 && !old.getLsbD 0 && decide (st = .disabled) then enableQp0 s
  else if !new.getLsbD 0 && old.getLsbD 0 then disableQp0 s
  else s

/-! ### Doorbells (R144, R139, R533) -/

/-- A doorbell value outside its ring quarantines its queue pair (R139). -/
def badDoorbell (n : Fin 64) (v : W32) (s : State) : State :=
  quarantine n 0x0C (violation 0x0C n.val v.toNat 0 s)

/-- MB_SQ_TAIL[n], acted on (R144). -/
def sqTailNow (n : Fin 64) (v : W32) (s : State) : State :=
  let q := s.mb.qps[n]
  if q.state = .quarantined then s
  else if q.state = .disabled ∨ q.stop ≠ none then violation 0x0C n.val v.toNat 0 s
  else if 2 ^ q.sqLog ≤ v.toNat then badDoorbell n v s
  else modQp n (fun q => { q with sqTail := v.toNat }) s

/-- MB_CQ_HEAD[n], acted on (R144, R139). -/
def cqHeadNow (n : Fin 64) (v : W32) (s : State) : State :=
  let q := s.mb.qps[n]
  if q.state = .quarantined then s
  else if q.state = .disabled ∨ q.stop ≠ none ∧ q.waiting = [] then violation 0x0C n.val v.toNat 0 s
  else if 2 ^ q.cqLog ≤ v.toNat ∨ q.unreleased < (v.toNat + 2 ^ q.cqLog - q.cqHead) % 2 ^ q.cqLog then badDoorbell n v s
  else
    let s := modQp n (fun q => { q with cqHead := v.toNat }) s
    releaseIfStopped n (drainWaiting n (s.mb.qps[n]).waiting.length s)

/-- The BAR0 offset of a doorbell (R144). -/
def doorbellOff (isCq : Bool) (n : Nat) : Nat := 0x20000 + 8 * n + (if isCq then 4 else 0)

/-- A doorbell write: held before READY and in an activation pause (R533), else acted on. -/
def doorbell (isCq : Bool) (n : Fin 64) (v : W32) (s : State) : State :=
  if running s then (if isCq then cqHeadNow n v s else sqTailNow n v s)
  else
    { s with mb := { s.mb with
      doorbells := s.mb.doorbells.filter (fun d => !(d.1 == isCq && d.2.1 == n.val)) ++ [(isCq, n.val, v)],
      heldValues := kvSet s.mb.heldValues (doorbellOff isCq n.val) v } }

/-- The value a doorbell reads (R144, R533). -/
def doorbellRead (isCq : Bool) (n : Fin 64) (s : State) : Nat :=
  match kvGet s.mb.heldValues (doorbellOff isCq n.val) with
  | some v => v.toNat
  | none => if isCq then (s.mb.qps[n]).cqHead else (s.mb.qps[n]).sqTail

/-- Act on every held doorbell once, in the order written (R533). -/
def releaseDoorbells (s : State) : State :=
  let ds := s.mb.doorbells
  let s := { s with mb := { s.mb with doorbells := [], heldValues := [] } }
  ds.foldl (fun s d => if d.1 then cqHeadNow (Fin.ofNat 64 d.2.1) d.2.2 s else sqTailNow (Fin.ofNat 64 d.2.1) d.2.2 s) s

/-! ### Fetching (R145, R151, R152, R156) -/

/-- Opcodes that complete in the fatal state (R467): IDENTIFY, RESET_REPORT, LOG_READ, LOG_MIRROR_SET, TALLY_READ,
TALLY_AUDIT, WARM_RESET. -/
def fatalAllows (op : Nat) : Bool := [0x02, 0x07, 0x06, 0x60, 0x61, 0x62, 0x63].contains op

/-- A command of a queue pair is taken into a mailbox slot (R156). -/
def admitCmd (n : Fin 64) (e : Entry) (s : State) : State :=
  modQp n (fun q => { q with cmds := q.cmds ++ [⟨e, nowPoint s, q.sqHead, false, false, false, none, 0, 0, 0, .none, false⟩] }) s

/-- A completion for a command that never held a slot. -/
def completeUnslotted (n : Fin 64) (e : Entry) (status sub : Nat) (s : State) : State :=
  let due := if Entry.marked e then Entry.point e else nowPoint s
  post n ⟨0, 0, (s.mb.qps[n]).sqHead, Entry.cid e, status, false, false, sub, beatsSince due s, Entry.noIrq e⟩ s

/-- An earlier command of the queue pair with this CID has not received its final completion (R152). -/
def cidTaken (n : Fin 64) (e : Entry) (s : State) : Bool := (findCmd n (Entry.cid e) s).isSome

end Sys2Proof.Machine
end

