-- ==== Sys2Proof/Machine/Gauge.lean ====
section
/-! DEFINITION. The gauge receiver (04_gauge.md): good beats and lock (R66–R72, R78–R81, R86–R88), and the schedule's entries
(R74–R77, R82–R84). What each kind of event does stands in Schedule.lean. -/

namespace Sys2Proof.Machine

open Sys2Proof

/-! ### Frames and periods -/

/-- Even parity of the low `n` bits. -/
def parity : (n : Nat) → Nat → Bool
  | 0, _ => false
  | n + 1, x => xor (x % 2 == 1) (parity n (x / 2))

/-- The BEAT field of a GWORD frame (R67). -/
def frameBeat (f : BitVec 80) : W64 := BitVec.ofNat 64 (bits f.toNat 8 64)

/-- A frame is accepted: SYNC 0xA7 and all eight parity bits (R67, R68). -/
def frameOk (f : BitVec 80) : Bool :=
  bits f.toNat 0 8 == 0xA7
    && (List.range 8).all (fun i => f.getLsbD (72 + i) == parity 8 (bits f.toNat (8 + 8 * i) 8))

/-- Mean of the last periods; the configured period where the run has none (R78). -/
def meanPeriod (rate : Nat) (ps : List Nat) : Nat :=
  if ps.isEmpty then 10 ^ 12 / rate else ps.sum / ps.length

/-- A period within ±0.1 % of the configured one (R78). -/
def periodOk (rate since : Nat) : Bool :=
  decide ((since * rate - 10 ^ 12) * 1000 ≤ 10 ^ 12 ∧ (10 ^ 12 - since * rate) * 1000 ≤ 10 ^ 12)

/-- The edge falls within ±25 ns of the predicted edge (R78, R88). -/
def edgeOk (rate : Nat) (src : GaugeSource) (since : Nat) : Bool :=
  let est := meanPeriod rate src.periods
  decide (since - est ≤ 25000 ∧ est - since ≤ 25000)

/-- A good beat extends the run or becomes beat 1 of a new one (R78). -/
def GaugeSource.good (rate : Nat) (src : GaugeSource) (num : W64) (since : Nat) : GaugeSource :=
  if src.run ≠ 0 ∧ num = src.num + 1 ∧ periodOk rate since ∧ edgeOk rate src since then
    { src with run := min 16 (src.run + 1), num := num, periods := (since :: src.periods).take 16 }
  else { src with run := 1, num := num, periods := [] }

/-- A beat that is not good keeps no reference (R78). -/
def GaugeSource.bad (src : GaugeSource) : GaugeSource := { src with run := 0, periods := [], agrees := false }

/-! ### The receiver -/

/-- Source `i` of the receiver: 0 connector, 1 in-band. -/
def Gauge.src (g : Gauge) (i : Nat) : GaugeSource := if i = 0 then g.connector else g.inband

/-- Replace source `i`. -/
def Gauge.setSrc (g : Gauge) (i : Nat) (x : GaugeSource) : Gauge :=
  if i = 0 then { g with connector := x } else { g with inband := x }

/-- GAUGE_CONFIG lets source `i` be used (R78, R79). -/
def sourceUsed (c : GaugeConfig) (i : Nat) : Bool := c.source == 2 || c.source == i

/-- ALT_GOOD: the other source meets the switch conditions of R80. -/
def altGood (g : Gauge) : Bool :=
  let o := 1 - g.selected
  sourceUsed g.cfg o && decide (16 ≤ (g.src o).run) && (g.src o).agrees

/-- A new receiver state raises vector 72 (R135). -/
def setGState (st : GState) (s : State) : State :=
  if s.gg.state = st then s else raise 72 { s with gg := { s.gg with state := st } }

/-- Advance the local count by one beat (R81). -/
def localTick (s : State) : State := { s with gg := { s.gg with beat := s.gg.beat + 1, phase := 0 } }

/-- The selected source is lost or misbehaved at the beat due now: switch to the other source (R80), or enter HOLDOVER, whose
first beat this is (R81). -/
def loseSource (s : State) : State :=
  let i := s.gg.selected
  let est := meanPeriod s.gg.cfg.rate (s.gg.src i).periods
  let alt := altGood s.gg
  let s := { s with gg := s.gg.setSrc i (s.gg.src i).bad }
  let s := localTick s
  if alt then
    logErr .corrected 0x51 .none (1 - i) 0 s.gg.beat.toNat { s with gg := { s.gg with selected := 1 - i } }
  else setGState .holdover { s with gg := { s.gg with estimate := est, holdBeats := 1, lost := true, resume := none } }

/-- A misbehaving beat of the selected source while LOCKED (R88): logged with the beat number expected, never adopted. -/
def misbehave (kind : Nat) (s : State) : State :=
  let exp := (s.gg.src s.gg.selected).num + 1
  loseSource (logErr .partner 0x50 .none s.gg.selected kind exp.toNat s)

/-- A good beat of a lower number while the gauge is lost (R87): it is rejected. -/
def lowerNumber (num : W64) (s : State) : Bool :=
  gaugeLost s && !s.gg.rebase && decide (num.toNat + 1 < s.gg.beat.toNat)

/-- Reject a lower beat number; every 1,024th rejection from the first on is logged (R87). -/
def rejectLower (i : Nat) (num : W64) (s : State) : State :=
  let k := s.gg.rejected
  let s := { s with gg := { s.gg with rejected := k + 1 } }
  if k % 1024 = 0 then logErr .partner 0x53 .none i 0 num.toNat s else s

/-- One beat edge of source `i` with its number: `ok` says the frame or message was accepted, `since` is the time since the
source's last good edge in ps, `off` the edge's distance from the local mark in ps. -/
def gaugeEdge (i : Nat) (ok : Bool) (num : W64) (since : Nat) (off : Int) (s : State) : State :=
  if !(sourceUsed s.gg.cfg i && operational s) then s
  else
    let rate := s.gg.cfg.rate
    let src := s.gg.src i
    let near : Bool := decide (-100000 ≤ off ∧ off ≤ 100000)
    if s.gg.state = .locked ∧ i = s.gg.selected then
      if !edgeOk rate src since then misbehave 1 s
      else if !ok then misbehave 3 s
      else if num ≠ src.num + 1 then misbehave 4 s
      else
        let src := { src with num := num, periods := (since :: src.periods).take 16, run := 16, agrees := true }
        { s with gg := { s.gg.setSrc i src with beat := num, phase := 0 } }
    else if !ok then { s with gg := s.gg.setSrc i src.bad }
    else if decide (s.gg.state ≠ .locked) && lowerNumber num s then
      rejectLower i num { s with gg := s.gg.setSrc i src.bad }
    else
      let agrees := near && decide (num.toNat ≤ s.gg.beat.toNat + 1 ∧ s.gg.beat.toNat ≤ num.toNat + 1)
      let s := { s with gg := s.gg.setSrc i { src.good rate num since with agrees := agrees } }
      match s.gg.state with
      | .unlocked => setGState .locking { s with gg := { s.gg with lost := false } }
      | .holdover | .freeRun => setGState .locking { s with gg := { s.gg with lost := true } }
      | _ => s

/-- A beat of the local oscillator while not LOCKED (R10, R81). -/
def localBeat (s : State) : State :=
  if s.gg.state = .locked then s
  else
    let lost := gaugeLost s
    let s := localTick s
    if lost then { s with gg := { s.gg with holdBeats := satInc s.gg.holdBeats } } else s

/-- The source the receiver would lock on: 16 good beats in a row, the primary first (R78). -/
def lockSource (g : Gauge) : Option Nat :=
  let first := if g.cfg.source = 2 then g.cfg.primary else g.cfg.source
  if decide (16 ≤ (g.src first).run) then some first
  else if g.cfg.source = 2 ∧ 16 ≤ (g.src (1 - first)).run then some (1 - first)
  else none

/-! ### The schedule (R74–R77) -/

/-- The 16 bytes of a schedule entry (R74). -/
def SchedEntry.bytes (e : SchedEntry) : List Byte :=
  toBytes 8 e.beat.toNat ++ toBytes 2 e.phase.toNat ++
    [BitVec.ofNat 8 e.kind, BitVec.ofNat 8 (b2n e.lockReq + 2 * b2n e.periodic)] ++ toBytes 2 e.period.toNat
    ++ toBytes 2 e.tag.toNat

/-- PERIOD agrees with PERIODIC (R74, R76). -/
def periodAgrees (e : SchedEntry) : Bool := e.periodic == decide (e.period ≠ 0)

/-- The checks of R76 on a list of entries to be added together: `none`, or the status and SUBCODE. -/
def schedRefusal (es : List SchedEntry) (s : State) : Option (Nat × Nat) :=
  if es.any (fun e => !periodAgrees e) then some (stMalformed, 0x3C)
  else if !s.gg.everLocked || es.any (fun e => decide (e.beat.toNat < s.gg.beat.toNat + 2)) then some (stState, 0)
  else if 256 < s.gg.sched.length + es.length then some (stCapacity, resSched)
  else none

/-- Put an entry at the lowest free index (R74). -/
def schedPut (s : State) (e : SchedEntry) : State :=
  match kvFree s.gg.sched 0 256 with
  | some i => { s with gg := { s.gg with sched := kvSet s.gg.sched i e } }
  | none => s

/-- The entry a marked command asks for (R148). -/
def entryOf (n : Fin 64) (e : Entry) (kind : Nat) (tag : Nat) : SchedEntry :=
  ⟨Entry.beat e, Entry.phase e, kind, Entry.lockReq e, Entry.periodic e, Entry.period e, BitVec.ofNat 16 tag,
    some (n.val, Entry.cid e), false, e⟩

/-- An entry runs only while LOCKED: LOCK_REQ, and always for firmware activation (R75). -/
def SchedEntry.needsLock (e : SchedEntry) : Bool := e.lockReq || e.kind == 0x0B

/-- The order of events: by mark, at one mark by kind code, then by index (R75). -/
def schedBefore (i : Nat) (a : SchedEntry) (j : Nat) (b : SchedEntry) : Bool :=
  let ka := (a.beat.toNat * 2 ^ 16 + a.phase.toNat) * 2 ^ 16 + a.kind * 256 + i
  let kb := (b.beat.toNat * 2 ^ 16 + b.phase.toNat) * 2 ^ 16 + b.kind * 256 + j
  decide (ka < kb)

/-- Insert into a list kept in the order of R75. -/
def schedInsert (x : Nat × SchedEntry) : List (Nat × SchedEntry) → List (Nat × SchedEntry)
  | [] => [x]
  | y :: ys => if schedBefore x.1 x.2 y.1 y.2 then x :: y :: ys else y :: schedInsert x ys

/-- The entries in the order of R75. -/
def schedSorted (l : List (Nat × SchedEntry)) : List (Nat × SchedEntry) := l.foldl (fun acc x => schedInsert x acc) []

/-- A lock-required step confirm of the step with this TAG is deferred (R84). -/
def confirmDeferred (tag : BitVec 16) (s : State) : Bool :=
  s.gg.sched.any (fun e => e.2.kind == 1 && e.2.deferred && e.2.tag == tag)

/-- The entry's mark lies behind the present instant. -/
def markLate (e : SchedEntry) (s : State) : Bool :=
  decide (e.beat.toNat * 2 ^ 16 + e.phase.toNat < s.gg.beat.toNat * 2 ^ 16 + s.gg.phase.toNat)

/-- Defer the current occurrence of entry `i`, with its log entry (R82, R84). -/
def deferEntry (i : Nat) (e : SchedEntry) (s : State) : State :=
  logErr .deferred 0x52 .none i e.kind e.tag.toNat
    { s with gg := { s.gg with sched := kvSet s.gg.sched i { e with deferred := true } } }

/-- The next occurrence of a periodic entry after `beat`: BEAT advances by PERIOD until it lies after it (R82, R86). -/
def advancePast (e : SchedEntry) (beat : Nat) : SchedEntry :=
  let p := max 1 e.period.toNat
  let k := if e.beat.toNat ≤ beat then (beat - e.beat.toNat) / p + 1 else 1
  { e with beat := BitVec.ofNat 64 (e.beat.toNat + k * p), deferred := false }

/-- The entry after its occurrence at its own mark has run: gone, or one PERIOD on (R76). -/
def consume (i : Nat) (e : SchedEntry) (s : State) : State :=
  let sched := if e.periodic then kvSet s.gg.sched i { e with beat := e.beat + e.period.setWidth 64, deferred := false }
    else kvErase s.gg.sched i
  { s with gg := { s.gg with sched := sched } }

/-- The entry after a late run: gone, or advanced past the present beat (R82, R86). -/
def consumeLate (i : Nat) (e : SchedEntry) (s : State) : State :=
  let sched := if e.periodic then kvSet s.gg.sched i (advancePast e s.gg.beat.toNat) else kvErase s.gg.sched i
  { s with gg := { s.gg with sched := sched } }

/-- The receiver's phase moves on to the mark of an event of the present beat. -/
def reachMark (e : SchedEntry) (s : State) : State :=
  if e.beat = s.gg.beat ∧ s.gg.phase.toNat < e.phase.toNat then { s with gg := { s.gg with phase := e.phase } } else s

/-- Deferred events outrank entries at or after the resume mark (R83). -/
def resumeFirst (beat : W64) (s : State) : Bool :=
  match s.gg.resume with
  | some r => decide (r.toNat ≤ beat.toNat) && s.gg.sched.any (fun x => x.2.deferred)
  | none => false

/-- What happens at the mark of entry `i` of kind `kind`: nothing, a deferral, or its event. -/
inductive MarkResult where
  | nothing
  | deferred (s : State)
  | fire (e : SchedEntry) (late : Bool) (s : State)

/-- The mark of entry `i` is reached (R75, R82, R84): earlier entries that are due come first. -/
def atMark (kind i : Nat) (s : State) : MarkResult :=
  match kvGet s.gg.sched i with
  | none => .nothing
  | some e =>
    if e.kind ≠ kind ∨ e.deferred ∨ s.gg.beat.toNat < e.beat.toNat ∨ !operational s
        ∨ s.gg.sched.any (fun x => !x.2.deferred && schedBefore x.1 x.2 i e)
        ∨ resumeFirst e.beat s then .nothing
    else
      let s := reachMark e s
      if gaugeLost s && e.needsLock then .deferred (deferEntry i e s)
      else if (e.kind == 2 || e.kind == 3) && confirmDeferred e.tag s then .deferred (deferEntry i e s)
      else .fire e (markLate e s) (consume i e s)

/-- The command that owns a removed schedule entry completes with ABANDONED (R77, R87, R168). A STEP_CLOSE that has taken effect
goes on: its flip no longer waits for a mark. -/
def abandonOwner (s : State) (e : SchedEntry) : State :=
  match e.owner with
  | some (n, cid) =>
    if (findCmd (Fin.ofNat 64 n) cid s).any (fun c => c.effective) then
      { s with stp := { s.stp with live := s.stp.live.map (fun x => if x.closer = some (n, cid) then { x with flipReady := true } else x) } }
    else completeAt (Fin.ofNat 64 n) cid stAbandoned 0 0 0 false s
  | none => s

/-- Cancel the whole schedule; its pending commands complete with ABANDONED (R77, R87). -/
def cancelSchedule (s : State) : State :=
  let es := s.gg.sched
  es.foldl (fun s e => abandonOwner s e.2) { s with gg := { s.gg with sched := [] } }

end Sys2Proof.Machine
end

