-- ==== Sys2Proof/Machine/Threads.lean ====
section
/-! DEFINITION. Threads (13_threads.md): contexts, segments (14 R302–R304), completion counters (R287, R288), the end of a thread
and of its launch (R284, R285), placement (R281, R282), the wait counter (R289). -/

namespace Sys2Proof.Machine

open Sys2Proof

/-! ### Contexts -/

/-- The key of a context: tile 16 is Pyrat-M. -/
def ctxKey (tile : Fin 17) (ctx : Fin 512) : Nat := 512 * tile.val + ctx.val

/-- The tile of a context key. -/
def keyTile (key : Nat) : Nat := key / 512

/-- The context with this key. -/
def threadAt (key : Nat) (s : State) : Option Thread := kvGet s.th.threads key

/-- Put a context. -/
def putThread (key : Nat) (t : Thread) (s : State) : State :=
  { s with th := { s.th with threads := kvSet s.th.threads key t } }

/-- Change a context. -/
def modThread (key : Nat) (f : Thread → Thread) (s : State) : State :=
  { s with th := { s.th with threads := kvMod s.th.threads key f } }

/-- A plain-mode context: it lies on Pyrat-M (R308). -/
def keyPlain (key : Nat) : Bool := decide (8192 ≤ key)

/-- The accessor of a thread's own accesses (R248). -/
def threadWho (key : Nat) (t : Thread) : Accessor := ⟨0, keyTile key, t.cls.val, false, 0⟩

/-- The loaded pattern with this handle. -/
def patternOf (h : Nat) (s : State) : Option Pattern := kvGet s.th.patterns h

/-- Change a launch. -/
def modLaunch (id : Nat) (f : Launch → Launch) (s : State) : State :=
  { s with th := { s.th with launches := modFirst (fun l => l.id == id) f s.th.launches } }

/-- The launch with this id. -/
def launchOf (id : Nat) (s : State) : Option Launch := s.th.launches.find? (fun l => l.id == id)

/-! ### Segments (R302–R304) -/

/-- The descriptor two words spell (R302). -/
def Seg.ofWords (lo hi : Nat) : Seg :=
  ⟨bits lo 0 52, bits hi 0 41, hi.testBit 48, hi.testBit 49, hi.testBit 50, hi.testBit 51⟩

/-- Bytes 0–7 of a descriptor (R302). -/
def Seg.word0 (g : Seg) : W64 := BitVec.ofNat 64 g.base

/-- Bytes 8–15 of a descriptor (R302). -/
def Seg.word1 (g : Seg) : W64 :=
  BitVec.ofNat 64 (g.limit + 2 ^ 48 * b2n g.r + 2 ^ 49 * b2n g.w + 2 ^ 50 * b2n g.x + 2 ^ 51 * b2n g.a)

/-- The byte offset, inside a template, of the field that makes it invalid (R302). -/
def segFault (lo hi : Nat) : Option Nat :=
  let limit := bits hi 0 41
  let rsv : Option Nat :=
    if bits lo 52 4 ≠ 0 then some 6 else if bits lo 56 8 ≠ 0 then some 7
    else if bits hi 41 7 ≠ 0 then some 13 else if bits hi 52 4 ≠ 0 then some 14
    else if bits hi 56 8 ≠ 0 then some 15 else none
  let lim : Option Nat := if 2 ^ 40 < limit ∨ 2 ^ 52 < bits lo 0 52 + limit then some 8 else none
  let x : Option Nat := if hi.testBit 50 then some 14 else none
  match rsv, lim, x with
  | some 6, _, _ => some 6
  | some 7, _, _ => some 7
  | _, some o, _ => some o
  | some o, none, some y => some (min o y)
  | some o, none, none => some o
  | none, none, y => y

/-- The limit check of R303, computed without wrap-around. -/
def Seg.fits (g : Seg) (o n : Nat) : Bool := decide (o + n ≤ g.limit)

/-- The check of R303: `right` is what the access needs of the segment; an access of no bytes is never refused. -/
def Seg.allows (g : Seg) (right : Seg → Bool) (o n : Nat) : Bool := decide (n = 0) || g.fits o n && right g

/-- BASE + o of an access, kept to the 52 bits of ADDR (R304). -/
def Seg.va (g : Seg) (o : Nat) : Nat := (g.base + o) % 2 ^ 52

/-- XF (R304). -/
def xfWord (status seg : Nat) (write : Bool) (addr : Nat) : W64 :=
  BitVec.ofNat 64 (status % 256 + 2 ^ 8 * (seg % 8) + 2 ^ 11 * b2n write + 2 ^ 12 * (addr % 2 ^ 52))

/-! ### Completion counters (R287, R288) -/

/-- A counter after one completion: it counts down and latches the first status other than OK (R288). -/
def Counter.complete (c : Counter) (status : Nat) (xi xf : W64) : Counter :=
  let c := { c with out := c.out - 1 }
  if status = 0 then c
  else match c.latch with
  | none => { c with latch := some ⟨status, xi, xf⟩ }
  | some _ => { c with more := true }

/-- An asynchronous operation of a context completes on its counter (R287, R288). -/
def opDone (key : Nat) (k : Fin 4) (status : Nat) (xi xf : W64) (s : State) : State :=
  modThread key (fun t => { t with cc := vmod t.cc k (fun c => c.complete status xi xf) }) s

/-- The completion of an operation with REFUSED_CAPACITY or REFUSED_RACE (R447). -/
def opRefused (key : Nat) (k : Fin 4) (status res : Nat) (s : State) : State :=
  opDone key k status 0 (xfWord status 0 false res) s

/-- The word WAITC pushes (R288). -/
def Counter.word (c : Counter) : W64 :=
  BitVec.ofNat 64 ((match c.latch with | some l => l.status | none => 0) % 256 + 256 * b2n c.more)

/-! ### Waiting for resources (R289) -/

/-- The context waits for a resource: it is not ready, and the id is the latest wait's. -/
def waitResource (key : Nat) (res : Nat) (s : State) : State :=
  modThread key (fun t => { t with hold := .resource res, waitRes := BitVec.ofNat 16 res }) s

/-- A resource wait ends after a number of cycles that only the hardware's timing gives: a free value joins the wait counter. -/
def endWait (key : Nat) (s : State) : State :=
  let (v, s) := drawFree s
  modThread key (fun t => { t with hold := .ready, waited := satAdd t.waited (v.toNat % 2 ^ 32) }) s

/-! ### The end of a thread (R284, R285) -/

/-- The thread ends normally: it issues nothing more (R284). -/
def endNormal (key : Nat) (s : State) : State := modThread key (fun t => { t with hold := .ended, shadow := none, rep := none }) s

/-- A launch notes the first of its threads to end by fault: its index, status, XF and PC (R278). -/
def Launch.noteFault (l : Launch) (t : Thread) (status : Nat) : Launch :=
  match l.first with
  | some _ => l
  | none => { l with first := some (t.index, status, t.xf, t.pc) }

/-- The thread ends by fault with `status` (R284, R317). -/
def endFaulted (key status : Nat) (s : State) : State :=
  match threadAt key s with
  | none => s
  | some t =>
    modLaunch t.launch (fun l => l.noteFault t status)
      (modThread key (fun t => { t with hold := .ended, faulted := some status, shadow := none, rep := none }) s)

/-- An asynchronous operation of the context is outstanding. -/
def Thread.busy (t : Thread) : Bool := t.cc.any (fun c => decide (c.out ≠ 0))

/-- A launch counts a thread whose context is released. -/
def Launch.account (l : Launch) (t : Thread) : Launch :=
  let l := { l with waitSum := satAdd l.waitSum t.waited.toNat }
  match t.faulted with
  | none => { l with endedOk := l.endedOk + 1 }
  | some _ => { l with endedFault := l.endedFault + 1 }

/-- Bytes 192–255 of the launch block (R278). -/
def Launch.report (l : Launch) : List Byte :=
  let (i, st, xf, pc) := l.first.getD (0, 0, 0, 0)
  toBytes 4 l.endedFault ++ toBytes 4 i ++ toBytes 8 st ++ toBytes 8 xf.toNat ++ toBytes 8 pc ++ toBytes 8 l.waitSum.toNat
    ++ toBytes 24 0

/-- Write the report; a write that fails is logged, and a page that is not present lets it wait (R285). -/
def launchReport (l : Launch) (s : State) : Bool × State :=
  let who : Accessor := ⟨0, 16, l.cls.val, false, l.block + 192⟩
  match xStore who l.tag.toNat (l.block + 192) l.report s with
  | (.done, s) => (true, s)
  | (.fault _, s) => (true, logErr .contained 0x12 .operation l.qp l.pattern l.block s)
  | (.stall _, s) => (false, s)
  | (.wait, s) => (false, s)

/-- The launch has no live context. -/
def launchIdle (id : Nat) (s : State) : Bool := s.th.threads.all (fun t => t.2.launch != id)

/-- Updates of the launch's threads are not yet performed at the system's scope (R285, R291). -/
def launchUnsettled (id : Nat) (s : State) : Bool :=
  s.pu.slots.any (fun u => u.launch == some id) || s.pu.store.any (fun r => r.upd.launch == some id)

/-- The launch completes once every thread was placed and has released its context (R285). -/
def launchEnd (s : State) (l : Launch) : State :=
  if l.next < l.count || !launchIdle l.id s || launchUnsettled l.id s then s
  else
    let (ok, s) := launchReport l s
    if !ok then s
    else
      let s := { s with th := { s.th with launches := s.th.launches.filter (fun x => x.id != l.id) } }
      if l.lost = 0 then
        complete (Fin.ofNat 64 l.qp) l.cid stOK 0 (BitVec.ofNat 64 l.endedOk) (BitVec.ofNat 64 l.endedFault) s
      else complete (Fin.ofNat 64 l.qp) l.cid stAbandoned 0 (BitVec.ofNat 64 l.lost) 0 s

/-- The context is released and its launch counts it (R284, R285). -/
def freeContext (key : Nat) (s : State) : State :=
  match threadAt key s with
  | none => s
  | some t =>
    let s := { s with th := { s.th with threads := kvErase s.th.threads key,
                                        claims := s.th.claims.filter (fun c => c.thread != key) } }
    modLaunch t.launch (fun l => l.account t) s

/-! ### Placement (R280–R282) -/

/-- Contexts of a tile in use. -/
def contextsUsed (tile : Nat) (s : State) : Nat := (s.th.threads.filter (fun t => keyTile t.1 == tile)).length

/-- Free contexts of a tile for a class (R443, R444). -/
def contextsFree (tile : Nat) (cls : Fin 4) (s : State) : Nat := classLimit resContexts cls false - contextsUsed tile s

/-- A tile of a launch's mask that can receive a thread: usable (R281). -/
def tileOpen (l : Launch) (tile : Nat) (s : State) : Bool :=
  l.mask.getLsbD tile && s.ram.tiles.getLsbD tile

/-- The tile with the most free contexts, ties from the rotating pointer on (R281). -/
def pickTile (l : Launch) (s : State) : Option Nat :=
  let order := (List.range 16).map (fun i => (s.th.pointer + i) % 16)
  let open' := order.filter (fun t => tileOpen l t s && decide (0 < contextsFree t l.cls s))
  let most := open'.foldl (fun m t => max m (contextsFree t l.cls s)) 0
  open'.find? (fun t => decide (contextsFree t l.cls s = most))

/-- The launch whose thread is placed next, and where (R282): class order, then begin order. A plain-mode launch takes Pyrat-M's
one context. -/
def nextPlacement (s : State) : Option (Launch × Nat) :=
  let ready := s.th.launches.filter (fun l => decide (l.next < l.count))
  [0, 1, 2, 3].findSome? (fun k => (ready.filter (fun l => l.cls.val == k)).findSome? (fun l =>
    if l.plain then (if (threadAt 8192 s).isNone then some (l, 8192) else none)
    else (pickTile l s).bind (fun t => (kvFree s.th.threads (512 * t) 512).map (fun key => (l, key)))))

/-- A thread at its start (R280). -/
def Launch.thread (l : Launch) (index tile : Nat) (code : Nat) : Thread :=
  let seg7 : Seg := { base := l.stackBase + index * l.stackBytes, limit := l.stackBytes, r := true, w := true }
  let seg0 : Seg := { base := (Config.codeBase l.pattern).toNat, limit := code, x := true }
  let segs := vset (vset l.segs 0 seg0) 7 seg7
  let slots := Vector.replicate 16 (0 : W64)
  let slots := vset slots 3 (BitVec.ofNat 64 index)
  let slots := vset slots 2 (BitVec.ofNat 64 tile)
  let slots := vset slots 1 l.userArg
  let slots := vset slots 0 (BitVec.ofNat 64 l.count)
  { launch := l.id, index := index, cls := l.cls, tag := l.tag, pattern := l.pattern, segs := segs, slots := slots }

/-- The work distributor places the next thread (R281, R282). -/
def placeThread (s : State) : State :=
  if !engines s then s
  else match nextPlacement s with
  | none => s
  | some (l, key) =>
    let code := match patternOf l.pattern s with
      | some p => p.image.length
      | none => 0
    let s := putThread key (l.thread l.next (keyTile key) code) s
    let s := modLaunch l.id (fun x => { x with next := x.next + 1 }) s
    let s := modCmd (Fin.ofNat 64 l.qp) l.cid (fun c => { c with effective := true, wait := none }) s
    if l.plain then s else { s with th := { s.th with pointer := (keyTile key + 1) % 16 } }

end Sys2Proof.Machine
end

