-- ==== Sys2Proof/Machine/PyratCode.lean ====
section
/-! DEFINITION. Pyrat instruction encoding (15_pyrat_instruction_reference.md R318–R325): how halfwords in SG0 spell instruction
units, and which of them are malformed (R301, R312, R322). -/

namespace Sys2Proof.Machine

open Sys2Proof

/-- The instructions of the opcode map (R325). -/
inductive POp where
  | nop | dup | swap | drop | over_ | rot | pick | pushi | pushx
  | add | sub | and | or | xor | andn | neg | not | mins | maxs | minu | maxu
  | shl | shr | sar | rol | clz | popc | bperm | bfx | bfi | mul | mulh
  | cmp | plog | pfrom | pto | ld | st | aadd | bcopy
  | br | bz | bnz | call | calli | bri | ret | end_
  | rds | wrs | rdwait | sgrd | waitc | fenceT | fenceD | fenceS
  | gather | pool | gatherAddr | gatherResume | rowAdd | stream | mxop
deriving DecidableEq, Repr

/-- A decoded instruction: the operand fields of the long form, into which a short form is carried over (R320, R321). -/
structure PInstr where
  op : POp
  sub : Nat
  imm : Nat
  neg : Bool
  pred : Nat
  /-- bytes -/
  size : Nat
deriving DecidableEq, Repr

/-- The repeat prefix of a unit (R312). -/
inductive Rep where
  | once | repu (n : Nat) | repi
deriving DecidableEq, Repr

/-- An instruction unit (R301). -/
structure PUnit where
  rep : Rep
  ins : PInstr
  /-- bytes of the whole unit -/
  len : Nat
deriving DecidableEq, Repr

/-- The two's-complement value of the low `w` bits. -/
def signed (w x : Nat) : Int := if (x % 2 ^ w).testBit (w - 1) then (x % 2 ^ w : Nat) - (2 ^ w : Nat) else (x % 2 ^ w : Nat)

/-- Sign-extend the low `w` bits to 16. -/
def sext16 (w x : Nat) : Nat := (BitVec.ofInt 16 (signed w x)).toNat

/-! ### The 32-bit form (R321, R325) -/

/-- The operation MAJOR and SUB select (R325). -/
def opOf (major sub : Nat) : Option POp :=
  let pick (ops : List POp) : Option POp := ops[sub]?
  if major = 0x00 then pick [.nop, .dup, .swap, .drop, .over_, .rot, .pick]
  else if major = 0x01 then pick [.pushi]
  else if major = 0x02 then pick [.pushx]
  else if major = 0x03 then pick [.add, .sub, .and, .or, .xor, .andn, .neg, .not, .mins, .maxs, .minu, .maxu]
  else if major = 0x04 then pick [.shl, .shr, .sar, .rol]
  else if major = 0x05 then pick [.shl, .shr, .sar, .rol]
  else if major = 0x06 then pick [.clz, .popc, .bperm]
  else if major = 0x07 then (if sub < 4 then some .bfx else none)
  else if major = 0x08 then (if sub < 2 then some .bfi else none)
  else if major = 0x09 then pick [.mul, .mulh]
  else if major = 0x0A then (if sub < 10 then some .cmp else none)
  else if major = 0x0B then (if sub < 4 then some .plog else none)
  else if major = 0x0C then pick [.pfrom, .pto]
  else if major = 0x10 then some .ld
  else if major = 0x11 then (if sub.testBit 2 then none else some .st)
  else if major = 0x12 then (if sub % 4 < 2 then none else some .aadd)
  else if major = 0x13 then (if sub < 4 then some .bcopy else none)
  else if major = 0x18 then pick [.br]
  else if major = 0x19 then pick [.bz]
  else if major = 0x1A then pick [.bnz]
  else if major = 0x1B then pick [.call]
  else if major = 0x1C then pick [.bri, .calli, .ret]
  else if major = 0x1D then pick [.end_]
  else if major = 0x20 then pick [.rds]
  else if major = 0x21 then pick [.wrs]
  else if major = 0x22 then pick [.rdwait]
  else if major = 0x23 then pick [.sgrd]
  else if major = 0x24 then pick [.waitc]
  else if major = 0x25 then pick [.fenceT, .fenceD, .fenceS]
  else if major = 0x28 then pick [.gather, .pool, .gatherAddr, .gatherResume]
  else if major = 0x29 then pick [.rowAdd]
  else if major = 0x2A then pick [.stream]
  else if major = 0x2B then pick [.mxop]
  else none

/-- The shift of MAJOR 0x04 takes its amount from IMM; that of 0x05 from the stack. SUB 4 marks the stack form after decoding. -/
def subOf (major sub : Nat) : Nat := if major = 0x05 then sub + 4 else sub

/-- The bits of IMM that an instruction's encoding uses; every other bit must be 0 (R322, R326–R342). -/
def immMask (major sub : Nat) (op : POp) : Nat :=
  match op with
  | .pick => 0xF
  | .pushi | .pushx | .ld | .st | .aadd | .br | .bz | .bnz | .call => 0xFFFF
  | .shl | .shr | .sar | .rol => if major = 0x04 then 0x3F else 0
  | .bfx | .bfi => if sub % 2 = 0 then 0x1FFF else 0
  | .cmp | .pfrom | .pto | .rds | .wrs | .sgrd => 0x7
  | .plog => 0x1FF
  | .bcopy => 0x3F
  | .rdwait => 0x1
  | .waitc => 0xFF03
  | .gather | .pool | .gatherAddr | .gatherResume | .rowAdd | .stream | .mxop => 0x37
  | _ => 0

/-- An immediate field lies in its stated range: the width of an immediate bit field (R329), the special register's number
(R340). -/
def immRange (sub imm : Nat) (op : POp) : Bool :=
  match op with
  | .bfx | .bfi =>
    if sub % 2 = 0 then decide (1 ≤ bits imm 6 7 ∧ bits imm 6 7 ≤ 64 ∧ bits imm 0 6 + bits imm 6 7 ≤ 64) else true
  | .rds => decide (imm < 7)
  | .wrs => decide (imm < 7)
  | _ => true

/-- Decode a 32-bit instruction word; `none` is malformed (R321, R322). -/
def decodeLong (w : Nat) : Option PInstr :=
  let major := bits w 4 6
  let sub := bits w 0 4
  let imm := bits w 16 16
  match opOf major sub with
  | none => none
  | some op =>
    if imm - (imm &&& immMask major sub op) = 0 ∧ immRange sub imm op then
      some ⟨op, subOf major sub, imm, w.testBit 13, bits w 10 3, 4⟩
    else none

/-! ### The 16-bit forms (R320) -/

/-- An unguarded short instruction. -/
def shortIns (op : POp) (sub imm : Nat) : Option PInstr := some ⟨op, sub, imm, false, 0, 2⟩

/-- Decode a 16-bit instruction that is no prefix; `none` is malformed (R320, R322). -/
def decodeShort (h : Nat) : Option PInstr :=
  match bits h 12 4 with
  | 0x0 =>
    if bits h 0 8 ≠ 0 then none
    else match [POp.nop, .dup, .swap, .drop, .add, .sub, .and, .or, .xor][bits h 8 4]? with
    | some op => shortIns op 0 0
    | none => none
  | 0x1 =>
    if bits h 0 7 ≠ 0 then none
    else match [POp.shl, .shr, .sar][bits h 10 2]? with
    | some op => shortIns op 0 (bits h 7 3 + 1)
    | none => none
  | 0x2 => shortIns .pushi 0 (sext16 13 (bits h 0 13))
  | 0x3 => shortIns .pushi 0 (sext16 13 (bits h 0 13))
  | 0x4 =>
    if bits h 6 3 = 7 then none
    else shortIns .ld (bits h 6 3 % 4 + (if 4 ≤ bits h 6 3 then 4 else 0)) (bits h 9 3 * 2 ^ 13 + bits h 0 6)
  | 0x5 => if 4 ≤ bits h 6 3 then none else shortIns .st (bits h 6 3) (bits h 9 3 * 2 ^ 13 + bits h 0 6)
  | 0x6 =>
    match [POp.br, .bz, .bnz][bits h 10 2]? with
    | some op => shortIns op 0 (sext16 10 (bits h 0 10))
    | none => none
  | _ => none

/-! ### Units (R301, R312, R316, R319, R323) -/

/-- An instruction that a prefix may not repeat (R312). -/
def POp.unrepeatable (op : POp) : Bool :=
  [POp.br, .bz, .bnz, .call, .calli, .bri, .ret, .end_, .waitc, .fenceT, .fenceD, .fenceS].contains op

/-- How the fetch of a unit ends. -/
inductive Fetch where
  | unit (u : PUnit)
  /-- the unit is malformed (R301, R322) -/
  | malformed
  /-- an instruction fetch at this offset is refused by SG0 (R319) -/
  | outside (o : Nat)
deriving DecidableEq, Repr

/-- The halfword at byte offset `o` of a pattern's code (R318). -/
def halfword (code : List Byte) (o : Nat) : Nat := ofBytes ((code.drop o).take 2)

/-- Fetch and decode the instruction at `o` after its prefixes (R316, R319). -/
def fetchIns (code : List Byte) (o : Nat) (rep : Rep) (grd : Option Nat) (start : Nat) : Fetch :=
  let h := halfword code o
  if bits h 14 2 = 3 then
    if code.length < o + 4 then .outside o
    else match decodeLong (h + 2 ^ 16 * halfword code (o + 2)), grd with
    | some i, none => if rep ≠ .once ∧ i.op.unrepeatable then .malformed else .unit ⟨rep, i, o + 4 - start⟩
    | _, _ => .malformed
  else match decodeShort h with
  | none => .malformed
  | some i =>
    let i := match grd with
      | some g => { i with neg := g.testBit 3, pred := g % 8 }
      | none => i
    if rep ≠ .once ∧ i.op.unrepeatable then .malformed else .unit ⟨rep, i, o + 2 - start⟩

/-- A halfword is a prefix of kind `k`: 0 GRD, 1 REPU, 2 REPI (R323); `none` where its marked bits are not 0. -/
def prefixFields (h : Nat) : Option Nat :=
  match bits h 10 2 with
  | 0 => if bits h 4 6 = 0 then some (bits h 0 4) else none
  | 1 => if bits h 6 4 = 0 then some (bits h 0 6 + 1) else none
  | 2 => if bits h 0 10 = 0 then some 0 else none
  | _ => none

/-- After a GRD prefix at `o - 2`: the instruction must follow (R301). -/
def fetchAfterGrd (code : List Byte) (o : Nat) (rep : Rep) (g start : Nat) : Fetch :=
  if code.length < o + 2 then .malformed
  else if bits (halfword code o) 12 4 = 7 then .malformed
  else fetchIns code o rep (some g) start

/-- After a repeat prefix: a GRD prefix or the instruction (R301). -/
def fetchAfterRep (code : List Byte) (o : Nat) (rep : Rep) (start : Nat) : Fetch :=
  if code.length < o + 2 then .malformed
  else
    let h := halfword code o
    if bits h 12 4 = 7 then
      match bits h 10 2, prefixFields h with
      | 0, some g => fetchAfterGrd code (o + 2) rep g start
      | _, _ => .malformed
    else fetchIns code o rep none start

/-- Fetch the unit at `pc` (R301, R316). -/
def fetchUnit (code : List Byte) (pc : Nat) : Fetch :=
  if code.length < pc + 2 then .outside pc
  else
    let h := halfword code pc
    if bits h 12 4 = 7 then
      match bits h 10 2, prefixFields h with
      | 0, some g => fetchAfterGrd code (pc + 2) .once g pc
      | 1, some n => fetchAfterRep code (pc + 2) (.repu n) pc
      | 2, some _ => fetchAfterRep code (pc + 2) .repi pc
      | _, _ => .malformed
    else fetchIns code pc .once none pc

/-! ### Encoding (R312, R321, R323, R325) -/

/-- MAJOR and SUB of an operation; `sub` is the decoded SUB, in which 4 marks the stack form of a shift (R325). -/
def majorSub (op : POp) (sub : Nat) : Nat × Nat :=
  match op with
  | .nop => (0x00, 0) | .dup => (0x00, 1) | .swap => (0x00, 2) | .drop => (0x00, 3) | .over_ => (0x00, 4) | .rot => (0x00, 5)
  | .pick => (0x00, 6) | .pushi => (0x01, 0) | .pushx => (0x02, 0)
  | .add => (0x03, 0) | .sub => (0x03, 1) | .and => (0x03, 2) | .or => (0x03, 3) | .xor => (0x03, 4) | .andn => (0x03, 5)
  | .neg => (0x03, 6) | .not => (0x03, 7) | .mins => (0x03, 8) | .maxs => (0x03, 9) | .minu => (0x03, 10) | .maxu => (0x03, 11)
  | .shl | .shr | .sar | .rol => if sub < 4 then (0x04, sub) else (0x05, sub - 4)
  | .clz => (0x06, 0) | .popc => (0x06, 1) | .bperm => (0x06, 2) | .bfx => (0x07, sub) | .bfi => (0x08, sub)
  | .mul => (0x09, 0) | .mulh => (0x09, 1) | .cmp => (0x0A, sub) | .plog => (0x0B, sub) | .pfrom => (0x0C, 0) | .pto => (0x0C, 1)
  | .ld => (0x10, sub) | .st => (0x11, sub) | .aadd => (0x12, sub) | .bcopy => (0x13, sub)
  | .br => (0x18, 0) | .bz => (0x19, 0) | .bnz => (0x1A, 0) | .call => (0x1B, 0) | .bri => (0x1C, 0) | .calli => (0x1C, 1)
  | .ret => (0x1C, 2) | .end_ => (0x1D, 0)
  | .rds => (0x20, 0) | .wrs => (0x21, 0) | .rdwait => (0x22, 0) | .sgrd => (0x23, 0) | .waitc => (0x24, 0)
  | .fenceT => (0x25, 0) | .fenceD => (0x25, 1) | .fenceS => (0x25, 2)
  | .gather => (0x28, 0) | .pool => (0x28, 1) | .gatherAddr => (0x28, 2) | .gatherResume => (0x28, 3)
  | .rowAdd => (0x29, 0) | .stream => (0x2A, 0) | .mxop => (0x2B, 0)

/-- The decoded SUB values of an operation (R325–R343). -/
def subOk (op : POp) (sub : Nat) : Bool :=
  match op with
  | .shl => sub == 0 || sub == 4
  | .shr => sub == 1 || sub == 5
  | .sar => sub == 2 || sub == 6
  | .rol => sub == 3 || sub == 7
  | .bfx | .plog | .bcopy => decide (sub < 4)
  | .bfi => decide (sub < 2)
  | .cmp => decide (sub < 10)
  | .ld => decide (sub < 16)
  | .st => decide (sub < 16) && !sub.testBit 2
  | .aadd => decide (sub < 16 ∧ 2 ≤ sub % 4)
  | _ => sub == (majorSub op 0).2

/-- A well-formed instruction of the 32-bit form (R321, R322). -/
def PInstr.wf (i : PInstr) : Bool :=
  decide (i.size = 4 ∧ i.pred < 8 ∧ i.imm < 2 ^ 16 ∧ i.imm &&& immMask (majorSub i.op i.sub).1 i.sub i.op = i.imm)
    && subOk i.op i.sub && immRange i.sub i.imm i.op

/-- The word of the 32-bit form (R321). -/
def encodeLong (i : PInstr) : Nat :=
  (majorSub i.op i.sub).2 + 2 ^ 4 * (majorSub i.op i.sub).1 + 2 ^ 10 * i.pred + 2 ^ 13 * b2n i.neg + 2 ^ 14 * 3 + 2 ^ 16 * i.imm

/-- The bytes of a unit: its repeat prefix, if it has one, and the 32-bit form (R312, R319, R323). -/
def encodeUnit (u : PUnit) : List Byte :=
  (match u.rep with
   | .once => []
   | .repu n => toBytes 2 (0x7400 + (n - 1))
   | .repi => toBytes 2 0x7800) ++ toBytes 4 (encodeLong u.ins)

/-- A well-formed unit: its instruction is, it repeats only what may be repeated, and its length is that of its bytes (R301, R312). -/
def PUnit.wf (u : PUnit) : Bool :=
  u.ins.wf && decide (u.len = (encodeUnit u).length)
    && (match u.rep with
        | .once => true
        | .repu n => decide (1 ≤ n ∧ n ≤ 64) && !u.ins.op.unrepeatable
        | .repi => !u.ins.op.unrepeatable)

end Sys2Proof.Machine
end

