-- ==== Sys2Proof/Machine/Pyrat.lean ====
section
/-! DEFINITION. The Pyrat processor model (14_pyrat_processor.md): the operand stack with its spills and fills (R296–R298),
predicates and guards (R299, R300), a thread's own accesses (R303, R304), pending deliveries (R307, R309), the repeat prefixes
(R312–R314), and the issue of one instruction (R316, R317). -/

namespace Sys2Proof.Machine

open Sys2Proof

/-! ### How an instruction ends -/

/-- The outcome of one instruction on a context: the context after it and a taken branch's target; a wait; or a fault with the XI
and XF it records. -/
inductive Run where
  | done (t : Thread) (jump : Option Nat) (s : State)
  /-- the context is not ready until the hold ends; the instruction is then issued again -/
  | hold (h : Hold) (s : State)
  /-- the thread ends by fault (R317) -/
  | fault (status : Nat) (xi : Option W64) (xf : W64) (s : State)
  /-- it joins the wait list of a pool (R289, R449) -/
  | claim (c : Claim) (s : State)
  /-- the host cannot be reached now: the access has not been made -/
  | later (s : State)

/-- A step on a context that may end the instruction. -/
inductive TStep (α : Type) where
  | ok (a : α) (t : Thread) (s : State)
  | stop (r : Run)

/-- Go on with the next step. -/
def TStep.andThen {α β : Type} (x : TStep α) (f : α → Thread → State → TStep β) : TStep β :=
  match x with
  | .ok a t s => f a t s
  | .stop r => .stop r

/-- The instruction ends after these steps, without a taken branch. -/
def TStep.finish {α : Type} (x : TStep α) : Run :=
  match x with
  | .ok _ t s => .done t none s
  | .stop r => r

/-- ERR_STATE and ERR_MALFORMED record SEG 0 and ADDR 0 (R317). -/
def plainFault (status : Nat) (s : State) : Run := .fault status none (xfWord status 0 false 0) s

/-! ### A thread's own accesses (R303, R304) -/

/-- A refused access of segment `k` at offset `o` (R304). -/
def segFaultRun (t : Thread) (k : Fin 8) (o : Nat) (write : Bool) (s : State) : Run :=
  let g := t.segs[k]
  .fault stSegment (some (BitVec.ofNat 64 g.limit)) (xfWord stSegment k.val write (g.va o)) s

/-- A read by the thread itself: `n` bytes at offset `o` of segment `k`; `ecc` is how the first sector decodes (R263, R266). -/
def threadRead (key : Nat) (k : Fin 8) (o n : Nat) (ecc : Ecc) (t : Thread) (s : State) : TStep (List Byte) :=
  let g := t.segs[k]
  if !g.allows (·.r) o n then .stop (segFaultRun t k o false s)
  else
    let va := g.va o
    let who := threadWho key t
    let s := match resolve t.tag.toNat va .read s with
      | .t1 pa _ => eccRead pa ecc s
      | _ => s
    match xRead who t.tag.toNat va n .read s with
    | (.data bs, s) => .ok bs t s
    | (.stall w, s) => .stop (.hold (.stall w (xfWord 0 k.val false va)) s)
    | (.fault st, s) => .stop (.fault st none (xfWord st k.val false va) s)
    | (.suppressed, s) => .stop (.fault stTranslation none (xfWord stTranslation k.val false va) s)
    | (.wait, s) => .stop (.later s)

/-- A store by the thread itself. -/
def threadStore (key : Nat) (k : Fin 8) (o : Nat) (bs : List Byte) (t : Thread) (s : State) : TStep Unit :=
  let g := t.segs[k]
  if !g.allows (·.w) o bs.length then .stop (segFaultRun t k o true s)
  else
    let va := g.va o
    match xStore (threadWho key t) t.tag.toNat va bs s with
    | (.done, s) => .ok () { t with unT := t.unT + 1, unD := t.unD + 1, unS := t.unS + 1 } s
    | (.stall w, s) => .stop (.hold (.stall w (xfWord 0 k.val true va)) s)
    | (.fault st, s) => .stop (.fault st none (xfWord st k.val true va) s)
    | (.wait, s) => .stop (.later s)

/-! ### The operand stack (R296–R298) -/

/-- The word at depth `d < 16`. -/
def Thread.at' (t : Thread) (d : Nat) : W64 := t.slots[Fin.ofNat 16 (t.sd + 15 - d)]

/-- The physical slot that the next push fills. -/
def Thread.nextSlot (t : Thread) : Fin 16 := Fin.ofNat 16 t.sd

/-- The instruction needs `n` words (R298, R316 step 3). -/
def need (n : Nat) (t : Thread) (s : State) : TStep Unit :=
  if t.sd < n then .stop (plainFault stState s) else .ok () t s

/-- Make room for a push: the word at depth 15 is spilled first when SD ≥ 16 (R297, R298). -/
def spill (key : Nat) (t : Thread) (s : State) : TStep Unit :=
  if t.sd < 16 then .ok () t s
  else threadStore key 7 (8 * (t.sd - 16)) (toBytes 8 (t.slots[t.nextSlot]).toNat) t s

/-- Push a word (R297). -/
def push (key : Nat) (v : W64) (t : Thread) (s : State) : TStep Unit :=
  (spill key t s).andThen fun _ t s => .ok () { t with slots := vset t.slots t.nextSlot v, sd := t.sd + 1 } s

/-- Push several words, the last of the list ending on top. -/
def pushAll (key : Nat) : List W64 → Thread → State → TStep Unit
  | [], t, s => .ok () t s
  | v :: vs, t, s => (push key v t s).andThen fun _ t s => pushAll key vs t s

/-- In woven mode a fill holds the thread like a load (R297, R306). -/
def heldByData (key : Nat) (t : Thread) : Thread := if keyPlain key then t else { t with hold := .data }

/-- Pop a word; a pop that leaves SD ≥ 16 fills the new word at depth 15 (R297). -/
def pop (key : Nat) (t : Thread) (s : State) : TStep W64 :=
  let v := t.at' 0
  let t := { t with sd := t.sd - 1 }
  if t.sd < 16 then .ok v t s
  else (threadRead key 7 (8 * (t.sd - 16)) 8 .clean t s).andThen fun bs t s =>
    .ok v (heldByData key { t with slots := vset t.slots t.nextSlot (BitVec.ofNat 64 (ofBytes bs)) }) s

/-- Pop `n` words, the former top first; the depth has been checked. -/
def popAll (key : Nat) : (n : Nat) → Thread → State → TStep (List W64)
  | 0, t, s => .ok [] t s
  | n + 1, t, s => (pop key t s).andThen fun v t s => (popAll key n t s).andThen fun vs t s => .ok (v :: vs) t s

/-- Pop one word and push the result (R324). -/
def unary (key : Nat) (f : W64 → W64) (t : Thread) (s : State) : Run :=
  TStep.finish <| (need 1 t s).andThen fun _ t s => (pop key t s).andThen fun x t s => push key (f x) t s

/-- Pop b, then a, and push the result (R324). -/
def binary (key : Nat) (f : W64 → W64 → W64) (t : Thread) (s : State) : Run :=
  TStep.finish <| (need 2 t s).andThen fun _ t s => (pop key t s).andThen fun b t s => (pop key t s).andThen fun a t s =>
    push key (f a b) t s

/-! ### Predicates (R299, R300) -/

/-- Predicate `p`; P0 is always true (R299). -/
def Thread.pred (t : Thread) (p : Nat) : Bool := p % 8 == 0 || t.preds.getLsbD (p % 8)

/-- Write predicate `p`; a write to P0 is ignored (R299). -/
def Thread.setPred (t : Thread) (p : Nat) (b : Bool) : Thread :=
  let p := p % 8
  if p = 0 then t
  else { t with preds := if b then t.preds ||| BitVec.twoPow 8 p else t.preds &&& ~~~ (BitVec.twoPow 8 p) }

/-- The guard of an instruction is true (R300). -/
def Thread.guard (t : Thread) (i : PInstr) : Bool := xor (t.pred i.pred) i.neg

/-! ### Pending deliveries (R307, R309) -/

/-- One product is delivered when its count has run down. -/
def deliverMul (t : Thread) (m : PendingMul) : Thread := if m.left = 0 then { t with ml := m.lo, mh := m.hi } else t

/-- One loaded value is delivered into its physical slot. -/
def deliverLoad (t : Thread) (l : PendingLoad) : Thread := if l.left = 0 then { t with slots := vset t.slots l.slot l.value } else t

/-- One issue of the context has been made: everything pending counts down, and what has run down is delivered in order. -/
def deliver (t : Thread) : Thread :=
  let muls := t.muls.map (fun m => { m with left := m.left - 1 })
  let loads := t.loads.map (fun l => { l with left := l.left - 1 })
  let t := muls.foldl deliverMul t
  let t := loads.foldl deliverLoad t
  { t with muls := muls.filter (fun m => decide (m.left ≠ 0)), loads := loads.filter (fun l => decide (l.left ≠ 0)) }

/-! ### XC and the repeats (R312–R314) -/

/-- RESUME of XC. -/
def xcResume (x : W64) : Bool := x.getLsbD 63

/-- The count of XC. -/
def xcCount (x : W64) : Nat := bits x.toNat 0 33

/-- XC with a remaining count (R313, R314). -/
def xcWord (n : Nat) (resume : Bool) : W64 := BitVec.ofNat 64 (n % 2 ^ 33 + 2 ^ 63 * b2n resume)

/-! ### The issue of one instruction -/

/-- The PC after a unit of `len` bytes: an open shadow's target, or the fall-through (R309, R310). -/
def Thread.advance (t : Thread) (plain : Bool) (len : Nat) (jump : Option Nat) : Thread :=
  match t.shadow with
  | some tgt => { t with pc := tgt, shadow := none }
  | none =>
    match jump with
    | none => { t with pc := t.pc + len }
    | some tgt => if plain then { t with pc := t.pc + len, shadow := some tgt } else { t with pc := tgt }

/-- One iteration of the unit has been executed, `left` of them remaining with it: the deliveries count it, and the last one ends
the unit (R312, R313). -/
def retire (key : Nat) (u : PUnit) (left : Nat) (jump : Option Nat) (t : Thread) : Thread :=
  let fresh := t.muls.filter (fun m => decide (m.left = 0))
  let freshL := t.loads.filter (fun l => decide (l.left = 0))
  let t := deliver { t with muls := t.muls.filter (fun m => decide (m.left ≠ 0)), loads := t.loads.filter (fun l => decide (l.left ≠ 0)) }
  let t := { t with
    muls := t.muls ++ fresh.map (fun (m : PendingMul) => { m with left := if keyPlain key then 3 else 1 }),
    loads := t.loads ++ freshL.map (fun (l : PendingLoad) => { l with left := 2 }) }
  if 1 < left then { t with rep := some (left - 1) }
  else
    let t := { t with rep := none, xc := if u.rep = Rep.repi then 0 else t.xc }
    t.advance (keyPlain key) u.len jump

/-- The thread ends by fault in the unit `u` (R304, R314, R317). -/
def threadFault (key status : Nat) (xi : Option W64) (xf : W64) (left : Option Nat) (s : State) : State :=
  let s := modThread key (fun t => { t with xi := xi.getD t.xi, xf := xf,
                                              xc := match left with
                                                | some n => xcWord n false
                                                | none => t.xc }) s
  endFaulted key status s

/-- What an instruction of `op` does, given its context's key (R326–R343). -/
abbrev Meaning := Nat → PInstr → Thread → State → Run

/-- Run one iteration of a unit; `left` counts it and those after it (R300, R312). -/
def iterate (m : Meaning) (key : Nat) (u : PUnit) (left : Nat) (t : Thread) (s : State) : State :=
  let t := if u.rep = .once then t else { t with rep := some left }
  let left' := if u.rep = .once then none else some left
  if !t.guard u.ins then putThread key (retire key u left none t) s
  else match m key u.ins t s with
  | .done t' jump s => putThread key (retire key u left jump t') s
  | .hold h s => putThread key { t with hold := h } s
  | .later s => putThread key t s
  | .claim c s => joinClaims c (putThread key { t with hold := .resource c.res, waitRes := BitVec.ofNat 16 c.res } s)
  | .fault st xi xf s => threadFault key st xi xf left' (putThread key t s)

/-- A REPI takes its count: from XC when RESUME is set, else from the stack (R312, R313). -/
def repiStart (m : Meaning) (key : Nat) (u : PUnit) (t : Thread) (s : State) : State :=
  let go (n : Nat) (t : Thread) (s : State) : State :=
    if 2 ^ 32 < n then threadFault key stMalformed none (xfWord stMalformed 0 false 0) none s
    else if n = 0 then putThread key ({ t with xc := 0 }.advance (keyPlain key) u.len none) s
    else iterate m key u n t s
  if xcResume t.xc then go (xcCount t.xc) { t with xc := 0 } s
  else if t.sd < 1 then threadFault key stState none (xfWord stState 0 false 0) none s
  else if 2 ^ 32 < (t.at' 0).toNat then threadFault key stMalformed none (xfWord stMalformed 0 false 0) none s
  else match pop key t s with
  | .ok v t s => go v.toNat t s
  | .stop (.hold h s) => putThread key { t with hold := h } s
  | .stop (.fault st xi xf s) => threadFault key st xi xf none s
  | .stop _ => s

/-- Begin or continue the unit `u` (R312). -/
def runUnit (m : Meaning) (key : Nat) (u : PUnit) (t : Thread) (s : State) : State :=
  match t.rep with
  | some n => iterate m key u n t s
  | none =>
    match u.rep with
    | .once => iterate m key u 1 t s
    | .repu n => iterate m key u n t s
    | .repi => repiStart m key u t s

/-- The code of the context's pattern. -/
def Thread.code (t : Thread) (s : State) : List Byte :=
  match patternOf t.pattern s with
  | some p => p.image
  | none => []

/-- The context can issue: the engines run and it is ready (R286). -/
def canIssue (t : Thread) (s : State) : Bool :=
  engines s && decide (t.hold = .ready)

/-- The context issues its next instruction, whose operation is `op`; a unit that cannot be fetched or decoded ends the thread
(R316, R317). -/
def issue (op : POp) (m : Meaning) (key : Nat) (s : State) : State :=
  match threadAt key s with
  | none => s
  | some t =>
    if !canIssue t s then s
    else match fetchUnit (t.code s) t.pc with
    | .malformed => threadFault key stMalformed none (xfWord stMalformed 0 false 0) none s
    | .outside o =>
      let g := t.segs[(0 : Fin 8)]
      threadFault key stSegment (some (BitVec.ofNat 64 g.limit)) (xfWord stSegment 0 false (g.va o)) none s
    | .unit u =>
      if u.ins.op ≠ op then s
      else runUnit m key u t s

/-- The data of a held load, fill or atomic arrives, and the thread becomes ready (R306). -/
def dataArrival (key : Nat) (s : State) : State :=
  modThread key (fun t => if t.hold = .data then { t with hold := .ready } else t) s

/-- An interruption between two iterations of a REPI (R313, R315): XC keeps the remaining count with RESUME 1. -/
def park (code : List Byte) (t : Thread) : Thread :=
  match t.rep, fetchUnit code t.pc with
  | some n, .unit u =>
    if u.rep = .repi ∧ t.hold = .ready then { t with rep := none, xc := xcWord n true } else t
  | _, _ => t

end Sys2Proof.Machine
end

