-- ==== Sys2Proof/Machine/PyratAlu.lean ====
section
/-! DEFINITION. Pyrat's stack, arithmetic, shift, bit, multiply, compare and predicate instructions (15, R326–R333). -/

namespace Sys2Proof.Machine

open Sys2Proof

/-! ### Stack and constants (R326) -/

def opNop : Meaning := fun _ _ t s => .done t none s

def opDup : Meaning := fun key _ t s =>
  TStep.finish <| (need 1 t s).andThen fun _ t s => (pop key t s).andThen fun x t s => pushAll key [x, x] t s

def opSwap : Meaning := fun key _ t s =>
  TStep.finish <| (need 2 t s).andThen fun _ t s => (pop key t s).andThen fun b t s => (pop key t s).andThen fun a t s =>
    pushAll key [b, a] t s

def opDrop : Meaning := fun key _ t s =>
  TStep.finish <| (need 1 t s).andThen fun _ t s => (pop key t s).andThen fun _ t s => .ok () t s

def opOver : Meaning := fun key _ t s =>
  TStep.finish <| (need 2 t s).andThen fun _ t s => (pop key t s).andThen fun b t s => (pop key t s).andThen fun a t s =>
    pushAll key [a, b, a] t s

def opRot : Meaning := fun key _ t s =>
  TStep.finish <| (need 3 t s).andThen fun _ t s => (pop key t s).andThen fun c t s => (pop key t s).andThen fun b t s =>
    (pop key t s).andThen fun a t s => pushAll key [b, c, a] t s

def opPick : Meaning := fun key i t s =>
  TStep.finish <| (need (i.imm + 1) t s).andThen fun _ t s => push key (t.at' i.imm) t s

def opPushi : Meaning := fun key i t s => TStep.finish <| push key (BitVec.ofInt 64 (signed 16 i.imm)) t s

def opPushx : Meaning := fun key i t s => unary key (fun x => (x <<< 16) ||| BitVec.ofNat 64 i.imm) t s

/-! ### Arithmetic (R328) -/

def opAdd : Meaning := fun key _ t s => binary key (fun a b => a + b) t s
def opSub : Meaning := fun key _ t s => binary key (fun a b => a - b) t s
def opAnd : Meaning := fun key _ t s => binary key (fun a b => a &&& b) t s
def opOr : Meaning := fun key _ t s => binary key (fun a b => a ||| b) t s
def opXor : Meaning := fun key _ t s => binary key (fun a b => a ^^^ b) t s
def opAndn : Meaning := fun key _ t s => binary key (fun a b => a &&& ~~~b) t s
def opNeg : Meaning := fun key _ t s => unary key (fun x => 0 - x) t s
def opNot : Meaning := fun key _ t s => unary key (fun x => ~~~x) t s
def opMins : Meaning := fun key _ t s => binary key (fun a b => if a.toInt ≤ b.toInt then a else b) t s
def opMaxs : Meaning := fun key _ t s => binary key (fun a b => if a.toInt ≤ b.toInt then b else a) t s
def opMinu : Meaning := fun key _ t s => binary key (fun a b => if a.toNat ≤ b.toNat then a else b) t s
def opMaxu : Meaning := fun key _ t s => binary key (fun a b => if a.toNat ≤ b.toNat then b else a) t s

/-! ### Shifts (R328) -/

/-- A shift by the immediate, or by the popped b [5:0] in the stack form. -/
def shiftBy (key : Nat) (i : PInstr) (f : W64 → Nat → W64) (t : Thread) (s : State) : Run :=
  if i.sub < 4 then unary key (fun x => f x (i.imm % 64)) t s else binary key (fun a b => f a (b.toNat % 64)) t s

def opShl : Meaning := fun key i t s => shiftBy key i (fun x n => x <<< n) t s
def opShr : Meaning := fun key i t s => shiftBy key i (fun x n => x >>> n) t s
def opSar : Meaning := fun key i t s => shiftBy key i (fun x n => x.sshiftRight n) t s
def opRol : Meaning := fun key i t s => shiftBy key i (fun x n => x.rotateLeft n) t s

/-! ### Bits (R329, R330) -/

/-- Leading zero bits of the low `n` bits (R330). -/
def leadingZeros (x : Nat) : (n : Nat) → Nat
  | 0 => 0
  | n + 1 => if x.testBit n then 0 else 1 + leadingZeros x n

/-- One bits among the low `n` bits (R330). -/
def onesCount (x : Nat) : (n : Nat) → Nat
  | 0 => 0
  | n + 1 => b2n (x.testBit n) + onesCount x n

/-- Byte `i` of a BPERM result (R330). -/
def bpermByte (x sel i : Nat) : Nat :=
  let nib := bits sel (4 * i) 4
  if nib < 8 then bits x (8 * nib) 8 else if x.testBit (8 * (nib - 8) + 7) then 0xFF else 0

/-- The word a selector permutes `x` to (R330). -/
def bperm (x sel : W64) : W64 :=
  BitVec.ofNat 64 (ofBytes ((List.range 8).map (fun i => BitVec.ofNat 8 (bpermByte x.toNat sel.toNat i))))

def opClz : Meaning := fun key _ t s => unary key (fun x => BitVec.ofNat 64 (leadingZeros x.toNat 64)) t s
def opPopc : Meaning := fun key _ t s => unary key (fun x => BitVec.ofNat 64 (onesCount x.toNat 64)) t s
def opBperm : Meaning := fun key _ t s => binary key (fun x sel => bperm x sel) t s

/-- The field of `x` at `pos`, `wid` bits wide; bits above 63 read as 0 (R329). -/
def bfx (x : W64) (pos wid : Nat) (sign : Bool) : W64 :=
  let f := bits x.toNat pos wid
  if wid = 0 then 0 else if sign then BitVec.ofInt 64 (signed wid f) else BitVec.ofNat 64 f

/-- `x` with the field at `pos`, `wid` bits wide, replaced by the low bits of `f` (R329). -/
def bfi (x f : W64) (pos wid : Nat) : W64 :=
  let m := BitVec.ofNat 64 ((2 ^ wid - 1) * 2 ^ pos)
  (x &&& ~~~m) ||| (BitVec.ofNat 64 (bits f.toNat 0 wid * 2 ^ pos) &&& m)

/-- A stack WID: bits [6:0], above 64 it acts as 64 (R329). -/
def stackWid (w : W64) : Nat := min 64 (w.toNat % 128)

/-- POS and WID of a bit-field instruction: from the immediate, or popped, WID first (R329). -/
def fieldArgs (key : Nat) (i : PInstr) (words : Nat) (t : Thread) (s : State) : TStep (Nat × Nat) :=
  if i.sub % 2 = 0 then (need words t s).andThen fun _ t s => .ok (bits i.imm 0 6, bits i.imm 6 7) t s
  else (need (words + 2) t s).andThen fun _ t s => (pop key t s).andThen fun w t s => (pop key t s).andThen fun p t s =>
    .ok (p.toNat % 64, stackWid w) t s

def opBfx : Meaning := fun key i t s =>
  TStep.finish <| (fieldArgs key i 1 t s).andThen fun pw t s => (pop key t s).andThen fun x t s =>
    push key (bfx x pw.1 pw.2 (i.sub.testBit 1)) t s

def opBfi : Meaning := fun key i t s =>
  TStep.finish <| (fieldArgs key i 2 t s).andThen fun pw t s => (pop key t s).andThen fun f t s =>
    (pop key t s).andThen fun x t s => push key (bfi x f pw.1 pw.2) t s

/-! ### Multiply (R307, R331) -/

/-- Pop b and a and start a product; it stands with count 0 until its issue retires. -/
def startMul (key : Nat) (f : W64 → W64 → BitVec 128) (t : Thread) (s : State) : Run :=
  TStep.finish <| (need 2 t s).andThen fun _ t s => (pop key t s).andThen fun b t s => (pop key t s).andThen fun a t s =>
    let p := f a b
    .ok () { t with muls := t.muls ++ [⟨0, p.setWidth 64, (p >>> 64).setWidth 64⟩] } s

def opMul : Meaning := fun key _ t s => startMul key (fun a b => a.setWidth 128 * b.setWidth 128) t s
def opMulh : Meaning := fun key _ t s => startMul key (fun a b => a.signExtend 128 * b.signExtend 128) t s

/-! ### Compare and predicates (R332, R333) -/

/-- The comparison a ? b of CMP (R332). -/
def compare (cond : Nat) (a b : W64) : Bool :=
  if cond = 0 then a == b
  else if cond = 1 then a != b
  else if cond = 2 then decide (a.toInt < b.toInt)
  else if cond = 3 then decide (a.toInt ≤ b.toInt)
  else if cond = 4 then decide (b.toInt < a.toInt)
  else if cond = 5 then decide (b.toInt ≤ a.toInt)
  else if cond = 6 then decide (a.toNat < b.toNat)
  else if cond = 7 then decide (a.toNat ≤ b.toNat)
  else if cond = 8 then decide (b.toNat < a.toNat)
  else decide (b.toNat ≤ a.toNat)

def opCmp : Meaning := fun key i t s =>
  TStep.finish <| (need 2 t s).andThen fun _ t s => (pop key t s).andThen fun b t s => (pop key t s).andThen fun a t s =>
    .ok () (t.setPred i.imm (compare i.sub a b)) s

/-- The operation of PLOG (R333). -/
def plog (sub : Nat) (x y : Bool) : Bool :=
  if sub = 0 then x && y else if sub = 1 then x || y else if sub = 2 then xor x y else x && !y

def opPlog : Meaning := fun _ i t s =>
  .done (t.setPred (bits i.imm 0 3) (plog i.sub (t.pred (bits i.imm 3 3)) (t.pred (bits i.imm 6 3)))) none s

def opPfrom : Meaning := fun key i t s =>
  TStep.finish <| (need 1 t s).andThen fun _ t s => (pop key t s).andThen fun x t s => .ok () (t.setPred i.imm (x != 0)) s

def opPto : Meaning := fun key i t s => TStep.finish <| push key (BitVec.ofNat 64 (b2n (t.pred i.imm))) t s

end Sys2Proof.Machine
end

