-- ==== Sys2Proof/Machine/PyratMem.lean ====
section
/-! DEFINITION. Pyrat's memory, control, special-register, wait and fence instructions (15, R334–R341; 13, R288, R291). -/

namespace Sys2Proof.Machine

open Sys2Proof

/-! ### Loads, stores, atomics (R334, R335) -/

/-- The segment an access's IMM names, and its 13-bit offset. -/
def immSeg (imm : Nat) : Fin 8 := Fin.ofNat 8 (bits imm 13 3)
def immOff (imm : Nat) : Nat := bits imm 0 13

/-- The offset of an access: the popped base, if the form is indexed, plus the immediate, without wrap (R334). -/
def accessOff (key : Nat) (i : PInstr) (t : Thread) (s : State) : TStep Nat :=
  if i.sub.testBit 3 then (pop key t s).andThen fun p t s => .ok (p.toNat + immOff i.imm) t s
  else .ok (immOff i.imm) t s

/-- Words an access pops for its base. -/
def baseWords (i : PInstr) : Nat := b2n (i.sub.testBit 3)

/-- The value a load pushes (R334). -/
def loadValue (i : PInstr) (bs : List Byte) : W64 :=
  let n := 2 ^ (i.sub % 4)
  if i.sub.testBit 2 then BitVec.ofInt 64 (signed (8 * n) (ofBytes bs)) else BitVec.ofNat 64 (ofBytes bs)

/-- A loaded value is pushed: at once and held for its data in woven mode; in plain mode the slot is pushed with its old content
and the value follows at the load distance (R306, R309). -/
def pushLoaded (key : Nat) (v : W64) (t : Thread) (s : State) : TStep Unit :=
  if keyPlain key then
    (spill key t s).andThen fun _ t s =>
      .ok () { t with sd := t.sd + 1, loads := t.loads ++ [⟨0, t.nextSlot, v⟩] } s
  else (push key v t s).andThen fun _ t s => .ok () { t with hold := .data } s

/-- LD; `ecc` is how the first sector read decodes. -/
def opLd (ecc : Ecc) : Meaning := fun key i t s =>
  TStep.finish <| (need (baseWords i) t s).andThen fun _ t s => (accessOff key i t s).andThen fun o t s =>
    (threadRead key (immSeg i.imm) o (2 ^ (i.sub % 4)) ecc t s).andThen fun bs t s => pushLoaded key (loadValue i bs) t s

def opSt : Meaning := fun key i t s =>
  TStep.finish <| (need (baseWords i + 1) t s).andThen fun _ t s => (accessOff key i t s).andThen fun o t s =>
    (pop key t s).andThen fun v t s => threadStore key (immSeg i.imm) o (toBytes (2 ^ (i.sub % 4)) v.toNat) t s

/-- The old bytes of an AADD with A rights (and R where the old value is returned) translated for an add (R335, R239). -/
def atomicRead (key : Nat) (k : Fin 8) (o n : Nat) (ret : Bool) (t : Thread) (s : State) : TStep (List Byte) :=
  let g := t.segs[k]
  let va := g.va o
  let bad (st : Nat) (s : State) : TStep (List Byte) := .stop (.fault st none (xfWord st k.val true va) s)
  if !g.allows (fun g => g.a && (!ret || g.r)) o n then .stop (segFaultRun t k o true s)
  else if va % n ≠ 0 then .stop (plainFault stMalformed s)
  else match translate (threadWho key t) t.tag.toNat va n .add s with
  | (.stall w, s) => .stop (.hold (.stall w (xfWord 0 k.val true va)) s)
  | (.fault st, s) => bad st s
  | (.suppressed, s) => bad stTranslation s
  | (.ok ps, s) =>
    if !piecesReady ps s then .stop (.later s)
    else if ret && (match resolve t.tag.toNat va .read s with | .t1 _ _ => false | .host _ => false | _ => true) then
      bad stTranslation s
    else match piecesPoison ps s with
    | none => .ok (piecesBytes ps s) t s
    | some sec =>
      let s := repairStart sec s
      if s.ram.repairs.any (fun r => r.sector == sec) then .stop (.hold (.stall (.repair sec) (xfWord 0 k.val true va)) s) else bad stPoison s

/-- The write half of an AADD: the pieces its read half translated. In woven mode the thread holds until it is performed on the device, so
only a FENCE.S can still wait for it (R291, R345). -/
def atomicWrite (key : Nat) (k : Fin 8) (o : Nat) (bs : List Byte) (t : Thread) (s : State) : TStep Unit :=
  let n := if keyPlain key then 1 else 0
  match translate (threadWho key t) t.tag.toNat ((t.segs[k]).va o) bs.length .add s with
  | (.ok ps, s) => .ok () { t with unT := t.unT + n, unD := t.unD + n, unS := t.unS + 1 } (storePieces ps bs s)
  | (_, s) => .ok () t s

def opAadd : Meaning := fun key i t s =>
  let n := 2 ^ (i.sub % 4)
  let ret := i.sub.testBit 2
  let k := immSeg i.imm
  TStep.finish <| (need (baseWords i + 1) t s).andThen fun _ t s => (accessOff key i t s).andThen fun o t s =>
    (pop key t s).andThen fun v t s => (atomicRead key k o n ret t s).andThen fun old t s =>
      (atomicWrite key k o (toBytes n (ofBytes old + v.toNat)) t s).andThen fun _ t s =>
        if ret then pushLoaded key (BitVec.ofNat 64 (ofBytes old)) t s else .ok () t s

/-! ### Block copies (R336) -/

/-- An asynchronous operation is issued on counter `k`: it counts up, or waits for capacity (R287). -/
def countUp (key : Nat) (k : Fin 4) (t : Thread) (s : State) : TStep Unit :=
  if 255 ≤ (t.cc[k]).out then .stop (.claim ⟨resCounter, key * 4 + k.val, t.cls, 1, key⟩ s)
  else .ok () { t with cc := vmod t.cc k (fun c => { c with out := c.out + 1 }) } s

def opBcopy : Meaning := fun key i t s =>
  let k : Fin 4 := Fin.ofNat 4 i.sub
  TStep.finish <| (need 3 t s).andThen fun _ t s => (pop key t s).andThen fun l t s => (pop key t s).andThen fun d t s =>
    (pop key t s).andThen fun o t s => (countUp key k t s).andThen fun _ t s =>
      .ok () t { s with th := { s.th with copies := s.th.copies ++
        [⟨key, k, Fin.ofNat 8 (bits i.imm 0 3), Fin.ofNat 8 (bits i.imm 3 3), o, d, l, 0, .none⟩] } }

/-- How far a block copy gets. -/
inductive CopyEnd where
  | all
  | stall (at' : Nat) (why : Stall)
  | fault (at' : Nat) (status : Nat) (write : Bool)
  | later (at' : Nat)
deriving DecidableEq, Repr

/-- Copy on from byte `k`, one piece at a time that lies in one sector at either end (R336). -/
def copyOn (who : Accessor) (tag src dst len : Nat) : (fuel k : Nat) → State → CopyEnd × State
  | 0, k, s => (.later k, s)
  | fuel + 1, k, s =>
    if len ≤ k then (.all, s)
    else
      let n := min (len - k) (min (32 - (src + k) % 32) (32 - (dst + k) % 32))
      match xRead who tag (src + k) n .read s with
      | (.stall w, s) => (.stall k w, s)
      | (.fault st, s) => (.fault k st false, s)
      | (.suppressed, s) => (.fault k stTranslation false, s)
      | (.wait, s) => (.later k, s)
      | (.data bs, s) =>
        match xStore who tag (dst + k) bs s with
        | (.done, s) => copyOn who tag src dst len fuel (k + n) s
        | (.stall w, s) => (.stall k w, s)
        | (.fault st, s) => (.fault k st true, s)
        | (.wait, s) => (.later k, s)

/-- The checks of R336 that copy nothing: status and XF. -/
def copyRefusal (c : Copy) (t : Thread) : Option (Nat × W64) :=
  let g := t.segs[c.srcSeg]
  let h := t.segs[c.dstSeg]
  let n := c.len.toNat
  if 2 ^ 24 < n then some (stMalformed, xfWord stMalformed 0 false 0)
  else if !g.allows (·.r) c.src.toNat n then some (stSegment, xfWord stSegment c.srcSeg.val false (g.va c.src.toNat))
  else if !h.allows (·.w) c.dst.toNat n then some (stSegment, xfWord stSegment c.dstSeg.val true (h.va c.dst.toNat))
  else if overlaps (g.va c.src.toNat) n (h.va c.dst.toNat) n then some (stMalformed, xfWord stMalformed 0 false 0)
  else none

/-- A block copy goes to its end, its fault or its next stall (R336). -/
def copyRun (c : Copy) (s : State) : State :=
  let drop (s : State) : State := { s with th := { s.th with copies := s.th.copies.erase c } }
  let keep (c' : Copy) (s : State) : State :=
    { s with th := { s.th with copies := modFirst (fun x => x == c) (fun _ => c') s.th.copies } }
  match threadAt c.thread s with
  | none => drop s
  | some t =>
    if c.len = 0 then opDone c.thread c.counter stOK 0 0 (drop s)
    else match copyRefusal c t with
    | some (st, xf) => opDone c.thread c.counter st 0 xf (drop s)
    | none =>
      let src := (t.segs[c.srcSeg]).va c.src.toNat
      let dst := (t.segs[c.dstSeg]).va c.dst.toNat
      match copyOn (threadWho c.thread t) t.tag.toNat src dst c.len.toNat (c.len.toNat + 1) c.done s with
      | (.all, s) => opDone c.thread c.counter stOK 0 0 (drop s)
      | (.stall k w, s) => keep { c with done := k, stall := w } s
      | (.later k, s) => keep { c with done := k } s
      | (.fault k st write, s) =>
        opDone c.thread c.counter st (BitVec.ofNat 64 (k / 32 * 32))
          (if write then xfWord st c.dstSeg.val true dst else xfWord st c.srcSeg.val false src) (drop s)

/-- The block copy `i` of the device goes on, unless it is stalled (R336). A stall that has ended without a page ends the copy. -/
def copyCompletion (i : Nat) (s : State) : State :=
  match s.th.copies[i]? with
  | none => s
  | some c =>
    match c.stall with
    | .none => copyRun c s
    | .failed st =>
      opDone c.thread c.counter st (BitVec.ofNat 64 (c.done / 32 * 32))
        (xfWord st c.srcSeg.val false (match threadAt c.thread s with
          | some t => (t.segs[c.srcSeg]).va c.src.toNat
          | none => 0)) { s with th := { s.th with copies := s.th.copies.erase c } }
    | _ => s

/-! ### Control (R337–R339) -/

/-- The target of a relative branch (R337). -/
def relTarget (i : PInstr) (start : Nat) : Nat := (BitVec.ofInt 64 ((start : Int) + 2 * signed 16 i.imm)).toNat

/-- Offset of the branch's own first halfword inside its unit: a short branch may follow a GRD prefix. -/
def branchStart (t : Thread) (i : PInstr) (s : State) : Nat :=
  match fetchUnit (t.code s) t.pc with
  | .unit u => t.pc + (u.len - i.size)
  | _ => t.pc

/-- Offset of the unit that follows this one. -/
def nextUnit (t : Thread) (s : State) : Nat :=
  match fetchUnit (t.code s) t.pc with
  | .unit u => t.pc + u.len
  | _ => t.pc + 2

/-- The return offset of a call: past the call, and in plain mode past its shadow instruction too (R338). -/
def returnOff (key : Nat) (t : Thread) (s : State) : W64 :=
  let after := nextUnit t s
  BitVec.ofNat 64 (if keyPlain key then nextUnit { t with pc := after } s else after)

def opBr : Meaning := fun _ i t s => .done t (some (relTarget i (branchStart t i s))) s

/-- BZ and BNZ: pop x and branch where `taken x`. -/
def condBranch (key : Nat) (i : PInstr) (taken : W64 → Bool) (t : Thread) (s : State) : Run :=
  let tgt := relTarget i (branchStart t i s)
  match (need 1 t s).andThen fun _ t s => pop key t s with
  | .ok x t s => .done t (if taken x then some tgt else none) s
  | .stop r => r

def opBz : Meaning := fun key i t s => condBranch key i (fun x => x == 0) t s
def opBnz : Meaning := fun key i t s => condBranch key i (fun x => x != 0) t s

def opCall : Meaning := fun key i t s =>
  let tgt := relTarget i (branchStart t i s)
  match push key (returnOff key t s) t s with
  | .ok _ t s => .done t (some tgt) s
  | .stop r => r

/-- An indirect transfer to a popped target; an odd one is malformed (R338). -/
def indirect (key : Nat) (ret : Option W64) (t : Thread) (s : State) : Run :=
  match (need 1 t s).andThen fun _ t s => pop key t s with
  | .stop r => r
  | .ok x t s =>
    if x.toNat % 2 = 1 then plainFault stMalformed s
    else match ret with
    | none => .done t (some x.toNat) s
    | some r =>
      match push key r t s with
      | .ok _ t s => .done t (some x.toNat) s
      | .stop r => r

def opCalli : Meaning := fun key _ t s => indirect key (some (returnOff key t s)) t s
def opBri : Meaning := fun key _ t s => indirect key none t s
def opRet : Meaning := fun key _ t s => indirect key none t s

/-- END (R284, R339): the context issues nothing more. -/
def opEnd : Meaning := fun _ _ t s => .done { t with hold := .ended } none s

/-! ### Special registers (R340) -/

/-- The value RDS pushes. -/
def Thread.special (t : Thread) (n : Nat) : W64 :=
  if n = 0 then t.ml else if n = 1 then t.mh else if n = 2 then t.xc else if n = 3 then t.xi else if n = 4 then t.xf
  else if n = 5 then BitVec.ofNat 64 (t.sd % 2 ^ 32) else BitVec.ofNat 64 (t.pc % 2 ^ 52)

/-- The defined bits of XC (R305). -/
def xcMask : W64 := BitVec.ofNat 64 (2 ^ 33 - 1 + 2 ^ 63)

/-- Write a special register. -/
def Thread.setSpecial (t : Thread) (n : Nat) (v : W64) : Thread :=
  if n = 0 then { t with ml := v } else if n = 1 then { t with mh := v } else if n = 2 then { t with xc := v &&& xcMask }
  else if n = 3 then { t with xi := v } else { t with xf := v }

def opRds : Meaning := fun key i t s => TStep.finish <| push key (t.special i.imm) t s

def opWrs : Meaning := fun key i t s =>
  if 5 ≤ i.imm then plainFault stMalformed s
  else TStep.finish <| (need 1 t s).andThen fun _ t s => (pop key t s).andThen fun v t s => .ok () (t.setSpecial i.imm v) s

def opRdwait : Meaning := fun key i t s =>
  let v := BitVec.ofNat 64 (t.waited.toNat + 2 ^ 32 * t.waitRes.toNat)
  TStep.finish <| (push key v t s).andThen fun _ t s =>
    .ok () (if i.imm.testBit 0 then { t with waited := 0, waitRes := 0 } else t) s

def opSgrd : Meaning := fun key i t s =>
  let g := t.segs[(Fin.ofNat 8 i.imm : Fin 8)]
  TStep.finish <| pushAll key [g.word0, g.word1] t s

/-! ### Waits and fences (R288, R291, R341) -/

/-- WAITC once its counter is at most n: it pushes the status word, loads XI and XF of a latched operation, and clears the latch
(R288). -/
def waitcTake (key : Nat) (k : Fin 4) (t : Thread) (s : State) : TStep Unit :=
  let c := t.cc[k]
  (push key c.word t s).andThen fun _ t s =>
    let t := match c.latch with
      | some l => { t with xi := l.xi, xf := l.xf }
      | none => t
    .ok () { t with cc := vmod t.cc k (fun c => { c with latch := none, more := false }) } s

def opWaitc : Meaning := fun key i t s =>
  let k : Fin 4 := Fin.ofNat 4 i.imm
  let n := bits i.imm 8 8
  if n < (t.cc[k]).out then .hold (.waitc k n) s else TStep.finish <| waitcTake key k t s

/-- Every access the thread issued earlier is performed at the fence's scope (R291): its own writes, its block copies, and the
engines' operations that are not held for a confirm (R292). -/
def fenceClear (key : Nat) (f : FenceScope) (t : Thread) (s : State) : Bool :=
  let own := match f with
    | .thread => t.unT
    | .device => t.unD
    | .system => t.unS
  decide (own = 0) && !s.th.copies.any (fun c => c.thread == key) && enginesQuiet key f s

/-- A fence holds its thread until its scope is clear. -/
def fence (f : FenceScope) (key : Nat) (t : Thread) (s : State) : Run :=
  if fenceClear key f t s then .done t none s else .hold (.fence f) s

def opFenceT : Meaning := fun key _ t s => fence .thread key t s
def opFenceD : Meaning := fun key _ t s => fence .device key t s
def opFenceS : Meaning := fun key _ t s => fence .system key t s

/-- A write of the thread becomes performed at a scope, and at every narrower one (R291). -/
def accessPerformed (key : Nat) (f : FenceScope) (s : State) : State :=
  modThread key (fun t => match f with
    | .thread => { t with unT := t.unT - 1 }
    | .device => { t with unD := t.unD - 1, unT := min t.unT (t.unD - 1) }
    | .system => { t with unS := t.unS - 1, unD := min t.unD (t.unS - 1), unT := min t.unT (t.unS - 1) }) s

end Sys2Proof.Machine
end

