-- ==== Sys2Proof/Machine/FabricBase.lean ====
section
/-! DEFINITION. The fabric's base (20_henur_fabric.md): messages and their bytes (R426–R428), sending under credits (R424, R425),
routes (R431), the shard directory (R434), and the counts behind the update and request ledgers (R451). -/

namespace Sys2Proof.Machine

open Sys2Proof

/-! ### Small changes -/

def modFab (f : Fabric → Fabric) (s : State) : State := { s with fab := f s.fab }
def modPort (p : Fin 9) (f : Port → Port) (s : State) : State := modFab (fun x => { x with ports := vmod x.ports p f }) s

/-- This device's fabric id; 0 until FABRIC_ID (R187). -/
def ownDev (s : State) : Nat := s.fab.id.getD 0

/-- Change the ledger counts of a peer (R451). -/
def modCount (peer : Nat) (f : PeerCount → PeerCount) (s : State) : State :=
  modFab (fun x => { x with counts := kvSet x.counts peer (f ((kvGet x.counts peer).getD {})) }) s

/-! ### Messages (R426–R428) -/

/-- A field of a message: `n` bytes at offset `o`. -/
def mfld (m : List Byte) (o n : Nat) : Nat := ofBytes ((m.drop o).take n)

/-- Put a field into a header under construction: `n` bytes of `x` at offset `o`. -/
def mput (o n x : Nat) (h : Nat) : Nat := h + x % 2 ^ (8 * n) * 2 ^ (8 * o)

/-- The 48-byte header with TYPE, DST, SRC, LEN and GEN (R426); `rest` holds bytes 12–47 in place. -/
def mhead (type dst len rest : Nat) (s : State) : List Byte :=
  toBytes 48 (type + dst % 512 * 2 ^ 16 + ownDev s * 2 ^ 32 + len * 2 ^ 48 + s.fab.gen % 2 ^ 32 * 2 ^ 64 + rest)

/-- Flits a message takes (R421). -/
def flitsOf (m : List Byte) : Nat := ceilDiv m.length 248

def mType (m : List Byte) : Nat := mfld m 0 1
def mHops (m : List Byte) : Nat := mfld m 1 1
def mDst (m : List Byte) : Nat := mfld m 2 2
def mSrc (m : List Byte) : Nat := mfld m 4 2
def mLen (m : List Byte) : Nat := mfld m 6 2
def mGen (m : List Byte) : Nat := mfld m 8 4

/-- The bytes of ROW_GET, ROW_DATA, ROW_ADD, ROW_ACK and ROW_NAK (R427). -/
def msgRowGet (g : RowGet) (s : State) : List Byte :=
  mhead 0x01 g.dest 48 (mput 12 4 g.req 0 + mput 16 1 (g.cls.val + 4 * b2n g.spec + 8 * b2n g.validate) 0
    + mput 17 1 g.version 0 + mput 18 3 g.table 0 + mput 24 6 g.row 0 + mput 32 6 g.track 0 + mput 40 3 g.frame 0) s

def msgRowData (dst req : Nat) (val current : Bool) (version frame track : Nat) (body : List Byte) (s : State) : List Byte :=
  mhead 0x02 dst (48 + body.length) (mput 12 4 req 0 + mput 16 1 (b2n val + 2 * b2n current) 0 + mput 17 1 version 0
    + mput 18 3 frame 0 + mput 24 6 track 0 + mput 32 6 s.stp.closed 0) s ++ body

def msgRowAdd (u : Update) (cls : Nat) (s : State) : List Byte :=
  let vals := u.values.flatMap (fun v => if u.bf16 then toBytes 2 (v.toNat / 2 ^ 16) else toBytes 4 v.toNat)
  let body := vals ++ u.draws.flatMap (fun d => toBytes 2 d)
  mhead 0x03 u.dest (48 + body.length) (mput 12 8 u.seqNo.toNat 0 + mput 20 6 u.step 0 + mput 26 3 u.table 0
    + mput 29 1 (b2n u.bf16 + 2 * b2n (!u.draws.isEmpty)) 0 + mput 32 6 u.row 0 + mput 40 1 cls 0) s ++ body

def msgRowAck (dst : Nat) (seqNo : W64) (dup parked : Bool) (s : State) : List Byte :=
  mhead 0x04 dst 48 (mput 12 8 seqNo.toNat 0 + mput 20 1 (b2n dup + 2 * b2n parked) 0 + mput 24 6 s.stp.closed 0) s

def msgRowNak (dst reason : Nat) (bySeq : Bool) (ref step : Nat) (s : State) : List Byte :=
  mhead 0x05 dst 48 (mput 12 1 reason 0 + mput 13 1 (b2n bySeq) 0 + mput 16 8 ref 0 + mput 24 4 s.fab.gen 0 + mput 32 6 step 0) s

/-- A CTRL message of a subtype (R428). -/
def msgCtrl (dst sub rest : Nat) (body : List Byte) (s : State) : List Byte :=
  mhead 0x09 dst (48 + body.length) (mput 12 1 sub 0 + rest) s ++ body

/-! ### Sending (R422, R424, R425) -/

/-- The port can send a waiting message now: credits, the 32 kept for answers, and the replay buffer (R422, R425). -/
def canSend (p : Port) (m : TxMsg) : Bool :=
  let n := flitsOf m.data
  let a := p.avail[m.vc]
  let credit := mType m.data == 0x06
  decide ((p.txSeq + 1024 - p.txAck) % 1024 + n ≤ 512)
    && (credit || if m.request && decide (m.vc.val < 4) then decide (32 + n ≤ a) else decide (n ≤ a))

/-- Send a message: its flits take credits and replay-buffer entries (R422, R425). -/
def sendNow (p : Fin 9) (m : TxMsg) (s : State) : State :=
  let n := flitsOf m.data
  let credit := mType m.data == 0x06
  emit (.fabric p m.vc m.data) (modPort p (fun x => { x with
    txSeq := (x.txSeq + n) % 1024,
    avail := if credit then x.avail else vmod x.avail m.vc (fun a => a - n) }) s)

/-- Send what can be sent of a port's waiting messages, VC4 first, each VC in order (R424). -/
def pumpVc (p : Fin 9) (vc : Fin 5) : (fuel : Nat) → State → State
  | 0, s => s
  | fuel + 1, s =>
    let x := s.fab.ports[p]
    match x.txq.find? (fun m => m.vc == vc) with
    | none => s
    | some m =>
      if canSend x m then
        pumpVc p vc fuel (sendNow p m (modPort p (fun y => { y with txq := y.txq.erase m }) s))
      else s

/-- Send on every VC of a port. -/
def pump (p : Fin 9) (s : State) : State :=
  let n := (s.fab.ports[p]).txq.length
  [4, 0, 1, 2, 3].foldl (fun s vc => pumpVc p (Fin.ofNat 5 vc) n s) s

/-- Hand a message to a port. A port that is not joined sends nothing (R439). -/
def sendOn (p : Fin 9) (vc : Nat) (request : Bool) (m : List Byte) (s : State) : State :=
  if (s.fab.ports[p]).state = .joined then
    pump p (modPort p (fun x => { x with txq := x.txq ++ [⟨Fin.ofNat 5 vc, request, m⟩] }) s)
  else s

/-- The routed port of a destination (R431). -/
def routeTo (dst : Nat) (s : State) : Option (Fin 9) := (kvGet s.fab.routes dst).map (Fin.ofNat 9)

/-- Send a routed message; answers whether there is a route. -/
def sendRouted (dst vc : Nat) (request : Bool) (m : List Byte) (s : State) : Bool × State :=
  match routeTo dst s with
  | some p => (true, sendOn p vc request m s)
  | none => (false, s)

/-- The upstream port resets, leaves or is fenced: a partial chain delivery is discarded (R516). -/
def chainLost (p : Fin 9) (s : State) : State :=
  match s.fw.staging with
  | some d => if d.chain && s.fw.chainUp == p.val then { s with fw := { s.fw with staging := none } } else s
  | none => s

/-! ### Routes (R431) -/

/-- Neighbours of a device by port, from the link state; this device's own from its joined ports. -/
def peersOf (u : Nat) (s : State) : List (Option Nat) :=
  if u = ownDev s then (List.finRange 9).map (fun p => if (s.fab.ports[p]).state = .joined then some (s.fab.ports[p]).peer else none)
  else match s.fab.links.find? (fun l => l.origin == u) with
  | some l => l.peers
  | none => []

/-- The neighbours of a device. -/
def neighbours (u : Nat) (s : State) : List Nat := (peersOf u s).filterMap id

/-- Breadth-first levels from a set of devices: (device, distance). -/
def spread (s : State) : (fuel : Nat) → (d : Nat) → List Nat → List (Nat × Nat) → List (Nat × Nat)
  | 0, _, _, seen => seen
  | fuel + 1, d, front, seen =>
    let next := (front.flatMap (fun u => neighbours u s)).eraseDups.filter (fun v => !seen.any (fun x => x.1 == v))
    if next.isEmpty then seen else spread s fuel (d + 1) next (seen ++ next.map (fun v => (v, d + 1)))

/-- Every device connected to this one, with its hop distance. -/
def connected (s : State) : List (Nat × Nat) := spread s 512 0 [ownDev s] [(ownDev s, 0)]

/-- The levels of R431: hop distance from the lowest id of the connected fabric. -/
def levels (s : State) : List (Nat × Nat) :=
  let root := (connected s).foldl (fun m x => min m x.1) (ownDev s)
  spread s 512 0 [root] [(root, 0)]

/-- A hop from `u` to `v` goes up (R431). -/
def goesUp (lv : List (Nat × Nat)) (u v : Nat) : Bool :=
  let l (x : Nat) := ((lv.find? (fun y => y.1 == x)).map (·.2)).getD 0
  decide (l v * 512 + v < l u * 512 + u)

/-- Shortest legal distances from a set of (device, has gone down) states: breadth first. -/
def legalSpread (lv : List (Nat × Nat)) (s : State) : (fuel : Nat) → (d : Nat) → List (Nat × Bool) →
    List ((Nat × Bool) × Nat) → List ((Nat × Bool) × Nat)
  | 0, _, _, seen => seen
  | fuel + 1, d, front, seen =>
    let next := (front.flatMap (fun u => (neighbours u.1 s).filterMap (fun v =>
      if goesUp lv u.1 v then (if u.2 then none else some (v, false)) else some (v, true)))).eraseDups
    let next := next.filter (fun v => !seen.any (fun x => x.1 == v))
    if next.isEmpty then seen else legalSpread lv s fuel (d + 1) next (seen ++ next.map (fun v => (v, d + 1)))

/-- The distance to every device over a first hop through port `p`. -/
def viaPort (lv : List (Nat × Nat)) (p : Fin 9) (s : State) : List ((Nat × Bool) × Nat) :=
  let x := s.fab.ports[p]
  if x.state = .joined then
    let st := (x.peer, !goesUp lv (ownDev s) x.peer)
    legalSpread lv s 1024 1 [st] [(st, 1)]
  else []

/-- The routes of R431: for each device, the lowest-numbered port of a shortest legal path. -/
def computeRoutes (s : State) : List (Nat × Nat) :=
  let lv := levels s
  let via := (List.finRange 9).map (fun p => (p.val, viaPort lv p s))
  let dist (x : List ((Nat × Bool) × Nat)) (dst : Nat) : Option Nat :=
    x.foldl (fun m y => if y.1.1 = dst then some (min (m.getD y.2) y.2) else m) none
  (connected s).filterMap (fun d =>
    if d.1 = ownDev s then none
    else
      let best := via.foldl (fun (b : Option (Nat × Nat)) v =>
        match dist v.2 d.1, b with
        | some k, none => some (k, v.1)
        | some k, some (kb, pb) => if k < kb then some (k, v.1) else some (kb, pb)
        | none, b => b) none
      best.map (fun b => (d.1, b.2)))
  |>.foldl (fun m x => kvSet m x.1 x.2) []

/-! ### The shard directory (R434) -/

/-- The owner of a row (R434). -/
def ownerOf (table row : Nat) (s : State) : Nat :=
  let es := s.fab.shards.filter (fun e => e.table == table)
  match es with
  | [] => ownDev s
  | e :: _ =>
    if e.kind = 0 then e.device
    else if e.kind = 1 then ((es.filter (fun x => decide (x.first ≤ row))).foldl (fun _ x => x.device) e.device)
    else ((es.find? (fun x => x.first == row % max 1 e.modulus)).map (·.device)).getD e.device

/-- The close peer set (R384): every other device that owns an entry of the shard map, less orderly leavers (R392). -/
def peerSet (s : State) : List Nat :=
  ((s.fab.shards.map (·.device)).eraseDups).filter (fun d => d != ownDev s && !s.stp.left.contains d)

/-! ### Row requests (R435) -/

/-- The ROW_GET of an element's component, if one is outstanding. -/
def getFor (op elem comp : Nat) (s : State) : Option RowGet :=
  s.fab.gets.find? (fun g => g.op == op && g.elem == elem && g.comp == comp)

/-- Change the request with this REQ. -/
def modGet (req : Nat) (f : RowGet → RowGet) (s : State) : State :=
  modFab (fun x => { x with gets := modFirst (fun g => g.req == req) f x.gets }) s

/-- Drop the request with this REQ. -/
def dropGet (req : Nat) (s : State) : State := modFab (fun x => { x with gets := x.gets.filter (fun g => g.req != req) }) s

/-- Send a request, or fail it where there is no route (R432, R436). -/
def transmitGet (g : RowGet) (s : State) : State :=
  let (ok, s) := sendRouted g.dest g.cls.val true (msgRowGet g s) (modCount g.dest (fun c => { c with gets := c.gets + 1 }) s)
  if ok then s
  else modGet g.req (fun g => { g with result := some (.fault 0x20) })
    (modCount g.dest (fun c => { c with answered := c.answered + 1 }) s)

/-- Originate a ROW_GET; at most 16,384 are outstanding (R435). -/
def sendGet (g : RowGet) (s : State) : State :=
  if 16384 ≤ s.fab.gets.length then s
  else
    let g := { g with req := s.fab.nextReq }
    transmitGet g (modFab (fun x => { x with nextReq := (x.nextReq + 1) % 2 ^ 32, gets := x.gets ++ [g] }) s)

end Sys2Proof.Machine
end

