-- ==== Sys2Proof/Machine/StepState.lean ====
section
/-! DEFINITION. Live steps and the speculation window as the engines see them (01, R16–R22; 17, R361–R366), and the step journal
(18, R393). -/

namespace Sys2Proof.Machine

open Sys2Proof

def modStp (f : StepUnit → StepUnit) (s : State) : State := { s with stp := f s.stp }

/-- The live step `n`. -/
def stepOf (n : Nat) (s : State) : Option Step := s.stp.live.find? (fun x => x.num == n)

/-- Change the live step `n`. -/
def modStep (n : Nat) (f : Step → Step) (s : State) : State :=
  modStp (fun x => { x with live := modFirst (fun y => y.num == n) f x.live }) s

/-- The step in confirm phase, if any (R18). -/
def confirmOf (s : State) : Option Step := s.stp.live.find? (fun x => x.phase == .confirm)

/-- The step that closes, with its stage. -/
def closingOf (s : State) : Option (Step × Nat) :=
  s.stp.live.findSome? (fun x => match x.phase with
    | .closing k => some (x, k)
    | _ => none)

/-- The window of step `n` is OPEN (R348, R362). -/
def windowOpen (n : Nat) (s : State) : Bool :=
  match s.stp.window with
  | some w => w.step == n && w.state == .opened
  | none => false

/-- A window is OPEN or VALIDATING (R22). -/
def windowLive (s : State) : Bool :=
  match s.stp.window with
  | some w => w.state == .opened || w.state == .validating
  | none => false

/-- Change the window. -/
def modWindow (f : Window → Window) (s : State) : State := modStp (fun x => { x with window := x.window.map f }) s

/-- Append a step-journal record (R393). -/
def stepJournal (kind stage step : Nat) (a b c : W64) (s : State) : State :=
  modStp (fun x => { x with journal := (⟨x.journalNext, kind, stage, step, a, b, c⟩ :: x.journal).take 262144,
                            journalNext := x.journalNext + 1 }) s

/-- The 64 bytes of a record with its CRC (R393). -/
def JournalRec.bytes (r : JournalRec) : List Byte :=
  let head := toBytes 8 r.num ++ [BitVec.ofNat 8 r.kind, BitVec.ofNat 8 r.stage] ++ toBytes 6 r.step
    ++ toBytes 8 r.a.toNat ++ toBytes 8 r.b.toNat ++ toBytes 8 r.c.toNat ++ toBytes 16 0
  head ++ toBytes 4 (crc32 head) ++ toBytes 4 0

end Sys2Proof.Machine
end

