-- ==== Sys2Proof/Machine/Hook.lean ====
section
/-! DEFINITION. The Hook and the Bag Unit (16_gather_and_pool.md): the descriptor (R346), acceptance (R347, R348), fetch and commit
(R349–R351), pooling arithmetic and conversion (R352, R353), result records (R354), faults (R355–R357), and what a speculative
operation holds back (17, R362–R369). -/

namespace Sys2Proof.Machine

open Sys2Proof

/-! ### The descriptor (R346) -/

/-- Bits `lo … lo+n-1` of byte `o` on. -/
def HookOp.fld (x : HookOp) (o lo n : Nat) : Nat := bits x.desc.toNat (8 * o + lo) n

def HookOp.table (x : HookOp) : Nat := x.fld 0 0 20
def HookOp.idxSeg (x : HookOp) : Fin 8 := Fin.ofNat 8 (x.fld 4 0 3)
def HookOp.idxBytes (x : HookOp) : Nat := if x.fld 4 3 1 = 1 then 4 else 8
def HookOp.wgtSeg (x : HookOp) : Fin 8 := Fin.ofNat 8 (x.fld 4 4 3)
def HookOp.wgtEn (x : HookOp) : Bool := x.fld 4 7 1 == 1
def HookOp.outSeg (x : HookOp) : Fin 8 := Fin.ofNat 8 (x.fld 5 0 3)
def HookOp.toStaging (x : HookOp) : Bool := x.fld 5 3 1 == 1
def HookOp.outFmt (x : HookOp) : Nat := x.fld 5 4 2
def HookOp.mean (x : HookOp) : Bool := x.fld 5 6 1 == 1
def HookOp.specBit (x : HookOp) : Bool := x.fld 5 7 1 == 1
def HookOp.ofsSeg (x : HookOp) : Fin 8 := Fin.ofNat 8 (x.fld 6 0 3)
def HookOp.resEn (x : HookOp) : Bool := x.fld 6 3 1 == 1
def HookOp.resSeg (x : HookOp) : Fin 8 := Fin.ofNat 8 (x.fld 6 4 3)
def HookOp.stepValid (x : HookOp) : Bool := x.fld 6 7 1 == 1
def HookOp.srcSeg (x : HookOp) : Fin 8 := Fin.ofNat 8 (x.fld 7 0 3)
def HookOp.count (x : HookOp) : Nat := x.fld 8 0 17
def HookOp.bags (x : HookOp) : Nat := x.fld 12 0 17
def HookOp.idxOff (x : HookOp) : Nat := x.fld 16 0 64
def HookOp.outOff (x : HookOp) : Nat := x.fld 24 0 64
def HookOp.wgtOff (x : HookOp) : Nat := x.fld 32 0 64
def HookOp.ofsOff (x : HookOp) : Nat := x.fld 40 0 64
def HookOp.step (x : HookOp) : Nat := x.fld 48 0 48
def HookOp.rowBytes (x : HookOp) : Nat := x.fld 54 0 13
def HookOp.strideField (x : HookOp) : Nat := x.fld 56 0 32
def HookOp.resOff (x : HookOp) : Nat := x.fld 60 0 32

/-- The bits the descriptor's fields cover. -/
def hookMask : Nat :=
  maskAt 0 20 + maskAt 32 8 + maskAt 40 8 + maskAt 48 8 + maskAt 56 3 + maskAt 64 17 + maskAt 96 17 + maskAt 128 304
    + maskAt 432 13 + maskAt 448 64

/-- The width of the operation's rows. -/
def HookOp.width (x : HookOp) (s : State) : Nat :=
  match tableOf x.table s with
  | some t => t.width
  | none => 0

/-- Bytes of one output element. -/
def HookOp.outElem (x : HookOp) (s : State) : Nat :=
  if x.outFmt = 0 then
    (match x.kind, tableOf x.table s with
     | .addr, _ => 1
     | _, some t => if t.format ≤ 4 then elemBytes t.format else 1
     | _, none => 1)
  else if x.outFmt = 1 then 4 else 2

/-- The output size of one element or bag (R346). -/
def HookOp.outSize (x : HookOp) (s : State) : Nat :=
  if x.outFmt = 0 then
    (match x.kind, tableOf x.table s with
     | .addr, _ => x.rowBytes
     | _, some t => t.rowBytes
     | _, none => 0)
  else x.width s * x.outElem s

/-- The stride between outputs (R346). -/
def HookOp.stride (x : HookOp) (s : State) : Nat := if x.strideField = 0 then x.outSize s else x.strideField

/-- Outputs of the operation. -/
def HookOp.outputs (x : HookOp) : Nat := if x.kind = .pool then x.bags else x.count

/-- Bytes from the first output to the end of the last. -/
def HookOp.extent (x : HookOp) (s : State) : Nat :=
  if x.outputs = 0 then 0 else (x.outputs - 1) * x.stride s + x.outSize s

/-- The accessor of the Hook's accesses (R248). -/
def HookOp.who (x : HookOp) : Accessor := ⟨1, x.tile.val, x.cls.val, x.spec, 0⟩

/-! ### Row buffers (R351, R363) -/

/-- Buffers of a fetched element: both component rows of a composed one (R351). -/
def fetchedBufs (f : Fetched) : Nat := (f.rows.map (fun r => ceilDiv r.length 256)).sum

/-- Buffers an operation holds now. -/
def HookOp.buffers (x : HookOp) : Nat := x.bufs + x.packetBufs + (x.fetched.map fetchedBufs).sum

/-- Row buffers of a tile in use: operations, held packets, retained operations. -/
def buffersUsed (tile : Nat) (s : State) : Nat :=
  (((s.tl.hooks ++ s.tl.retained).filter (fun x => x.tile.val == tile)).map (·.buffers)).sum

/-- Buffers of one row of the operation. -/
def HookOp.rowBufs (x : HookOp) (s : State) : Nat :=
  match x.kind, tableOf x.table s with
  | .addr, _ => ceilDiv x.rowBytes 256
  | _, some t =>
    if t.index = 2 then
      ((tableOf t.compQ.toNat s).map (fun c => ceilDiv c.rowBytes 256)).getD 1
        + ((tableOf t.compR.toNat s).map (fun c => ceilDiv c.rowBytes 256)).getD 1
    else ceilDiv t.rowBytes 256
  | _, none => 1

/-- Buffers of the accumulator (R351). -/
def HookOp.accBufs (x : HookOp) (s : State) : Nat := if x.kind = .pool then ceilDiv (4 * x.width s) 256 else 0

/-- Buffers of the held packet (R363). -/
def HookOp.heldBufs (x : HookOp) (s : State) : Nat := if x.spec then ceilDiv (x.outputs * x.outSize s) 256 else 0

/-- Held-packet buffers of a tile (R363). -/
def heldUsed (tile : Nat) (s : State) : Nat := ((s.tl.hooks.filter (fun x => x.tile.val == tile)).map (·.packetBufs)).sum

/-! ### Acceptance (R347, R348) -/

/-- Replace a Hook operation. -/
def putHook (x : HookOp) (s : State) : State :=
  { s with tl := { s.tl with hooks := modFirst (fun y => y.id == x.id) (fun _ => x) s.tl.hooks } }

/-- The Hook operation with this id. -/
def hookOf (id : Nat) (s : State) : Option HookOp := s.tl.hooks.find? (fun x => x.id == id)

/-- Remove a Hook operation; its sector requests pass into its tile's totals (R451). -/
def dropHook (id : Nat) (s : State) : State :=
  let s := match hookOf id s with
    | some x => { s with tl := { s.tl with
        reqIssued := vmod s.tl.reqIssued x.tile (fun n => n + x.issuedReq)
        reqCommitted := vmod s.tl.reqCommitted x.tile (fun n => n + x.committedReq) } }
    | none => s
  { s with tl := { s.tl with hooks := s.tl.hooks.filter (fun x => x.id != id) } }

/-- Sector requests of a fetched element. -/
def fetchedSectors (rows : List (List Byte)) : Nat := (rows.map (fun r => ceilDiv r.length 32)).sum

/-- Step 1 of R347, as far as the descriptor alone decides it. -/
def HookOp.fieldsOk (x : HookOp) : Bool :=
  let isPool := decide (x.kind = .pool)
  let isAddr := decide (x.kind = .addr)
  decide (x.desc.toNat - (x.desc.toNat &&& hookMask) = 0)
    && decide (x.count ≤ 65536)
    && (if isPool then decide (1 ≤ x.bags ∧ x.bags ≤ 65536) else x.bags == 0)
    && (isPool || (!x.wgtEn && !x.mean && x.fld 6 0 3 == 0))
    && (if isAddr then x.table == 0 && decide (1 ≤ x.rowBytes ∧ x.rowBytes ≤ 4096) && x.outFmt == 0 else x.rowBytes == 0)
    && (isAddr || x.fld 7 0 3 == 0)
    && (!isPool || x.outFmt != 0)
    && (!x.specBit || x.stepValid)
    && (!x.toStaging || (x.fld 5 0 3 == 0 && decide (x.outOff % 32 = 0 ∧ x.strideField % 32 = 0)))
    && decide (x.resOff % 32 = 0)

/-- The rest of step 1, which needs the table (R346, R347). -/
def HookOp.sizesOk (x : HookOp) (s : State) : Bool :=
  let composed := match x.kind, tableOf x.table s with
    | .addr, _ => false
    | _, some t => t.index == 2
    | _, none => false
  !(x.outFmt == 0 && composed)
    && (x.strideField == 0 || decide (x.outSize s ≤ x.strideField ∧ x.strideField % x.outElem s = 0))
    && (!x.toStaging || decide (x.outOff + x.extent s ≤ 2 ^ 22))

/-- The step binding of R348. -/
def HookOp.stepOk (x : HookOp) (s : State) : Bool :=
  if !x.stepValid then true
  else match stepOf x.step s with
  | none => false
  | some st => if x.specBit then st.phase == .opened && windowOpen x.step s else st.phase == .confirm

/-- One range of step 5: segment, offset, bytes, whether it is written. -/
structure HookRange where
  seg : Fin 8
  off : Nat
  len : Nat
  write : Bool
deriving DecidableEq, Repr

/-- The ranges of step 5 in its order. -/
def HookOp.ranges (x : HookOp) (s : State) : List HookRange :=
  [⟨x.idxSeg, x.idxOff, x.count * x.idxBytes, false⟩]
    ++ (if x.wgtEn then [⟨x.wgtSeg, x.wgtOff, x.count * 4, false⟩] else [])
    ++ (if x.kind = .pool then [⟨x.ofsSeg, x.ofsOff, (x.bags + 1) * 4, false⟩] else [])
    ++ (if x.toStaging then [] else [⟨x.outSeg, x.outOff, x.extent s, true⟩])
    ++ (if x.resEn then [⟨x.resSeg, x.resOff, 32, true⟩] else [])

/-- The range passes R303. -/
def HookOp.rangeOk (x : HookOp) (r : HookRange) : Bool :=
  (x.segs[r.seg]).allows (fun g => if r.write then g.w else g.r) r.off r.len

/-- The start address of a range. -/
def HookOp.rangeVa (x : HookOp) (r : HookRange) : Nat := (x.segs[r.seg]).va r.off

/-- The output extent overlaps an input range (R347 step 5). -/
def HookOp.outOverlaps (x : HookOp) (s : State) : Bool :=
  !x.toStaging && (x.ranges s).any (fun r => !r.write &&
    overlaps ((x.segs[x.outSeg]).va x.outOff) (x.extent s) (x.rangeVa r) r.len)

/-- An input range of a speculative operation that is not wholly in PLAIN pages of T1 (R362). -/
def HookOp.specRange (x : HookOp) (s : State) : Option HookRange :=
  (x.ranges s).find? (fun r => !r.write && (accessPieces (x.rangeVa r) r.len).any (fun p =>
    match plainPa x.tag.toNat p.1 s with
    | .at _ => false
    | _ => true))

/-- How the checks of R347 up to step 5 end: accepted, or status and XF. -/
def HookOp.verdict (x : HookOp) (s : State) : Option (Nat × W64) :=
  let bad (st : Nat) : Option (Nat × W64) := some (st, xfWord st 0 false 0)
  if !x.fieldsOk then bad stMalformed
  else if x.specBit && !granted 1 s then bad stFeature
  else if decide (x.kind ≠ .addr) && (tableOf x.table s).isNone then bad stState
  else if !x.sizesOk s then bad stMalformed
  else if !x.stepOk s then bad stState
  else match (x.ranges s).find? (fun r => !x.rangeOk r) with
  | some r => some (stSegment, xfWord stSegment r.seg.val r.write (x.rangeVa r))
  | none =>
    if x.outOverlaps s then bad stMalformed
    else match (if x.specBit then x.specRange s else none) with
    | some r => some (stTranslation, xfWord stTranslation r.seg.val false (x.rangeVa r))
    | none => none

/-- The offsets are 0 first, COUNT last, and never fall (R347 step 6). -/
def offsetsOk (ofs : List Nat) (count : Nat) : Bool :=
  ofs.head? == some 0 && ofs.getLast? == some count
    && (ofs.zip ofs.tail).all (fun p => decide (p.1 ≤ p.2))

/-- What acceptance comes to. -/
inductive AcceptEnd where
  | accepted (x : HookOp)
  | ended (status : Nat) (xf : W64)
  | stalled (x : HookOp)
  /-- the first claim waits (R295) -/
  | wait (res : Nat)
  | later

/-- The first resource claim of R347 step 7, R351 and R363. -/
def hookClaim (x : HookOp) (same : Bool) (s : State) : AcceptEnd × State :=
  let held := x.heldBufs s
  let units := x.accBufs s + x.rowBufs s + held
  if x.spec ∧ 4096 < heldUsed x.tile.val s + held then
    (.ended stCapacity (xfWord stCapacity 0 false resBuffers), s)
  else match decideClaim resBuffers x.tile.val (buffersUsed x.tile.val s) x.cls units true same s with
  | (.granted, s) =>
    (.accepted { x with accepted := true, bufs := x.accBufs s + x.rowBufs s, packetBufs := held,
                          acc := if x.kind = .pool then List.replicate (x.width s) 0 else [] }, s)
  | (.wait, s) => (.wait resBuffers, s)
  | (.capacity, s) => (.ended stCapacity (xfWord stCapacity 0 false resBuffers), s)
  | (.race, s) => (.ended stRace (xfWord stRace 0 false resBuffers), s)

/-- Check a descriptor in the order of R347. -/
def hookAccept (x : HookOp) (same : Bool) (s : State) : AcceptEnd × State :=
  match x.verdict s with
  | some (st, xf) => (.ended st xf, s)
  | none =>
    if x.kind ≠ .pool then hookClaim x same s
    else
      let va := (x.segs[x.ofsSeg]).va x.ofsOff
      match xRead x.who x.tag.toNat va ((x.bags + 1) * 4) .read s with
      | (.stall w, s) => (.stalled { x with stall := w, stallXf := xfWord 0 x.ofsSeg.val false va }, s)
      | (.fault st, s) => (.ended st (xfWord st x.ofsSeg.val false va), s)
      | (.suppressed, s) => (.ended stTranslation (xfWord stTranslation x.ofsSeg.val false va), s)
      | (.wait, s) => (.later, s)
      | (.data bs, s) =>
        let ofs := (List.range (x.bags + 1)).map (fun i => ofBytes ((bs.drop (4 * i)).take 4))
        if offsetsOk ofs x.count then hookClaim { x with ofs := ofs } same s
        else (.ended stMalformed (xfWord stMalformed 0 false 0), s)

/-! ### Fetching an element (R349, R355, R360) -/

/-- What fetching an element comes to. -/
inductive ElemEnd where
  | rows (rs : List (List Byte)) (recs : List ReadRec)
  | stall (why : Stall) (xf : W64)
  | fault (status : Nat) (xf : W64)
  /-- an answer is outstanding, or the host cannot be reached -/
  | pending
deriving DecidableEq, Repr

/-- A read of the Hook in one of its input ranges. -/
def hookInput (x : HookOp) (seg : Fin 8) (off n : Nat) (s : State) : ElemEnd × State :=
  let va := (x.segs[seg]).va off
  match xRead x.who x.tag.toNat va n .read s with
  | (.data bs, s) => (.rows [bs] [], streamAccess x.tile false x.tag.toNat va n s)
  | (.stall w, s) => (.stall w (xfWord 0 seg.val false va), s)
  | (.fault st, s) => (.fault st (xfWord st seg.val false va), s)
  | (.suppressed, s) => (.fault stTranslation (xfWord stTranslation seg.val false va), s)
  | (.wait, s) => (.pending, s)

/-- The stack and class of a resident primary, seen from a tile; a primary elsewhere has the class of its tier (R39). -/
def primaryAt (t : Table) (slot tile : Nat) (s : State) : CopyAt :=
  match dirEntry t (t.slotBlock slot) s with
  | some d =>
    if d.loc = 1 then
      let k := (stackOf (d.frame * 65536)).val
      ⟨16 + k, stackClass tile k, none⟩
    else ⟨16, 5, none⟩
  | none => ⟨16, 5, none⟩

/-- Read a row this device owns; `ecc` is how the first sector of its primary decodes (R207, R355). -/
def localRow (who : Accessor) (id : Nat) (t : Table) (row elem : Nat) (ecc : Ecc) (s : State) : ElemEnd × State :=
  match t.slot row with
  | none => (.fault stIndex (xfWord stIndex 0 false 0), logErr .contained 0x46 .table 0 id row s)
  | some slot =>
    let tile := who.unit
    let blk := t.slotBlock slot
    let c := pickCopy row tile (primaryAt t slot tile s) (rowCopies id row tile s)
    let frame := ((dirEntry t blk s).map (·.frame)).getD 0
    match c.data with
    | some (bs, v) => (.rows [bs] [⟨elem, id, row, blk, frame, v, .copy, false⟩], s)
    | none =>
      let va := t.slotVa slot
      let s := match resolve t.tag.toNat va .read s with
        | .t1 pa _ => eccRead pa ecc s
        | _ => s
      match xRead who t.tag.toNat va t.rowBytes .read s with
      | (.data bs, s) =>
        let f := ((dirEntry t blk s).map (·.frame)).getD 0
        let v := sectorVersion (f * 65536 + t.slotOffset slot) s
        (.rows [bs] [⟨elem, id, row, blk, f, v, .primary, false⟩],
          streamAccess (Fin.ofNat 16 tile) false t.tag.toNat va t.rowBytes s)
      | (.stall w, s) => (.stall w (xfWord 0 0 false va), s)
      | (.fault st, s) => (.fault st (xfWord st 0 false (firstFaultVa who t.tag.toNat va t.rowBytes s)), s)
      | (.suppressed, s) => (.fault stTranslation (xfWord stTranslation 0 false va), s)
      | (.wait, s) => (.pending, s)

/-- Read a row of another device: send its ROW_GET, or take what the answer brought (R349, R435, R436). -/
def remoteRow (x : HookOp) (id row elem comp : Nat) (s : State) : ElemEnd × State :=
  match getFor x.id elem comp s with
  | none =>
    (.pending, sendGet ⟨0, ownerOf id row s, x.cls, x.spec, false, id, row, 0, 0, 0, x.id, elem, comp, .answer, none⟩ s)
  | some g =>
    match g.result with
    | none => (.pending, s)
    | some (.fault st) => (.fault st (xfWord st 0 false 0), dropGet g.req s)
    | some (.row bs) =>
      (.rows [bs] [⟨elem, id, row, row, g.frame, BitVec.ofNat 7 g.version, .remote g.dest g.track none, false⟩], dropGet g.req s)

/-- Fetch one row of a table for an element: R203, R204, then the owner of R434. -/
def fetchRow (x : HookOp) (id : Nat) (index : W64) (elem comp : Nat) (ecc : Ecc) (s : State) : ElemEnd × State :=
  match tableOf id s with
  | none => (.fault stTranslation (xfWord stTranslation 0 false 0), s)
  | some t =>
    match t.rowOf index with
    | none => (.fault stIndex (xfWord stIndex 0 false 0), s)
    | some row => if ownerOf id row s = ownDev s then localRow x.who id t row elem ecc s else remoteRow x id row elem comp s

/-- Fetch both component rows of a composed element; the earlier component's fault is the one reported (R205). -/
def fetchComposed (x : HookOp) (t : Table) (row elem : Nat) (ecc : Ecc) (s : State) : ElemEnd × State :=
  let q := BitVec.ofNat 64 (row / max 1 t.modulus)
  let r := BitVec.ofNat 64 (row % max 1 t.modulus)
  match fetchRow x t.compQ.toNat q elem 0 ecc s with
  | (.rows a ra, s) =>
    match fetchRow x t.compR.toNat r elem 1 .clean s with
    | (.rows b rb, s) => (.rows (a ++ b) (ra ++ rb), s)
    | e => e
  | e => e

/-- Fetch element `j` (R349, R360). -/
def fetchElem (x : HookOp) (j : Nat) (ecc : Ecc) (s : State) : ElemEnd × State :=
  match hookInput x x.idxSeg (x.idxOff + j * x.idxBytes) x.idxBytes s with
  | (.rows (bs :: _) _, s) =>
    let v := ofBytes bs
    match x.kind with
    | .addr =>
      let g := x.segs[x.srcSeg]
      let va := g.va v
      if !g.allows (·.r) v x.rowBytes then (.fault stSegment (xfWord stSegment x.srcSeg.val false va), s)
      else
        match hookInput x x.srcSeg v x.rowBytes s with
        | (.rows rs _, s) =>
          let recs := (accessPieces va x.rowBytes).filterMap (fun p =>
            match resolve x.tag.toNat p.1 .read s with
            | .t1 pa blk =>
              some ⟨j, (blk.getD (0, 0)).1, 0, (blk.getD (0, frameOf pa)).2, frameOf pa, frameVersion (frameOf pa) s, .primary, false⟩
            | _ => none)
          (.rows rs recs, s)
        | e => e
    | _ =>
      match tableOf x.table s with
      | none => (.fault stTranslation (xfWord stTranslation 0 false 0), s)
      | some t =>
        if t.index = 2 then
          match t.rowOf (BitVec.ofNat 64 v) with
          | none => (.fault stIndex (xfWord stIndex 0 false 0), s)
          | some row => fetchComposed x t row j ecc s
        else fetchRow x x.table (BitVec.ofNat 64 v) j 0 ecc s
  | (.rows [] _, s) => (.pending, s)
  | e => e

/-! ### Decoding, accumulation, conversion (R352, R353) -/

/-- Decode a fetched element to FP32 with its flushed inputs (R200, R201, R205). -/
def decodeElem (x : HookOp) (rows : List (List Byte)) (s : State) : List W32 × Nat :=
  match tableOf x.table s, rows with
  | some t, [bs] => rowDecode t.format t.width t.codeSigned bs
  | some t, [a, b] =>
    match tableOf t.compQ.toNat s, tableOf t.compR.toNat s with
    | some q, some r =>
      let (va, za) := rowDecode q.format q.width q.codeSigned a
      let (vb, zb) := rowDecode r.format r.width r.codeSigned b
      let v := if t.combine = 2 then va ++ vb
        else (va.zip vb).map (fun p => if t.combine = 0 then toF32 ((f32 p.1).add (f32 p.2)) else toF32 ((f32 p.1).mul (f32 p.2)))
      (v, za + zb)
    | _, _ => ([], 0)
  | _, _ => ([], 0)

/-- Convert FP32 values to OUT_FMT 1–3 (R353). -/
def convertOut (outFmt : Nat) (vs : List W32) : List Byte × Counts :=
  let f := if outFmt = 1 then fp32 else if outFmt = 2 then bf16 else fp16
  let rs := vs.map (fun v => f.convert .even false (f32 v))
  (rs.flatMap (fun r => toBytes (f.width / 8) r.1), rs.foldl (fun c r => c.plus r.2) {})

/-- The fused step of R352: acc + w × v with one rounding. -/
def fuse (acc w v : W32) : W32 := toF32 ((f32 acc).add ((f32 w).mul (f32 v)))

/-- The vector a finished bag writes, and what it counts (R352). -/
def bagVector (x : HookOp) : List Byte × Counts × Nat :=
  let vs := if x.mean ∧ 0 < x.inBag then x.acc.map (fun a => toF32 ((f32 a).divNat x.inBag)) else x.acc
  let (bs, c) := convertOut x.outFmt vs
  (bs, c, b2n (x.mean && x.inBag == 0))

/-! ### Committing (R349) -/

/-- What a commit comes to. -/
inductive CommitEnd where
  | ok (x : HookOp)
  | stall (why : Stall) (xf : W64)
  | fault (status : Nat) (xf : W64)
  | later
deriving DecidableEq, Repr

/-- Issue output `i` to its destination: the held packet, staging, or the output segment (R349, R363). -/
def writeOut (x : HookOp) (i : Nat) (bs : List Byte) (s : State) : CommitEnd × State :=
  if x.spec then (.ok { x with packet := kvSet x.packet i bs }, s)
  else
    let off := x.outOff + i * x.stride s
    if x.toStaging then
      (.ok x, { s with tl := { s.tl with staging := vmod s.tl.staging x.tile (fun m => cellsWrite m off bs) } })
    else
      let va := (x.segs[x.outSeg]).va off
      match xStore x.who x.tag.toNat va bs s with
      | (.done, s) => (.ok x, streamAccess x.tile false x.tag.toNat va bs.length s)
      | (.stall w, s) => (.stall w (xfWord 0 x.outSeg.val true va), s)
      | (.fault st, s) => (.fault st (xfWord st x.outSeg.val true va), s)
      | (.wait, s) => (.later, s)

/-- The bag under way ends with the element before `next`. -/
def HookOp.bagDone (x : HookOp) : Bool := decide (x.bag < x.bags) && x.ofs[x.bag + 1]? == some x.next

/-- A new bag begins. -/
def HookOp.newBag (x : HookOp) : HookOp :=
  { x with bag := x.bag + 1, inBag := 0, acc := x.acc.map (fun _ => 0), bagsOut := x.bagsOut + 1 }

/-- A speculative operation keeps the counts of each held output by itself, so that an output read again is counted once (R354,
R375). -/
def HookOp.holdCounts (x : HookOp) (i : Nat) (own c : Counts) : HookOp :=
  if x.spec then { x with cnt := {}, held := kvSet x.held i (own.plus c) } else x

/-- Finish every bag that is complete (R349, R352). -/
def finishBags : (fuel : Nat) → HookOp → State → CommitEnd × State
  | 0, x, s => (.ok x, s)
  | fuel + 1, x, s =>
    if !x.bagDone then (.ok x, s)
    else
      let held := kvGet x.packet x.bag
      let (bs, c, e) := match held with
        | some bs => (if x.spec then bagVector x else (bs, {}, (bagVector x).2.2))
        | none => bagVector x
      match writeOut x x.bag bs s with
      | (.ok y, s) =>
        finishBags fuel ({ y.newBag with cnt := y.cnt.plus c, empty := y.empty + e }.holdCounts x.bag y.cnt c) s
      | r => r

/-- Commit the fetched rows of element `next` (R349, R352). -/
def commitElem (x : HookOp) (rows : List (List Byte)) (s : State) : CommitEnd × State :=
  let adv (y : HookOp) : HookOp := { y with next := y.next + 1, committed := y.committed + 1,
                                              committedReq := y.committedReq + fetchedSectors rows,
                                              fetched := y.fetched.filter (fun f => f.elem != x.next) }
  match x.kind with
  | .pool =>
    let weight : ElemEnd × State :=
      if x.wgtEn then hookInput x x.wgtSeg (x.wgtOff + 4 * x.next) 4 s else (.rows [toBytes 4 0x3F800000] [], s)
    match weight with
    | (.rows (w :: _) _, s) =>
      let (vs, z) := decodeElem x rows s
      let (wn, wz) := fp32.decode (ofBytes w)
      let acc := (x.acc.zip vs).map (fun p => fuse p.1 (toF32 wn) p.2)
      finishBags (x.bags + 1) (adv { x with acc := acc, inBag := x.inBag + 1,
                                              cnt := x.cnt.plus { ftzIn := z + b2n wz } }) s
    | (.stall w xf, s) => (.stall w xf, s)
    | (.fault st xf, s) => (.fault st xf, s)
    | (_, s) => (.later, s)
  | _ =>
    let (bs, c) := if x.outFmt = 0 then (rows.flatten, {}) else
      let (vs, z) := decodeElem x rows s
      let (bs, c) := convertOut x.outFmt vs
      (bs, c.plus { ftzIn := z })
    match writeOut x x.next bs s with
    | (.ok y, s) => (.ok (adv ({ y with cnt := y.cnt.plus c }.holdCounts x.next y.cnt c)), s)
    | r => r

/-- A bag or output that the confirm found unchanged stands in the packet and is written without a fetch (R375). -/
def packetNext (x : HookOp) : Option (Nat × List Byte) :=
  if x.spec then none
  else match x.kind with
  | .pool =>
    if x.ofs[x.bag]? = some x.next ∧ x.inBag = 0 ∧ x.bag < x.bags then (kvGet x.packet x.bag).map (fun bs => (x.bag, bs)) else none
  | _ => (kvGet x.packet x.next).map (fun bs => (x.next, bs))

/-- Write a held output (R375). -/
def commitPacket (x : HookOp) (i : Nat) (bs : List Byte) (s : State) : CommitEnd × State :=
  match writeOut x i bs s with
  | (.ok y, s) =>
    let y := { y with packet := kvErase y.packet i, cnt := y.cnt.plus ((kvGet y.held i).getD {}) }
    match y.kind with
    | .pool =>
      let next := (y.ofs[y.bag + 1]?).getD y.next
      (.ok { y.newBag with next := next, committed := y.committed + (next - y.next) }, s)
    | _ => (.ok { y with next := y.next + 1, committed := y.committed + 1, fetched := y.fetched.filter (fun f => f.elem != y.next) }, s)
  | r => r

/-- The saved part of the bag under way is taken up (R373). -/
def takeSaved (x : HookOp) : HookOp :=
  match x.saved with
  | some b => if !x.spec ∧ x.bag = b.bag ∧ x.inBag = 0 ∧ x.ofs[x.bag]? = some x.next then
      { x with next := b.next, inBag := b.n, acc := b.acc, saved := none, committed := x.committed + b.n,
               cnt := x.cnt.plus b.cnt } else x
  | none => x

/-- Commit in list order as far as the fetched elements go (R349, R359). -/
def commitLoop : (fuel : Nat) → HookOp → State → CommitEnd × State
  | 0, x, s => (.ok x, s)
  | fuel + 1, x, s =>
    match finishBags (x.bags + 1) (takeSaved x) s with
    | (.ok x, s) =>
      if x.count ≤ x.next then (.ok x, s)
      else match packetNext x with
      | some (i, bs) =>
        match commitPacket x i bs s with
        | (.ok y, s) => commitLoop fuel y s
        | (.stall w xf, s) => (.stall w xf, putHook x s)
        | (.fault st xf, s) => (.fault st xf, putHook x s)
        | (.later, s) => (.later, putHook x s)
      | none =>
        if x.next < x.skipTo then
          commitLoop fuel { x with next := x.next + 1, fetched := x.fetched.filter (fun f => f.elem != x.next) } s
        else match x.fetched.find? (fun f => f.elem == x.next) with
        | none => (.ok x, s)
        | some f =>
          match commitElem x f.rows s with
          | (.ok y, s) => commitLoop fuel y s
          | (.stall w xf, s) => (.stall w xf, putHook x s)
          | (.fault st xf, s) => (.fault st xf, putHook x s)
          | (.later, s) => (.later, putHook x s)
    | (.stall w xf, s) => (.stall w xf, putHook x s)
    | (.fault st xf, s) => (.fault st xf, putHook x s)
    | (.later, s) => (.later, putHook x s)

/-! ### Ends (R354, R357, R358) -/

/-- The 32 bytes of the result record (R354). -/
def HookOp.record (x : HookOp) (status : Nat) : List Byte :=
  toBytes 4 (satTo 32 x.committed) ++ toBytes 4 (satTo 32 x.bagsOut) ++ toBytes 4 (satTo 32 x.empty)
    ++ toBytes 4 (satTo 32 x.cnt.ftzIn) ++ toBytes 4 (satTo 32 x.cnt.ftzOut) ++ toBytes 4 (satTo 32 x.cnt.infOut)
    ++ toBytes 4 (satTo 32 x.cnt.nanOut) ++ toBytes 4 (status % 256)

/-- The operation is retained for GATHER.RESUME if its status is the one its counter latches (R358). -/
def retainOp (x : HookOp) (xi : Nat) (s : State) : State :=
  let latches := match threadAt x.thread s with
    | some t => (t.cc[x.counter]).latch.isNone && decide (t.hold ≠ .ended)
    | none => false
  if granted 14 s && latches then
    let y := { x with fetched := [], next := xi, skipTo := xi, bufs := x.accBufs s, packetBufs := 0, ending := none,
                      stall := .none, halted := false, reads := [], packet := [], saved := none, spec := false, issuedReq := 0, committedReq := 0,
                      held := [] }
    { s with tl := { s.tl with
      retained := s.tl.retained.filter (fun r => !(r.thread == x.thread && r.counter == x.counter)) ++ [y] } }
  else s

/-- The operation leaves the Hook and completes on its counter (R354, R357); its requests without an answer stay outstanding until
they are answered. -/
def hookRelease (x : HookOp) (status : Nat) (xi xf : W64) (s : State) : State :=
  let s := if status = stPartial then retainOp x xi.toNat s else s
  let s := { s with fab := { s.fab with gets := s.fab.gets.filter (fun g => g.op != x.id || g.result.isNone) } }
  opDone x.thread x.counter status xi xf (dropHook x.id s)

/-- The operation ends: its record is written first, and a page that is not present lets it wait (R354). -/
def hookEnd (x : HookOp) (status : Nat) (xi xf : W64) (s : State) : State :=
  if !x.resEn then hookRelease x status xi xf s
  else
    let va := (x.segs[x.resSeg]).va x.resOff
    match xStore { x.who with spec := false } x.tag.toNat va (x.record status) s with
    | (.done, s) => hookRelease x status xi xf s
    | (.fault _, s) => hookRelease x status xi xf (logErr .contained 0x13 .operation x.tile.val status va s)
    | (.stall w, s) => putHook { x with stall := w, stallXf := xfWord 0 x.resSeg.val true va, ending := some (status, xi, xf) } s
    | (.wait, s) => putHook { x with ending := some (status, xi, xf) } s

/-- Element `next` has met an unrecoverable fault: the operation ends partially, or a speculative one halts (R357, R368). -/
def hookFault (x : HookOp) (status : Nat) (xf : W64) (s : State) : State :=
  let xf := xf ||| BitVec.ofNat 64 status
  if x.spec then
    modWindow (fun w => { w with suppressed := w.suppressed + 1 }) (putHook { x with halted := true, stall := .none } s)
  else hookEnd { x with fetched := [], stall := .none } stPartial (BitVec.ofNat 64 x.next) xf s

/-- The operation has committed its last element and written its last bag. -/
def HookOp.finished (x : HookOp) : Bool := decide (x.count ≤ x.next) && (decide (x.kind ≠ .pool) || decide (x.bags ≤ x.bag))

/-- Take the outcome of a commit run. -/
def hookSettle (before : Nat) (r : CommitEnd × State) (id : Nat) : State :=
  match r with
  | (.ok x, s) =>
    let s := if x.spec then modWindow (fun w => { w with held := w.held + (x.next - before) }) s else s
    let x := { x with stall := .none }
    if x.finished && !x.spec then hookEnd x stOK 0 0 s else putHook x s
  | (.stall w xf, s) =>
    match hookOf id s with
    | some x => putHook { x with stall := w, stallXf := xf } s
    | none => s
  | (.fault st xf, s) =>
    match hookOf id s with
    | some x => hookFault x st xf s
    | none => s
  | (.later, s) => s

/-- Commit what can be committed. -/
def hookDrive (x : HookOp) (s : State) : State :=
  hookSettle x.next (commitLoop (2 * x.count + x.bags + 2) x (putHook x s)) x.id

/-- The read log of a tile: distinct blocks and copy locations over its operations (R369). -/
def logRecords (tile : Nat) (s : State) : Nat :=
  ((s.tl.hooks.filter (fun x => x.tile.val == tile)).map (fun x =>
    (x.reads.map (fun r => (r.table, r.blk, r.place == .primary))).eraseDups.length)).sum

/-- Start an accepted operation: its leading empty bags are finished at acceptance (R349). -/
def hookStart (x : HookOp) (s : State) : State :=
  let s := if x.spec then modWindow (fun w => { w with issued := w.issued + x.count }) s else s
  hookDrive x s

/-- A fetched element joins the operation, and commits go on. -/
def hookArrive (x : HookOp) (j : Nat) (rows : List (List Byte)) (recs : List ReadRec) (s : State) : State :=
  let x := { x with fetched := x.fetched ++ [⟨j, rows⟩], issuedReq := x.issuedReq + fetchedSectors rows, reads := if x.spec then x.reads ++ recs else x.reads, stall := .none }
  if x.halted then putHook x s else hookDrive x s

/-- Buffers are free for fetching ahead of the oldest uncommitted element, and no claim waits that this one may not pass (R351, R449). -/
def aheadOk (x : HookOp) (s : State) : Bool :=
  decide (buffersUsed x.tile.val s + x.rowBufs s ≤ classLimit resBuffers x.cls false) && !claimWaits resBuffers x.tile.val x.cls s

/-- Element `j` of an operation is fetched (R349). An element ahead of the oldest uncommitted one that cannot be fetched now is
fetched later. -/
def hookFetch (x : HookOp) (j : Nat) (ecc : Ecc) (s : State) : State :=
  let oldest := decide (j = x.next)
  if x.count ≤ j ∨ j < x.next ∨ (j = x.next ∧ x.halted = true) ∨ j < x.skipTo ∨ x.fetched.any (fun f => f.elem == j) ∨ (!oldest && !aheadOk x s) then s
  else if x.spec && decide (16384 ≤ logRecords x.tile.val s) then
    (if oldest then hookFault x stCapacity 0 s else s)
  else match fetchElem x j ecc s with
  | (.rows rs recs, s) => hookArrive x j rs recs (if oldest then s else noteGrant resBuffers x.tile.val x.cls (x.rowBufs s) s)
  | (.pending, s) => s
  | (.stall w xf, s') => if oldest then putHook { x with stall := w, stallXf := xf } s' else s
  | (.fault st xf, s') => if oldest then hookFault x st xf s' else s

/-- The Hook goes on with an operation that is not accepted, is stalled, or ends (R347, R354, R356). -/
def hookResume (x : HookOp) (s : State) : State :=
  match x.stall with
  | .none =>
    (match x.ending with
     | some (st, xi, xf) => hookEnd x st xi xf s
     | none =>
       match hookAccept x false s with
       | (.accepted y, s) => hookStart y s
       | (.ended st xf, s) => opDone x.thread x.counter st 0 xf (dropHook x.id s)
       | (.stalled y, s) => putHook y s
       | (.wait _, s) => s
       | (.later, s) => s)
  | .failed st =>
    (match x.ending with
     | some (st', xi, xf) =>
       hookRelease { x with stall := .none } st' xi xf
         (logErr .contained 0x13 .operation x.tile.val st' ((x.segs[x.resSeg]).va x.resOff) s)
     | none =>
       if x.accepted then hookFault x st x.stallXf s
       else opDone x.thread x.counter st 0 (x.stallXf ||| BitVec.ofNat 64 st) (dropHook x.id s))
  | _ => s

/-- A fetched row arrives (row HOOK_ELEMENT_RETURN, R349); `ecc` is how the row's first sector decodes. -/
def hookReturn (tile : Fin 16) (id elem : Nat) (ecc : Ecc) (s : State) : State :=
  match hookOf id s with
  | none => s
  | some x =>
    if x.tile ≠ tile then s
    else if !x.accepted || x.ending.isSome then hookResume x s
    else match x.stall with
    | .failed st => hookFault x st x.stallXf s
    | .none => if x.fetched.any (fun f => f.elem == x.next) && !x.halted then hookDrive x s else hookFetch x elem ecc s
    | _ => if elem = x.next then s else hookFetch x elem ecc s

end Sys2Proof.Machine
end

