-- ==== Sys2Proof/Machine/HookIssue.lean ====
section
/-! DEFINITION. Issuing Hook operations (15, R342, R343; 16, R351, R359) and speculation's validation and abandonment (17, R371–R376). -/

namespace Sys2Proof.Machine

open Sys2Proof

/-! ### Issue -/

/-- The descriptor's segment and the counter that an issuing instruction names (R342). -/
def issueSeg (i : PInstr) : Fin 8 := Fin.ofNat 8 (bits i.imm 0 3)
def issueCounter (i : PInstr) : Fin 4 := Fin.ofNat 4 (bits i.imm 4 2)

/-- Active Hook operations of a tile (R351). -/
def hooksActive (tile : Nat) (s : State) : Nat := (s.tl.hooks.filter (fun x => x.tile.val == tile)).length

/-- The operation a descriptor starts. -/
def newHook (key : Nat) (t : Thread) (k : Fin 4) (kind : HookKind) (desc va id : Nat) : HookOp :=
  let x : HookOp := ⟨id, Fin.ofNat 16 (keyTile key), key, k, t.cls, t.tag, kind, BitVec.ofNat 512 desc, va, t.segs, false, [],
    0, 0, 0, 0, [], 0, 0, 0, {}, 0, 0, [], .none, 0, false, false, [], [], none, none, 0, 0, []⟩
  { x with spec := x.specBit }

/-- A counter of the issuing context latches an operation that completes at issue. -/
def latchNow (k : Fin 4) (status : Nat) (xf : W64) (t : Thread) : Thread :=
  { t with cc := vmod t.cc k (fun c => c.complete status 0 xf) }

/-- A Hook slot is free, or the issue waits in order (R351). -/
def hookSlot (key : Nat) (t : Thread) (s : State) : TStep Unit :=
  if 256 ≤ hooksActive (keyTile key) s ∨ claimWaits resHook (keyTile key) t.cls s then .stop (.claim ⟨resHook, keyTile key, t.cls, 1, key⟩ s) else .ok () t s

/-- The Hook takes an operation over from the issuing instruction (R342, R347). -/
def hookTake (key : Nat) (k : Fin 4) (x : HookOp) (same : Bool) (t : Thread) (s : State) : TStep Unit :=
  let s' := noteGrant resHook (keyTile key) t.cls 1 { s with tl := { s.tl with nextOp := s.tl.nextOp + 1, hooks := s.tl.hooks ++ [x] } }
  match hookAccept x same s' with
  | (.accepted y, s) => .ok () t (hookStart y (putHook y s))
  | (.ended st xf, s) => .ok () (latchNow k st xf t) (dropHook x.id s)
  | (.stalled y, s) => .ok () t (putHook y s)
  | (.wait res, _) => .stop (.claim ⟨res, keyTile key, t.cls, x.accBufs s + x.rowBufs s + x.heldBufs s, key⟩ s)
  | (.later, s) => .ok () t s

/-- GATHER, POOL and GATHER.ADDR (R342). A count that completes the operation at once is a completion on the thread's counter,
which the context holds, so the operation starts on the state that holds the context. -/
def hookIssue (kind : HookKind) (same : Bool) (key : Nat) (i : PInstr) (t0 : Thread) (s : State) : Run :=
  if keyPlain key then plainFault stState s
  else
    let k := issueCounter i
    let seg := issueSeg i
    TStep.finish <| (need 1 t0 s).andThen fun _ t s => (pop key t s).andThen fun o t s =>
      (threadRead key seg o.toNat 64 .clean t s).andThen fun bs t s => (countUp key k t s).andThen fun _ t s =>
        (hookSlot key t s).andThen fun _ t s =>
          let x := newHook key t k kind (ofBytes bs) ((t.segs[seg]).va o.toNat) s.tl.nextOp
          match hookTake key k x same t (putThread key t s) with
          | .ok _ t' s =>
            let cc := match threadAt key s with
              | some u => if t' = t then u.cc else t'.cc
              | none => t'.cc
            .ok () { t' with cc := cc } s
          | .stop r => .stop r

def opGather (same : Bool) : Meaning := hookIssue .gather same
def opPool (same : Bool) : Meaning := hookIssue .pool same
def opGatherAddr (same : Bool) : Meaning := hookIssue .addr same

/-- The retained operation of a counter (R358). -/
def retainedOf (key : Nat) (k : Fin 4) (s : State) : Option HookOp :=
  s.tl.retained.find? (fun x => x.thread == key && x.counter == k)

/-- Release a retained operation. -/
def dropRetained (key : Nat) (k : Fin 4) (s : State) : State :=
  { s with tl := { s.tl with retained := s.tl.retained.filter (fun x => !(x.thread == key && x.counter == k)) } }

/-- The step of a resumed operation still lets it run: its close has not taken effect (R19, R348). -/
def resumeStepOk (x : HookOp) (s : State) : Bool :=
  !x.stepValid || (match stepOf x.step s with
    | some st => st.phase == .confirm
    | none => false)

/-- The checks of R359: a status, or the operation to go on with. -/
def resumeCheck (key : Nat) (k : Fin 4) (va desc n : Nat) (s : State) : Except Nat HookOp :=
  if !granted 14 s then .error stFeature
  else match retainedOf key k s with
  | none => .error stState
  | some x =>
    if x.descVa ≠ va then .error stState
    else if x.desc.toNat ≠ desc then .error stMalformed
    else if n < x.next ∨ x.count < n then .error stState
    else if !resumeStepOk x s then .error stState
    else .ok { x with skipTo := n }

/-- GATHER.RESUME (R343, R359). -/
def opGatherResume (same : Bool) : Meaning := fun key i t0 s =>
  if keyPlain key then plainFault stState s
  else
    let k := issueCounter i
    let seg := issueSeg i
    TStep.finish <| (need 2 t0 s).andThen fun _ t s => (pop key t s).andThen fun o t s => (pop key t s).andThen fun n t s =>
      (threadRead key seg o.toNat 64 .clean t s).andThen fun bs t s => (countUp key k t s).andThen fun _ t s =>
        (hookSlot key t s).andThen fun _ t s =>
          match resumeCheck key k ((t.segs[seg]).va o.toNat) (ofBytes bs) n.toNat s with
          | .error st => .ok () (latchNow k st (xfWord st 0 false 0) t) s
          | .ok x =>
            let id := s.tl.nextOp
            let x := { x with id := id, accepted := true, bufs := x.accBufs s }
            match decideClaim resBuffers x.tile.val (buffersUsed x.tile.val s) x.cls (x.rowBufs s) true same s with
            | (.capacity, s) => .ok () (latchNow k stCapacity (xfWord stCapacity 0 false resBuffers) t) s
            | (.race, s) => .ok () (latchNow k stRace (xfWord stRace 0 false resBuffers) t) s
            | (.wait, _) => .stop (.claim ⟨resBuffers, keyTile key, t.cls, x.rowBufs s, key⟩ s)
            | (.granted, s) =>
              let x := { x with bufs := x.accBufs s + x.rowBufs s }
              let s := noteGrant resHook (keyTile key) t.cls 1 (dropRetained key k s)
              let s := putThread key t { s with tl := { s.tl with nextOp := id + 1, hooks := s.tl.hooks ++ [x] } }
              let s := hookDrive x s
              .ok () { t with cc := ((threadAt key s).map (·.cc)).getD t.cc } s

/-! ### Validation (R371–R375) -/

/-- A T1 page of an input range has its bit set in the window write map (R373). -/
def inputTouched (x : HookOp) (s : State) : Bool :=
  (x.ranges s).any (fun r => !r.write && (accessPieces (x.rangeVa r) r.len).any (fun p =>
    match plainPa x.tag.toNat p.1 s with
    | .at pa => (framesOf pa p.2).any (fun f => s.ram.windowMap.contains f)
    | _ => true))

/-- The block is in the recorded frame, unchanged and unmarked (R372). -/
def primaryCurrent (table blk frame : Nat) (v : BitVec 7) (s : State) : Bool :=
  let here := if table = 0 ∧ blk = frame then true else
    match blockDir table blk s with
    | some d => d.loc == 1 && d.frame == frame
    | none => blk == frame
  here && frameVersion frame s == v && !s.ram.windowMap.contains frame

/-- A record counts as changed (R372); a remote record without an answer is not decided. -/
def recChanged (r : ReadRec) (s : State) : Option Bool :=
  match r.place with
  | .primary => some (!primaryCurrent r.table r.blk r.frame r.version s)
  | .copy => some (r.rewritten || !primaryCurrent r.table r.blk r.frame r.version s)
  | .remote _ track answer => if track = 0 then some true else answer.map (fun current => !current)

/-- Send the validation requests of an operation's remote records that have none outstanding (R372). -/
def sendValidations (x : HookOp) (s : State) : State :=
  x.reads.foldl (fun s r =>
    match r.place with
    | .remote dev track none =>
      if track = 0 ∨ s.fab.gets.any (fun g => g.validate && g.op == x.id && g.elem == r.elem && g.row == r.row) then s
      else sendGet ⟨0, dev, x.cls, false, true, r.table, r.row, r.version.toNat, track, r.frame, x.id, r.elem, 0, .answer, none⟩ s
    | _ => s) s

/-- Elements of an operation with a changed record. -/
def changedElems (x : HookOp) (s : State) : List Nat :=
  ((x.reads.filter (fun r => recChanged r s == some true)).map (·.elem)).eraseDups

/-- The bag an element belongs to. -/
def bagOf (x : HookOp) (j : Nat) : Nat := (x.ofs.filter (fun o => decide (o ≤ j))).length - 1

/-- The operation as it goes on after its validation, and how many elements it reads again (R373–R375). -/
def validated (x : HookOp) (s : State) : HookOp × Nat :=
  let ch := changedElems x s
  let base := { x with spec := false, halted := false, stall := .none, reads := [], skipTo := 0,
                       cnt := {}, committed := 0, bagsOut := 0, empty := 0 }
  if inputTouched x s then
    ({ base with next := 0, bag := 0, inBag := 0, acc := x.acc.map (fun _ => 0), fetched := [], packet := [], saved := none, held := [] },
     x.next + x.fetched.length)
  else
    let fetched := x.fetched.filter (fun f => !ch.contains f.elem)
    match x.kind with
    | .pool =>
      let badBags := (ch.filter (fun j => decide (j < x.next))).map (bagOf x)
      let packet := x.packet.filter (fun p => !badBags.contains p.1)
      let keep := decide (0 < x.inBag) && !badBags.contains x.bag
      let again := ((List.range x.next).filter (fun j => badBags.contains (bagOf x j))).length
      ({ base with next := 0, bag := 0, inBag := 0, acc := x.acc.map (fun _ => 0), fetched := fetched, packet := packet,
                   saved := if keep then some ⟨x.bag, x.next, x.inBag, x.acc, x.cnt⟩ else none },
       again + (x.fetched.length - fetched.length))
    | _ =>
      ({ base with next := 0, fetched := fetched, packet := x.packet.filter (fun p => !ch.contains p.1) },
       (ch.filter (fun j => decide (j < x.next))).length + (x.fetched.length - fetched.length))

/-- Every element of a speculative operation has been fetched or halted (R372). -/
def specComplete (x : HookOp) : Bool := x.halted || decide (x.count ≤ x.next)

/-- Validate one held operation at the confirm (R372–R375). -/
def validateOp (tile : Fin 16) (id : Nat) (s : State) : State :=
  match hookOf id s, s.stp.window with
  | some x, some w =>
    if x.tile ≠ tile ∨ !x.spec ∨ w.state ≠ .validating ∨ x.step ≠ w.step ∨ !specComplete x then s
    else
      let s := sendValidations x s
      if x.reads.any (fun r => (recChanged r s).isNone) then s
      else
        let (y, again) := validated x s
        let s := modWindow (fun w => { w with reread := w.reread + again, deferred := w.deferred + b2n x.halted }) s
        hookDrive { y with packetBufs := x.packetBufs } s
  | _, _ => s

/-- Held operations of a window that are not yet validated. -/
def unvalidated (step : Nat) (s : State) : Bool := s.tl.hooks.any (fun x => x.spec && x.step == step)

/-- The window is abandoned (R376): every held operation is frogged and completes with ABANDONED. Answers the packets frogged. -/
def abandonWindow (s : State) : Nat × State :=
  match s.stp.window with
  | none => (0, s)
  | some w =>
    if w.state ≠ .opened then (0, s)
    else
      let ops := s.tl.hooks.filter (fun x => x.spec && x.step == w.step)
      let s := modStp (fun x => { x with lastAbandoned := some w.step,
                                           window := some { w with state := .abandoned, frogged := ops.length } }) s
      let s := ops.foldl (fun s x =>
        hookEnd { x with spec := false, fetched := [], packet := [], packetBufs := 0, bufs := 0, committed := 0, bagsOut := 0,
                         empty := 0, cnt := {}, stall := .none } stAbandoned 0 (xfWord stAbandoned 0 false 0) s) s
      (ops.length, s)

/-- A copy of a row has been rewritten: the records of speculative reads from it count as changed (R372). -/
def noteRewritten (table row : Nat) (s : State) : State :=
  { s with tl := { s.tl with hooks := s.tl.hooks.map (fun x => { x with reads := x.reads.map (fun r =>
    if r.table = table ∧ r.row = row ∧ r.place = .copy then { r with rewritten := true } else r) }) } }

end Sys2Proof.Machine
end

