-- ==== Sys2Proof/Machine/Purl.lean ====
section
/-! DEFINITION. The adders and the Purl (18_scatter_and_step_close.md; 12, R269–R272): float-add (R385), exact-add accumulators
(R386–R390), parking, the ROW_ADD descriptor (R377, R378), acceptance (R379) and the retransmit store (R380). -/

namespace Sys2Proof.Machine

open Sys2Proof

def modPurl (f : PurlUnit → PurlUnit) (s : State) : State := { s with pu := f s.pu }

/-! ### Places and formats -/

/-- The float format of a table that takes updates (R195, R202). -/
def Table.fmt (t : Table) : Fmt := if t.format = 0 then fp32 else if t.format = 1 then bf16 else fp16

/-- The rounding of element `k`'s add (R195, R385). -/
def addRound (t : Table) (draws : List Nat) (k : Nat) : Rnd :=
  if t.round = 0 then .even else if t.round = 1 then .zero else .stoch ((draws[k]?).getD 0)

/-- The accessor of an update's adds: the Purl of its tile, or the Henur port it came through (R248, R251). -/
def Update.who (u : Update) : Accessor :=
  if u.tile < 16 then ⟨2, u.tile, u.cls.val, false, 0⟩ else ⟨3, u.tile - 16, u.cls.val, false, 0⟩

/-- The address of element `k` of a row at `pa`. -/
def elemPa (t : Table) (pa k : Nat) : Nat := pa + elemBytes t.format * k

/-- Elements of a row at `pa` whose sector is not poisoned. -/
def cleanElems (t : Table) (pa : Nat) (s : State) : List Nat :=
  (List.range t.width).filter (fun k => !poisoned (sectorOf (elemPa t pa k)) s)

/-- The poisoned sectors of a row at `pa`, with their elements. -/
def poisonedElems (t : Table) (pa : Nat) (s : State) : List (Nat × List Nat) :=
  ((sectorsOf pa (elemBytes t.format * t.width)).filter (fun x => poisoned x s)).map (fun x =>
    (x, (List.range t.width).filter (fun k => sectorOf (elemPa t pa k) == x)))

/-- The bits of a stored element. -/
def elemBits (t : Table) (pa k : Nat) (s : State) : Nat := t1Nat (elemPa t pa k) (elemBytes t.format) s

/-- Write elements of one row as one write event (R261). -/
def writeElems (t : Table) (pa : Nat) (vs : List (Nat × Nat)) (s : State) : State :=
  let s := vs.foldl (fun s v => t1Put (elemPa t pa v.1) (toBytes (elemBytes t.format) v.2) s) s
  let s := writeEvent (frameOf pa) s
  setSectorVersions ((vs.map (fun v => sectorOf (elemPa t pa v.1))).eraseDups) (frameVersion (frameOf pa) s) s

/-! ### Parking (R269, R270, R272) -/

/-- Records of an area. -/
def areaCount (k : Nat) (s : State) : Nat := (s.ram.parked.filter (fun r => r.area.val == k)).length

/-- The area a new record goes to: the stack's own, else the next usable one with room, wrapping (R272). -/
def parkArea (k0 : Nat) (s : State) : Option (Fin 8) :=
  (((List.range 8).map (fun i => (k0 + i) % 8)).find? (fun k => stackUsable k s && decide (areaCount k s < 8192))).map (Fin.ofNat 8)

/-- The lowest free place of an area. -/
def parkPlace (k : Fin 8) (s : State) : Nat :=
  ((List.range 8192).find? (fun i => !s.ram.parked.any (fun r => r.area == k && r.place == i))).getD 0

/-- Where a parking record lies (R38, R270). -/
def parkAddr (k : Fin 8) (place : Nat) : Nat := reserveBase k.val + 0x04000000 + 128 * place

/-- Park the elements of one poisoned sector as one record; the first record of a sector is logged (R269, R270). -/
def parkSector (u : Update) (t : Table) (x : Nat × List Nat) (s : State) : Option State :=
  (parkArea (stackOf x.1).val s).map fun k =>
    let r : ParkRec := {
      area := k, place := parkPlace k s, seqNo := u.seqNo, source := BitVec.ofNat 9 u.sender, step := BitVec.ofNat 48 u.step,
      table := BitVec.ofNat 20 u.table, bf16 := u.bf16, format := t.format, row := u.row, first := x.2.head?.getD 0,
      sector := x.1, values := x.2.map (fun i => (u.values[i]?).getD 0),
      draws := if u.draws.isEmpty then [] else x.2.map (fun i => (u.draws[i]?).getD 0) }
    let first := !s.ram.parked.any (fun y => y.sector == x.1)
    let at0 := parkAddr k (parkPlace k s)
    let s := { s with ram := { s.ram with parked := s.ram.parked ++ [r], poison := s.ram.poison.filter (fun y => !(decide (at0 ≤ y ∧ y < at0 + 128))) } }
    if first then logErr .deferred 0x33 .data k.val u.table x.1 s else s

/-- Park every poisoned sector of the update, or nothing where the areas have no room. -/
def parkAll (u : Update) (t : Table) : List (Nat × List Nat) → State → Option State
  | [], s => some s
  | x :: xs, s => (parkSector u t x s).bind (parkAll u t xs)

/-- Records of an update that are still parked. -/
def recordsOf (source seqNo : Nat) (s : State) : Nat :=
  (s.ram.parked.filter (fun r => r.source.toNat == source && r.seqNo.toNat == seqNo)).length

/-- Updates of a source that have a parked record: the "parked" term of its ledger (R451). -/
def parkedOf (source : Nat) (s : State) : Nat :=
  (((s.ram.parked.filter (fun r => r.source.toNat == source && r.seqNo != 0)).map (·.seqNo)).eraseDups).length

/-! ### Float-add (R385) -/

/-- Add the elements `ks` of an update at once; subnormal operands are flushed and counted, and copies marked stale first
(R208, R385). -/
def floatElems (table row : Nat) (t : Table) (pa : Nat) (ks : List (Nat × W32 × Rnd)) (s : State) : State :=
  let s := markStale table row s
  let flushed := (ks.map (fun x => b2n (t.fmt.decode (elemBits t pa x.1 s)).2 + b2n (fp32.decode x.2.1.toNat).2)).sum
  let vs := ks.map (fun x => (x.1, floatAdd t.fmt x.2.2 t.sat (elemBits t pa x.1 s) x.2.1))
  modPurl (fun p => { p with flushed := p.flushed + flushed }) (if vs.isEmpty then s else writeElems t pa vs s)

/-- The float-add of an update's elements. -/
def floatUpdate (u : Update) (t : Table) (pa : Nat) (ks : List Nat) (s : State) : State :=
  floatElems u.table u.row t pa (ks.map (fun k => (k, (u.values[k]?).getD 0, addRound t u.draws k))) s

/-! ### Exact-add (R386, R387, R389) -/

/-- Bytes of an accumulator (R386). -/
def accumBytes (width : Nat) : Nat := roundUp (32 + 16 * width) 64

/-- Bytes of the exact-add region that accumulators of a stack take. -/
def regionUsed (k : Fin 8) (s : State) : Nat := ((s.pu.accums.filter (fun a => a.stack == k)).map (fun a => accumBytes a.entries.length)).sum

/-- The accumulator of a row in a step. -/
def accumOf (step table row : Nat) (s : State) : Option Accum :=
  s.pu.accums.find? (fun a => a.step == step && a.table == table && a.row == row)

/-- The region has room for the row's accumulator (R386, R389). -/
def regionRoom (k : Fin 8) (t : Table) (s : State) : Bool := decide (regionUsed k s + accumBytes t.width ≤ 60 * 2 ^ 20)

/-- The row has fallen back in this step (R389). -/
def fellBack (u : Update) (s : State) : Bool := s.pu.fellRows.contains (u.step, u.table, u.row)

/-- The update goes into an accumulator (R386, R389): its table is exact-add, its row has not fallen back, and an accumulator
exists or fits. -/
def takesExact (u : Update) (t : Table) (pa : Nat) (s : State) : Bool :=
  t.addMode == 2 && !fellBack u s && ((accumOf u.step u.table u.row s).isSome || regionRoom (stackOf pa) t s)

/-- The table is flagged for a fallback: the first of a step is journaled and logged (R271, R389). -/
def flagFallback (k step table : Nat) (s : State) : State :=
  if s.pu.fellTables.contains (step, table) then s
  else
    let s := modPurl (fun p => { p with fellTables := (step, table) :: p.fellTables }) s
    logErr .corrected 0x65 .table k table step (stepJournal 3 0 step (BitVec.ofNat 64 table) 0 0 s)

/-- Allocate the accumulator of a row with its BASE values (R386). -/
def accumNew (u : Update) (t : Table) (pa : Nat) (s : State) : State :=
  let k := stackOf pa
  let addr := reserveBase k.val + regionUsed k s
  let a : Accum := {
    stack := k, table := u.table, row := u.row, step := u.step, addr := addr,
    entries := (List.range t.width).map (fun i => ⟨toF32 (t.fmt.value (elemBits t pa i s)), 0, 0⟩) }
  clearPoison (sectorsOf addr (accumBytes t.width)) 
    (modPurl (fun p => { p with accums := p.accums ++ [a], allocated := vmod p.allocated k (fun n => n + 1) }) s)

/-- An entry after one more update element (R387). -/
def AccEntry.add (e : AccEntry) (u : W32) : AccEntry :=
  let (st, n) := exactTerm u
  { e with state := exactState e.state st, acc := e.acc + BitVec.ofInt 92 n }

/-- Add an update's elements into its row's accumulator. -/
def exactUpdate (u : Update) (t : Table) (pa : Nat) (ks : List Nat) (s : State) : State :=
  let s := if (accumOf u.step u.table u.row s).isSome then s else accumNew u t pa s
  let add (a : Accum) : Accum := { a with entries := a.entries.zipIdx.map (fun e =>
    if ks.contains e.2 then e.1.add ((u.values[e.2]?).getD 0) else e.1) }
  let flushed := (ks.filter (fun k => (fp32.decode ((u.values[k]?).getD 0).toNat).2)).length
  modPurl (fun p => { p with
    flushed := p.flushed + flushed
    accums := modFirst (fun a => a.step == u.step && a.table == u.table && a.row == u.row) add p.accums }) s

/-! ### One update at its row's adder -/

/-- How an update ends at the adder. -/
inductive ApplyEnd where
  | done (parked : Bool)
  | stall (why : Stall)
  /-- every parking area is full (R272) -/
  | full
  /-- the row cannot be reached: no descriptor, no slot, or an unrecoverable fault -/
  | lost
deriving DecidableEq, Repr

/-- Where the row of an update lies. -/
def updatePlace (u : Update) (s : State) : (Option (Table × Nat) × ApplyEnd) × State :=
  match tableOf u.table s with
  | none => ((none, .lost), s)
  | some t =>
    match t.slot u.row with
    | none => ((none, .lost), s)
    | some slot =>
      match translate u.who t.tag.toNat (t.slotVa slot) t.rowBytes .add s with
      | (.ok [(pa, _, true)], s) =>
        let s := if u.tile < 16 then streamAccess (Fin.ofNat 16 u.tile) true t.tag.toNat (t.slotVa slot) t.rowBytes s else s
        ((some (t, pa), .full), s)
      | (.stall w, s) => ((none, .stall w), s)
      | (_, s) => ((none, .lost), s)

/-- Apply an update whose row lies at `pa`: elements in poisoned sectors are parked, the others added (R269, R385–R389). -/
def applyAt (u : Update) (t : Table) (pa : Nat) (s : State) : ApplyEnd × State :=
  let bad := poisonedElems t pa s
  match parkAll u t bad s with
  | none => (.full, s)
  | some s =>
    let ks := cleanElems t pa s
    let exact := takesExact u t pa s
    let s := if exact then exactUpdate u t pa ks s
      else
        let s := if t.addMode = 2 then
            flagFallback (stackOf pa).val u.step u.table
              (modPurl (fun p => if p.fellRows.contains (u.step, u.table, u.row) then p
                else { p with fellRows := (u.step, u.table, u.row) :: p.fellRows }) s)
          else s
        floatUpdate u t pa ks s
    (.done (!bad.isEmpty), s)

/-- Count an update's outcome (R391, R451). -/
def countDone (u : Update) (parked : Bool) (s : State) : State :=
  if u.tile < 16 then
    let s := modStep u.step (fun x => if parked then { x with parked := x.parked + 1 } else { x with applied := x.applied + 1 }) s
    if parked then s else modCount u.sender (fun c => { c with applied := c.applied + 1 }) s
  else
    let s := modStep u.step (fun x => { x with inApplied := x.inApplied + 1 }) s
    if parked then s else modCount u.sender (fun c => { c with inApplied := c.inApplied + 1 }) s

/-- A parked record's update has no record left: it moves from parked to applied (R271, R451). -/
def countReleased (source : Nat) (s : State) : State :=
  if source = ownDev s then modCount source (fun c => { c with applied := c.applied + 1 }) s
  else modCount source (fun c => { c with inApplied := c.inApplied + 1 }) s

/-- Apply the parked records of a sector whose poison has just become 0, in parking order (R271). -/
def releaseRecord (s : State) (r : ParkRec) : State :=
  let rest := s.ram.parked.filter (fun x => !(x.area == r.area && x.place == r.place))
  let s := { s with ram := { s.ram with parked := rest } }
  let s := match tableOf r.table.toNat s with
    | none => s
    | some t =>
      let base := r.sector
      let ks := r.values.zipIdx.map (fun v => (v.2, v.1, addRound t r.draws v.2))
      let row0 := match t.slot r.row with
        | some slot => t.slotOffset slot
        | none => 0
      let pa := base / 65536 * 65536 + row0
      let s := floatElems r.table.toNat r.row t pa (ks.map (fun k => (r.first + k.1, k.2))) s
      if t.addMode = 2 then flagFallback r.area.val r.step.toNat r.table.toNat s else s
  if r.seqNo ≠ 0 ∧ recordsOf r.source.toNat r.seqNo.toNat s = 0 then countReleased r.source.toNat s else s

/-- Apply the parked records of every sector that has become clean (R271). -/
def releaseCleared (s : State) : State :=
  let secs := s.ram.cleared
  let s := { s with ram := { s.ram with cleared := [] } }
  (s.ram.parked.filter (fun r => secs.contains r.sector && !poisoned r.sector s)).foldl releaseRecord s

/-! ### Local updates (R379, R381) -/

/-- Change the first slot that holds this update. -/
def modSlot (u : Update) (f : Update → Update) (s : State) : State :=
  modPurl (fun p => { p with slots := modFirst (fun x => x.dest == u.dest && x.seqNo == u.seqNo) f p.slots }) s

/-- Free the slot of an update. -/
def dropSlot (u : Update) (s : State) : State :=
  modPurl (fun p => { p with slots := p.slots.filter (fun x => !(x.dest == u.dest && x.seqNo == u.seqNo)) }) s

/-- The continuation body of a refused update: its step (R381). -/
def refusedBody (step : Nat) : BitVec 192 := BitVec.ofNat 192 (step % 2 ^ 48)

/-- An update is refused: counted and logged with peer, reason, sequence number and step (R381, R436); its step is damaged (R466). -/
def refuseUpdate (u : Update) (reason : Nat) (s : State) : State :=
  let s := modStep u.step (fun x => { x with refused := x.refused + 1, damaged := true }) s
  let s := modCount u.dest (fun c => { c with refused := c.refused + 1 }) s
  logFull .contained 0x2D .step u.dest reason u.seqNo.toNat (some (refusedBody u.step)) s

/-- The adder takes a local update from its slot. -/
def applyLocal (u : Update) (s : State) : State :=
  match updatePlace u s with
  | ((some (t, pa), _), s) =>
    (match applyAt u t pa s with
     | (.done parked, s) => countDone u parked (dropSlot u s)
     | (_, s) => modSlot u (fun x => { x with stall := .none }) s)
  | ((none, .stall w), s) => modSlot u (fun x => { x with stall := w }) s
  | ((none, _), s) => refuseUpdate u 0x09 (dropSlot u s)

/-! ### The retransmit store (R380) -/

/-- Bytes an update takes in the store. -/
def storeBytes (u : Update) : Nat := 48 + u.values.length * (if u.bf16 then 2 else 4) + 2 * u.draws.length

/-- The store takes one more update for its destination: 1,024 per destination, 16 MiB per usable stack (R380). -/
def storeRoom (u : Update) (s : State) : Bool :=
  decide ((s.pu.store.filter (fun r => r.upd.dest == u.dest)).length < 1024)
    && decide ((s.pu.store.map (fun r => storeBytes r.upd)).sum + storeBytes u ≤ (stacksOf s.ram.stackSet).length * 2 ^ 24)

/-- Send an update of the store on its class's VC; without a route it stays and goes out at a route change (R424, R435, R436). -/
def sendUpdate (u : Update) (s : State) : State := (sendRouted u.dest u.cls.val true (msgRowAdd u u.cls.val s) s).2

/-- Remote updates move from their slots into the store as far as it has room (R379, R380). -/
def storeSlots (s : State) : State :=
  s.pu.slots.foldl (fun s u =>
    if u.dest = ownDev s ∨ !storeRoom u s then s
    else sendUpdate u (modPurl (fun p => { p with store := p.store ++ [⟨u, .answer⟩] }) (dropSlot u s))) s

/-! ### The ROW_ADD descriptor (R377, R378) -/

/-- Bits `lo … lo+n-1` of byte `o` on of a 32-byte descriptor. -/
def rfld (d : BitVec 256) (o lo n : Nat) : Nat := bits d.toNat (8 * o + lo) n

def raTable (d : BitVec 256) : Nat := rfld d 0 0 20
def raIdxSeg (d : BitVec 256) : Fin 8 := Fin.ofNat 8 (rfld d 4 0 3)
def raIdxBytes (d : BitVec 256) : Nat := if rfld d 4 3 1 = 1 then 4 else 8
def raValSeg (d : BitVec 256) : Fin 8 := Fin.ofNat 8 (rfld d 4 4 3)
def raBf16 (d : BitVec 256) : Bool := rfld d 4 7 1 == 1
def raChain (d : BitVec 256) : Bool := rfld d 5 0 1 == 1
def raCount (d : BitVec 256) : Nat := rfld d 8 0 13
def raIdxOff (d : BitVec 256) : Nat := rfld d 16 0 64
def raValOff (d : BitVec 256) : Nat := rfld d 24 0 64

/-- The bits its fields cover (R377). -/
def raMask : Nat := maskAt 0 20 + maskAt 32 8 + maskAt 40 1 + maskAt 64 13 + maskAt 128 128

/-- Bytes of one value row. -/
def raRowBytes (d : BitVec 256) (t : Table) : Nat := t.width * (if raBf16 d then 2 else 4)

/-- Checks 1 to 5 of R378 on a descriptor that `links` others precede: the status, SEG and ADDR of the first that fails. -/
def raVerdict (d : BitVec 256) (links : Nat) (segs : Vector Seg 8) (s : State) : Option (Nat × Nat × Nat) :=
  if d.toNat - (d.toNat &&& raMask) ≠ 0 ∨ raCount d < 1 ∨ 4096 < raCount d ∨ (63 ≤ links ∧ raChain d) then some (stMalformed, 0, 0)
  else if raChain d && !granted 7 s then some (stFeature, 0, 0)
  else match tableOf (raTable d) s with
  | none => some (stState, 0, 0)
  | some t =>
    if t.addMode = 0 then some (stMalformed, 0, 0)
    else if (confirmOf s).isNone then some (stState, 0, 0)
    else
      let gi := segs[raIdxSeg d]
      let gv := segs[raValSeg d]
      if !gi.allows (·.r) (raIdxOff d) (raCount d * raIdxBytes d) then some (stSegment, (raIdxSeg d).val, gi.va (raIdxOff d))
      else if !gv.allows (·.r) (raValOff d) (raCount d * raRowBytes d t) then some (stSegment, (raValSeg d).val, gv.va (raValOff d))
      else none

/-- Purl slots of a tile in use. -/
def purlUsed (tile : Nat) (s : State) : Nat := (s.pu.slots.filter (fun u => u.tile == tile)).length

/-- The accessor of the Purl's own reads (R248). -/
def RowAddOp.who (x : RowAddOp) : Accessor := ⟨2, x.tile.val, x.cls.val, false, 0⟩

/-! ### Acceptance (R379) -/

/-- A read of the Purl. -/
inductive PurlRead where
  | data (bs : List Byte)
  | stall (why : Stall)
  | fault (status : Nat) (seg va : Nat)
  | later

def purlRead (x : RowAddOp) (seg : Fin 8) (off n : Nat) (s : State) : PurlRead × State :=
  let va := (x.segs[seg]).va off
  let s := streamAccess x.tile true x.tag.toNat va n s
  match xRead x.who x.tag.toNat va n .read s with
  | (.data bs, s) => (.data bs, s)
  | (.stall w, s) => (.stall w, s)
  | (.fault st, s) => (.fault st seg.val va, s)
  | (.suppressed, s) => (.fault stTranslation seg.val va, s)
  | (.wait, s) => (.later, s)

/-- What accepting one row comes to. -/
inductive RowEnd where
  | accepted
  | stall (why : Stall)
  /-- it waits for a Purl slot, or for the host -/
  | wait
  | ended (status : Nat) (xf : W64)

/-- The LFSR draws of a stochastically rounded row (R385, R412). -/
def rowDraws (tile : Fin 16) (n : Nat) (s : State) : List Nat × State :=
  let go := (List.range n).foldl (fun (acc : List Nat × W32) _ => let d := lfsrDraw acc.2; (acc.1 ++ [d.1], d.2)) ([], s.tl.lfsr[tile])
  (go.1, { s with tl := { s.tl with lfsr := vset s.tl.lfsr tile go.2 } })

/-- FP32 bits of a value row: BF16 values are widened exactly. -/
def rowValues (bf : Bool) (width : Nat) (bs : List Byte) : List W32 :=
  (List.range width).map (fun k =>
    if bf then BitVec.ofNat 32 (ofBytes ((bs.drop (2 * k)).take 2) * 2 ^ 16) else BitVec.ofNat 32 (ofBytes ((bs.drop (4 * k)).take 4)))

/-- Enter an accepted update: its sequence number, its count, its slot (R379, R380). -/
def enterUpdate (x : RowAddOp) (t : Table) (table row owner : Nat) (bf : Bool) (vals : List W32) (s : State) : State :=
  let (draws, s) := if t.round = 2 then rowDraws x.tile t.width s else ([], s)
  let sq := (kvGet s.pu.seq owner).getD 1
  let u : Update := {
    tile := x.tile.val, thread := x.thread, dest := owner, sender := ownDev s, seqNo := sq, step := x.step, table := table,
    row := row, values := vals, bf16 := bf, cls := x.cls, draws := draws, stall := .none,
    launch := (threadAt x.thread s).map (fun t => t.launch) }
  let s := modPurl (fun p => { p with seq := kvSet p.seq owner (sq + 1), slots := p.slots ++ [u] }) s
  modCount owner (fun c => { c with accepted := c.accepted + 1 }) s

/-- Accept the next row of the current descriptor (R379). -/
def acceptRow (x : RowAddOp) (d : BitVec 256) (first same : Bool) (s : State) : RowEnd × State :=
  let claim := if first then (decideClaim resPurl x.tile.val (purlUsed x.tile.val s) x.cls 1 true same s).1 else .granted
  if claim = .capacity then (.ended stCapacity (xfWord stCapacity 0 false resPurl), s)
  else if claim = .race then (.ended stRace (xfWord stRace 0 false resPurl), s)
  else match tableOf (raTable d) s with
  | none => (.ended stTranslation (xfWord stTranslation 0 false 0), s)
  | some t =>
    if !(match confirmOf s with
         | some st => st.num == x.step
         | none => false) then (.ended stState (xfWord stState 0 false 0), s)
    else match purlRead x (raIdxSeg d) (raIdxOff d + x.next * raIdxBytes d) (raIdxBytes d) s with
    | (.stall w, s) => (.stall w, s)
    | (.later, s) => (.wait, s)
    | (.fault st seg va, s) => (.ended st (xfWord st seg false va), s)
    | (.data ix, s) =>
      match t.rowOf (BitVec.ofNat 64 (ofBytes ix)) with
      | none => (.ended stIndex (xfWord stIndex 0 false 0), s)
      | some row =>
        let owner := ownerOf (raTable d) row s
        if owner = ownDev s ∧ (t.slot row).isNone then
          (.ended stIndex (xfWord stIndex 0 false 0), logErr .contained 0x46 .table 0 (raTable d) row s)
        else match purlRead x (raValSeg d) (raValOff d + x.next * raRowBytes d t) (raRowBytes d t) s with
        | (.stall w, s) => (.stall w, s)
        | (.later, s) => (.wait, s)
        | (.fault st seg va, s) => (.ended st (xfWord st seg false va), s)
        | (.data vs, s) =>
          match decideClaim resPurl x.tile.val (purlUsed x.tile.val s) x.cls 1 first same s with
          | (.wait, s) => (.wait, s)
          | (.capacity, s) => (.ended stCapacity (xfWord stCapacity 0 false resPurl), s)
          | (.race, s) => (.ended stRace (xfWord stRace 0 false resPurl), s)
          | (.granted, s) => (.accepted, enterUpdate x t (raTable d) row owner (raBf16 d) (rowValues (raBf16 d) t.width vs) s)

/-- Replace a ROW_ADD operation; a thread's counter has it in acceptance order, so thread, counter and descriptor place name it. -/
def putRowAdd (x y : RowAddOp) (s : State) : State :=
  modPurl (fun p => { p with ops := modFirst (fun z => z == x) (fun _ => y) p.ops }) s

/-- Remove it. -/
def dropRowAdd (x : RowAddOp) (s : State) : State := modPurl (fun p => { p with ops := p.ops.erase x }) s

/-- It ends on its counter: whole refusals keep their status, a chain that has accepted rows ends OK_PARTIAL with XI = k (R378,
R379). -/
def rowAddEnd (x : RowAddOp) (status : Nat) (xf : W64) (s : State) : State :=
  let s := dropRowAdd x s
  if x.accepted = 0 ∧ x.links = 0 ∧ x.next = 0 ∧ (x.desc.isNone ∨ status = stCapacity ∨ status = stRace) then
    opDone x.thread x.counter status 0 xf s
  else opDone x.thread x.counter stPartial (BitVec.ofNat 64 x.accepted) xf s

/-- Read and check the current descriptor (R378): the operation with it, or how it ends. -/
def rowAddDesc (x : RowAddOp) (s : State) : RowEnd × RowAddOp × State :=
  match purlRead x x.seg x.off 32 s with
  | (.stall w, s) => (.stall w, x, s)
  | (.later, s) => (.wait, x, s)
  | (.fault st seg va, s) => (.ended st (xfWord st seg false va), x, s)
  | (.data bs, s) =>
    let d := BitVec.ofNat 256 (ofBytes bs)
    if !(x.segs[x.seg]).allows (·.r) x.off 32 then
      (.ended stSegment (xfWord stSegment x.seg.val false ((x.segs[x.seg]).va x.off)), x, s)
    else match raVerdict d x.links x.segs s with
    | some (st, seg, va) => (.ended st (xfWord st seg false va), x, s)
    | none => (.accepted, { x with desc := some d, next := 0 }, s)

/-- Accept as many rows as can be accepted now (R379). -/
def rowAddRun : (fuel : Nat) → RowAddOp → (same : Bool) → State → State
  | 0, _, _, s => s
  | fuel + 1, x, same, s =>
    match x.desc with
    | none =>
      (match rowAddDesc x s with
       | (.accepted, y, s) => rowAddRun fuel y same (putRowAdd x y s)
       | (.stall w, _, s) => putRowAdd x { x with stall := w } s
       | (.wait, _, s) => s
       | (.ended st xf, _, s) => rowAddEnd x st xf s)
    | some d =>
      match acceptRow x d (decide (x.next = 0)) same s with
      | (.stall w, s) => putRowAdd x { x with stall := w } s
      | (.wait, s) => s
      | (.ended st xf, s) => rowAddEnd x st xf s
      | (.accepted, s) =>
        let y := { x with next := x.next + 1, accepted := x.accepted + 1 }
        let s := putRowAdd x y s
        if y.next < raCount d then rowAddRun fuel y false s
        else if raChain d then
          let z := { y with desc := none, off := y.off + 32, links := y.links + 1, next := 0 }
          rowAddRun fuel z false (putRowAdd y z s)
        else opDone y.thread y.counter stOK 0 0 (dropRowAdd y s)

/-- Rows and descriptors a chain can hold. -/
def rowAddFuel : Nat := 64 * 4096 + 128

/-- A waiting or stalled ROW_ADD goes on where it can (R379). -/
def rowAddResume (s : State) (x : RowAddOp) : State :=
  match x.stall with
  | .none => rowAddRun rowAddFuel x false s
  | .failed st =>
    let seg := match x.desc with
      | some d => raIdxSeg d
      | none => x.seg
    let off := match x.desc with
      | some d => raIdxOff d + x.next * raIdxBytes d
      | none => x.off
    rowAddEnd x st (xfWord st seg.val false ((x.segs[seg]).va off)) s
  | _ => s

/-- ROW_ADD (R342, R377–R379): the first descriptor is read as the thread's own access; the first claim may make the instruction
wait (R295). -/
def opRowAdd (same : Bool) : Meaning := fun key i t0 s =>
  if keyPlain key then plainFault stState s
  else
    let k := issueCounter i
    let seg := issueSeg i
    TStep.finish <| (need 1 t0 s).andThen fun _ t s => (pop key t s).andThen fun o t s =>
      (threadRead key seg o.toNat 32 .clean t s).andThen fun bs t s => (countUp key k t s).andThen fun _ t s =>
        let d := BitVec.ofNat 256 (ofBytes bs)
        match raVerdict d 0 t.segs s with
        | some (st, sg, va) => .ok () (latchNow k st (xfWord st sg false va) t) s
        | none =>
          let tile := keyTile key
          let step := ((confirmOf s).map (·.num)).getD 0
          let x : RowAddOp := {
            tile := Fin.ofNat 16 tile, thread := key, counter := k, cls := t.cls, tag := t.tag, segs := t.segs, seg := seg,
            off := o.toNat, desc := some d, links := 0, next := 0, accepted := 0, step := step, stall := .none }
          match (decideClaim resPurl tile (purlUsed tile s) t.cls 1 true same s).1 with
          | .capacity => .ok () (latchNow k stCapacity (xfWord stCapacity 0 false resPurl) t) s
          | .race => .ok () (latchNow k stRace (xfWord stRace 0 false resPurl) t) s
          | .wait => .stop (.claim ⟨resPurl, tile, t.cls, 1, key⟩ s)
          | .granted =>
            let s := putThread key t (modPurl (fun p => { p with ops := p.ops ++ [x] }) s)
            let s := storeSlots (rowAddRun rowAddFuel x same s)
            .ok () { t with cc := ((threadAt key s).map (·.cc)).getD t.cc } s

/-! ### Which adder -/

/-- Would the adder take this update into an accumulator? The row is looked up as it now stands. -/
def wantsExact (u : Update) (s : State) : Bool :=
  match tableOf u.table s with
  | none => false
  | some t =>
    match t.slot u.row with
    | none => false
    | some slot =>
      match dirEntry t (t.slotBlock slot) s with
      | some e => takesExact u t (e.frame * 65536 + t.slotOffset slot) s
      | none => t.addMode == 2 && !fellBack u s

/-! ### Received updates (R382–R384) -/

/-- The record of a sender. -/
def senderOf (src : Nat) (s : State) : SenderRec := (kvGet s.pu.senders src).getD {}

/-- The number has been applied before (R382). -/
def SenderRec.seen (r : SenderRec) (n : Nat) : Bool :=
  decide (n < r.next.toNat) || r.map.getLsbD (n - r.next.toNat)

/-- NEXT advances past every set bit (R382); bit `i` of the map stands for NEXT + i. -/
def SenderRec.advance : (fuel : Nat) → SenderRec → SenderRec
  | 0, r => r
  | fuel + 1, r => if r.map.getLsbD 0 then SenderRec.advance fuel ⟨r.next + 1, r.map >>> 1⟩ else r

/-- Record an applied number (R382). -/
def SenderRec.record (r : SenderRec) (n : Nat) : SenderRec :=
  SenderRec.advance 1024 { r with map := r.map ||| BitVec.twoPow 1024 (n - r.next.toNat) }

/-- Remove a received update from service. -/
def dropInbound (u : Update) (s : State) : State :=
  modPurl (fun p => { p with inbound := p.inbound.filter (fun x => !(x.sender == u.sender && x.seqNo == u.seqNo)) }) s

/-- Keep a received update in service with a stall. -/
def keepInbound (u : Update) (w : Stall) (s : State) : State :=
  let s := dropInbound u s
  modPurl (fun p => { p with inbound := p.inbound ++ [{ u with stall := w }] }) s

/-- Answer a received update with a ROW_NAK (R436). -/
def nakUpdate (u : Update) (reason : Nat) (s : State) : State :=
  let step := if reason = 0x02 then ((s.stp.live.find? (fun x => x.phase != .opened)).map (·.num)).getD 0 else 0
  let s := modCount u.sender (fun c => { c with nacked := c.nacked + 1 }) s
  (sendRouted u.sender u.cls.val false (msgRowNak u.sender reason true u.seqNo.toNat step s) s).2

/-- Apply or park a received update, record its number in the same action, and acknowledge it (R382). -/
def applyInbound (u : Update) (s : State) : State :=
  match updatePlace u s with
  | ((some (t, pa), _), s) =>
    (match applyAt u t pa s with
     | (.done parked, s) =>
       let s := countDone u parked (dropInbound u s)
       let s := modPurl (fun p => { p with senders := kvSet p.senders u.sender ((senderOf u.sender s).record u.seqNo.toNat) }) s
       (sendRouted u.sender u.cls.val false (msgRowAck u.sender u.seqNo false parked s) s).2
     | (_, s) => keepInbound u .none s)
  | ((none, .stall w), s) => keepInbound u w s
  | ((none, _), s) => nakUpdate u 0x09 (dropInbound u s)

/-! ### The adder rows (R385, R387) -/

/-- The adder takes the `i`-th waiting update of a source, a tile's Purl or (16) the received ones, if it is one for this kind of
adder (R385, R387). -/
def adderRun (exact : Bool) (src : Fin 17) (i : Nat) (s : State) : State :=
  let us := if src.val < 16 then s.pu.slots.filter (fun u => u.tile == src.val && u.dest == ownDev s) else s.pu.inbound
  match us[i]? with
  | none => s
  | some u =>
    if !engines s || wantsExact u s != exact then s
    else match u.stall with
    | .none => if src.val < 16 then applyLocal u s else applyInbound u s
    | .failed _ => if src.val < 16 then refuseUpdate u 0x09 (dropSlot u s) else nakUpdate u 0x09 (dropInbound u s)
    | _ => s

end Sys2Proof.Machine
end

