-- ==== Sys2Proof/Machine/Tally.lean ====
section
/-! DEFINITION. The tally (21_capacity_and_tally.md, R451–R457): ledgers, windows, checks, reports and the dropped-stitch alarm. -/

namespace Sys2Proof.Machine

open Sys2Proof

/-- What a reading of a ledger gives: its input and its location terms in flow order (R451). -/
structure Reading where
  input : Nat
  terms : List Nat
deriving DecidableEq, Repr

/-- Counts of a peer. -/
def countOf (peer : Nat) (s : State) : PeerCount := (kvGet s.fab.counts peer).getD {}

/-- Row-buffer tokens of a tile (kind 0x1). -/
def readBuffers (t : Nat) (s : State) : Reading :=
  let mine := s.tl.hooks.filter (fun x => x.tile.val == t)
  let ops := (mine.map (fun x => x.buffers - x.packetBufs)).sum
  let held := (mine.map (·.packetBufs)).sum
  let kept := ((s.tl.retained.filter (fun x => x.tile.val == t)).map (·.buffers)).sum
  ⟨8192, [8192 - (ops + held + kept), ops, held, kept]⟩

/-- Hook requests of a tile (kind 0x2): what was issued and is neither outstanding nor committed was discarded. -/
def readRequests (t : Fin 16) (s : State) : Reading :=
  let mine := s.tl.hooks.filter (fun x => x.tile == t)
  let issued := s.tl.reqIssued[t] + (mine.map (·.issuedReq)).sum
  let committed := s.tl.reqCommitted[t] + (mine.map (·.committedReq)).sum
  let outst := (mine.map (fun x => (x.fetched.map (fun f => fetchedSectors f.rows)).sum)).sum
  ⟨issued, [outst, committed, issued - outst - committed]⟩

/-- Outbound updates to a destination (kind 0x3). -/
def readOut (d : Nat) (s : State) : Reading :=
  let c := countOf d s
  ⟨c.accepted.toNat, [(s.pu.slots.filter (fun u => u.dest == d)).length, c.applied.toNat,
    if d = ownDev s then parkedOf d s else 0, (s.pu.store.filter (fun r => r.upd.dest == d)).length, c.acked.toNat + c.refused.toNat]⟩

/-- Inbound updates of a sender (kind 0x4). -/
def readIn (d : Nat) (s : State) : Reading :=
  let c := countOf d s
  ⟨c.received.toNat, [((s.pu.inbound ++ s.pu.held).filter (fun u => u.sender == d)).length, c.inApplied.toNat,
    if d = ownDev s then 0 else parkedOf d s, c.dups.toNat, c.nacked.toNat]⟩

/-- Row requests out and in (kinds 0x5 and 0x6). -/
def readGets (d : Nat) (s : State) : Reading :=
  let c := countOf d s
  ⟨c.gets.toNat, [(s.fab.gets.filter (fun g => g.dest == d && g.result.isNone)).length, c.answered.toNat, c.retired.toNat]⟩
def readServed (d : Nat) (s : State) : Reading :=
  let c := countOf d s
  ⟨c.inGets.toNat, [(s.fab.services.filter (fun g => g.src == d)).length, c.inAnswered.toNat, c.inDropped.toNat]⟩

/-- The credits this device advertises (R425). -/
def ownAlloc : Vector Nat 5 := #v[512, 768, 512, 128, 128]

/-- Fabric credits (kind 0x7): direction, port and VC. -/
def readCredits (rx : Bool) (p : Fin 9) (vc : Fin 5) (s : State) : Reading :=
  let x := s.fab.ports[p]
  if rx then ⟨ownAlloc[vc], [ownAlloc[vc] - x.rxHeld[vc] - x.rxFreed[vc], x.rxHeld[vc], x.rxFreed[vc]]⟩
  else ⟨x.alloc[vc], [x.avail[vc], x.alloc[vc] - x.avail[vc]]⟩

/-- Exact-add entries of a stack (kind 0x9). -/
def readAccums (k : Fin 8) (s : State) : Reading :=
  ⟨s.pu.allocated[k], [(s.pu.accums.filter (fun a => a.stack == k)).length, s.pu.released[k]]⟩

/-- Ones of a mask of engines. -/
def ones58 (m : BitVec 58) : Nat := ((List.range 58).filter (fun i => m.getLsbD i)).length

/-- Range-invalidation acknowledgements (kind 0xA). -/
def readAcks (s : State) : Reading := ⟨s.tx.ackExpected, [(s.tx.invals.map (fun i => ones58 i.waiting)).sum, s.tx.ackReceived]⟩

/-- Tension tokens (kind 0x8): one token for each watt of the effective cap, held by the power domains up to their use. -/
def readTokens (s : State) : Reading := let held := min s.pm.cap (s.pm.samples.sum / max 1 s.pm.samples.length)
  ⟨s.pm.cap, [s.pm.cap - held, held]⟩

/-- The devices that have ledgers of kinds 0x3–0x6: this one and every peer heard from (R451). -/
def ledgerPeers (s : State) : List Nat :=
  let ks := s.fab.counts.map (·.1)
  if ks.contains (ownDev s) then ks else (kvSet s.fab.counts (ownDev s) {}).map (·.1)

/-- Read the ledger with this id; `none` where no such ledger exists (R451, R455). -/
def readLedger (id : Nat) (s : State) : Option Reading :=
  let kind := id / 4096
  let i := id % 4096
  let peer := (ledgerPeers s).contains i
  if kind = 1 then (if i < 16 then some (readBuffers i s) else none)
  else if kind = 2 then (if i < 16 then some (readRequests (Fin.ofNat 16 i) s) else none)
  else if kind = 3 then (if peer then some (readOut i s) else none)
  else if kind = 4 then (if peer then some (readIn i s) else none)
  else if kind = 5 then (if peer then some (readGets i s) else none)
  else if kind = 6 then (if peer then some (readServed i s) else none)
  else if kind = 7 then
    (if i < 512 ∧ bits i 4 4 < 9 ∧ bits i 0 4 < 5 then
      some (readCredits (i.testBit 8) (Fin.ofNat 9 (bits i 4 4)) (Fin.ofNat 5 (bits i 0 4)) s) else none)
  else if kind = 8 then (if i = 0 then some (readTokens s) else none)
  else if kind = 9 then (if i < 8 then some (readAccums (Fin.ofNat 8 i) s) else none)
  else if kind = 10 then (if i = 0 then some (readAcks s) else none)
  else none

/-- Every ledger id, ascending. -/
def ledgerIds (s : State) : List Nat :=
  let peers := ledgerPeers s
  (List.range 16).map (0x1000 + ·) ++ (List.range 16).map (0x2000 + ·)
    ++ peers.map (0x3000 + ·) ++ peers.map (0x4000 + ·) ++ peers.map (0x5000 + ·) ++ peers.map (0x6000 + ·)
    ++ (List.range 2).flatMap (fun d => (List.range 9).flatMap (fun p => (List.range 5).map (fun v => 0x7000 + 256 * d + 16 * p + v)))
    ++ [0x8000] ++ (List.range 8).map (0x9000 + ·) ++ [0xA000]

/-- The deficit of a ledger against its baseline; a surplus is none (R453, R456). -/
def deficit (id : Nat) (s : State) : Nat :=
  match readLedger id s with
  | some r => r.input - (kvGet s.ty.base id).getD 0 - r.terms.sum
  | none => 0

/-- The unbounded window of R452 that a ledger stands in: 3 an invalidation, 4 close stages 1–3, 5 a reset's recount. -/
def ledgerWindow (id : Nat) (s : State) : Option Nat :=
  let kind := id / 4096
  if kind = 0xA ∧ !s.tx.invals.isEmpty then some 3
  else if (kind == 3 || kind == 4) && (match closingOf s with
      | some (_, k) => decide (k ≤ 3)
      | none => false) then some 4
  else if !s.rst.recountDone then some 5 else none

/-- A bounded window covers the ledger's kind (R452 codes 1 and 2, R453 step 4). -/
def rereadKind (id : Nat) : Bool := decide (2 ≤ id / 4096 ∧ id / 4096 ≤ 7)

/-- Take one ledger into a check (R453 steps 2 to 5). -/
def checkLedger (closing : Bool) (s : State) (c : Check) (id : Nat) : Check :=
  let d := deficit id s
  let c := { c with compared := c.compared + 1 }
  if d = 0 then c
  else match (if closing then none else ledgerWindow id s) with
  | some w => { c with inWindow := c.inWindow ++ [(id, w, d)] }
  | none => if rereadKind id then { c with rereads := c.rereads ++ [(id, 0)] } else { c with outOf := c.outOf ++ [(id, d)] }

/-- The ledgers a check reads (R453). -/
def checkIds (p : CheckFor) (s : State) : List Nat :=
  match p with
  | .close _ => (ledgerIds s).filter (fun i => i / 4096 == 3 || i / 4096 == 4)
  | _ => ledgerIds s

/-- Items tagged with the step that still stand where stage 3 wants none (R453). -/
def closeLeft (id step : Nat) (s : State) : Nat :=
  let d := id % 4096
  if id / 4096 = 3 then
    (s.pu.slots.filter (fun u => u.dest == d && u.step == step)).length
      + (s.pu.store.filter (fun r => r.upd.dest == d && r.upd.step == step)).length
  else ((s.pu.inbound ++ s.pu.held).filter (fun u => u.sender == d && u.step == step)).length

/-- Begin a check. -/
def checkBegin (p : CheckFor) (s : State) : State :=
  let closing := match p with
    | .close _ => true
    | _ => false
  let c := (checkIds p s).foldl (checkLedger closing s) ⟨p, 0, s.rst.recountDone, [], [], []⟩
  let c := match p with
    | .close n => { c with outOf := c.outOf ++ ((checkIds p s).filter (fun i =>
        decide (0 < closeLeft i n s) && !c.outOf.any (fun o => o.1 == i))).map (fun i => (i, closeLeft i n s)) }
    | _ => c
  { s with ty := { s.ty with check := some c } }

/-- A ledger is re-read after its bound (R453 step 4): balanced, or out of balance at the third re-read. -/
def auditReread (id : Nat) (s : State) : State :=
  match s.ty.check with
  | none => s
  | some c =>
    match c.rereads.find? (fun r => r.1 == id) with
    | none => s
    | some r =>
      let d := deficit id s
      let rest := c.rereads.filter (fun x => x.1 != id)
      let c := if d = 0 then { c with rereads := rest }
        else if 2 ≤ r.2 then { c with rereads := rest, outOf := c.outOf ++ [(id, d)] }
        else { c with rereads := modFirst (fun x => x.1 == id) (fun x => (x.1, x.2 + 1)) c.rereads }
      { s with ty := { s.ty with check := some c } }

/-- The dropped-stitch alarm for one ledger (R456). -/
def raiseAlarm (s : State) (x : Nat × Nat) : State :=
  let input := ((readLedger x.1 s).map (·.input)).getD 0
  let live := s.stp.live
  let oldest := ((live.head?).map (·.num)).getD 0
  let body := BitVec.ofNat 192 (input % 2 ^ 64 + oldest % 2 ^ 48 * 2 ^ 64)
  let s := logFull .contained 0x63 .step x.1 0 x.2 (some body) s
  let s := raise 71 { s with ty := { s.ty with
    alarm := true, ledger := x.1, count := satInc s.ty.count, base := kvSet s.ty.base x.1 ((kvGet s.ty.base x.1).getD 0 + x.2) } }
  modStp (fun p => { p with live := p.live.map (fun y => { y with damaged := true }) }) s

/-- The ledgers found out of balance, in ascending id order. -/
def Check.outSorted (c : Check) : List (Nat × Nat) := c.outOf.foldl (fun m x => kvSet m x.1 x.2) []

/-- One 16-byte entry of the audit report (R454). -/
def auditEntry (id st w d : Nat) : List Byte :=
  toBytes 2 id ++ [BitVec.ofNat 8 st, BitVec.ofNat 8 w] ++ toBytes 4 0 ++ toBytes 8 d

/-- The 4,096-byte audit report (R454). -/
def Check.report (c : Check) : List Byte :=
  let es := c.outSorted.map (fun x => auditEntry x.1 2 0 x.2) ++ c.inWindow.map (fun x => auditEntry x.1 1 x.2.1 x.2.2)
  let nOut := c.outOf.length
  let nWin := c.inWindow.length
  let head := toBytes 4 c.compared ++ toBytes 4 (c.compared - nOut - nWin) ++ toBytes 4 nWin ++ toBytes 4 nOut
    ++ [BitVec.ofNat 8 (b2n (decide (252 < es.length)) + 2 * b2n c.recountDone)] ++ toBytes 47 0
  let body := (es.take 252).flatten
  head ++ body ++ List.replicate (4096 - 64 - body.length) 0

/-- The 64-byte record of TALLY_READ (R455): one reading, with no re-read. -/
def tallyRecord (id : Nat) (s : State) : Option (List Byte) :=
  (readLedger id s).map fun r =>
    let d := deficit id s
    let w := ledgerWindow id s
    let ts := r.terms
    let words := if ts.length ≤ 5 then ts ++ List.replicate (5 - ts.length) 0 else ts.take 4 ++ [(ts.drop 4).sum]
    toBytes 2 id ++ [if d = 0 then 0 else if w.isSome then 1 else 2, if d = 0 then 0 else BitVec.ofNat 8 (w.getD 0)] ++ toBytes 4 0
      ++ toBytes 8 r.input ++ words.flatMap (fun x => toBytes 8 x) ++ toBytes 8 d

/-- TY_ALARM (R457). -/
def tyAlarmReg (s : State) : Nat :=
  b2n s.ty.alarm + 2 * b2n s.ty.check.isSome + 2 ^ 16 * s.ty.ledger + 2 ^ 32 * s.ty.count.toNat

end Sys2Proof.Machine
end

