-- ==== Sys2Proof/Machine/Steps.lean ====
section
/-! DEFINITION. Steps (01_rows_bags_and_steps.md R16–R23): opening, confirming and closing a step, the speculation window (17,
R361, R371–R376), and the seven close stages (18, R391–R393; 09, R209; 10, R220, R225; 05, R108). -/

namespace Sys2Proof.Machine

open Sys2Proof

/-- The largest step number (R16). -/
def stepMax : Nat := 2 ^ 48 - 1

/-! ### Opening (R16, R22) -/

/-- The step number STEP_OPEN must carry, if the device fixes it (R16). -/
def expectedStep (s : State) : Option Nat := s.stp.last.map (· + 1)

/-- A STEP_OPEN for `n` may take effect now: no BIND_OFF runs (R96), the number is in order, and at most one other step is live, past its open phase
(R16, R22). -/
def openOk (n : Nat) (s : State) : Bool :=
  !binding s && decide (n ≤ stepMax) && (s.stp.last.isNone || expectedStep s == some n)
    && decide (s.stp.live.length < 2) && s.stp.live.all (fun x => x.phase != .opened)

/-- The step opens. -/
def openStep (n : Nat) (s : State) : State :=
  let st : Step := ⟨n, .opened, none, true, false, 0, 0, 0, 0, 0, 0, 0, 0, 0, 0⟩
  modStp (fun x => { x with last := some n, live := x.live ++ [st] }) s

/-! ### Windows (R22, R361, R371) -/

/-- A window may open for step `n` (R22). -/
def windowOk (n : Nat) (s : State) : Bool :=
  !windowLive s && (match stepOf n s with
    | some st => st.phase == .opened
    | none => false)

/-- The window opens: the counters restart and the write map is cleared (R186, R262, R371). -/
def openWindow (n : Nat) (s : State) : State :=
  let s := modStp (fun x => { x with window := some ⟨n, .opened, 0, 0, 0, 0, 0, 0⟩, mapStep := n }) s
  { s with ram := { s.ram with windowMap := [], windowOpen := true } }

/-- The window of step `n` has ended abandoned (R184). -/
def windowAbandoned (n : Nat) (s : State) : Bool :=
  match s.stp.window with
  | some w => w.step == n && w.state == .abandoned
  | none => false

/-! ### Confirming (R17, R23, R184) -/

/-- Step `n` waits for the close before it (R23). -/
def confirmHeld (n : Nat) (s : State) : Bool := s.stp.live.any (fun x => decide (x.num < n))

/-- The confirm finds the step in open phase, and a window where it names one (R17, R184). -/
def confirmOk (n : Nat) (window : Bool) (s : State) : Bool :=
  (match stepOf n s with
   | some st => st.phase == .opened
   | none => false) && (!window || windowOpen n s || windowAbandoned n s)

/-- The confirm takes effect and completes, or waits for the validation of its window (R184, R375). -/
def confirmNow (h : HeldConfirm) (s : State) : State :=
  let n := h.step
  let qp : Fin 64 := Fin.ofNat 64 h.owner.1
  if !confirmOk n h.window s then completeAt qp h.owner.2 stState 0 0 0 h.late s
  else if h.window && windowOpen n s then
    let s := modWindow (fun w => { w with state := .validating }) (modStep n (fun x => { x with phase := .confirm }) s)
    let s := modCmd qp h.owner.2 (fun c => { c with effective := true, wait := none }) s
    modStp (fun x => { x with validating := some h }) s
  else
    let s := if windowOpen n s then (abandonWindow s).2 else s
    let ab := windowAbandoned n s
    completeAt qp h.owner.2 stOK 0 (BitVec.ofNat 64 (2 * b2n ab)) 0 h.late (modStep n (fun x => { x with phase := .confirm }) s)

/-- A due confirm takes effect, or is held for the close before it (R23); a marked one that is held takes effect after its mark
(R167). -/
def confirmDue (h : HeldConfirm) (s : State) : State :=
  if confirmHeld h.step s && (match stepOf h.step s with
      | some st => st.phase == .opened
      | none => false) then
    let marked := (findCmd (Fin.ofNat 64 h.owner.1) h.owner.2 s).any (fun c => Entry.marked c.entry)
    modCmd (Fin.ofNat 64 h.owner.1) h.owner.2 (fun c => { c with wait := some 0x0101 })
      (modStp (fun x => { x with heldConfirm := some { h with late := h.late || marked } }) s)
  else confirmNow h s

/-- STEP_CONFIRM completes once its window is validated (R375). -/
def finishValidation (s : State) : State :=
  match s.stp.validating, s.stp.window with
  | some h, some w =>
    if w.state = .validating ∧ !unvalidated w.step s then
      let s := modStp (fun x => { x with validating := none, lastAbandoned := none, window := some { w with state := .closed } }) s
      completeAt (Fin.ofNat 64 h.owner.1) h.owner.2 stOK 0 1 (BitVec.ofNat 64 (w.reread % 2 ^ 32 + w.deferred % 2 ^ 32 * 2 ^ 32)) h.late s
    else s
  | _, _ => s

/-! ### Closing (R17, R391) -/

/-- The step can close: it is in confirm phase (R17). -/
def closeOk (n : Nat) (s : State) : Bool :=
  match stepOf n s with
  | some st => st.phase == .confirm
  | none => false

/-- Begin close stage `k` of step `n`: its BEGIN record (R391, R393). -/
def stageBegin (n k : Nat) (s : State) : State :=
  stepJournal 1 k n 0 0 0 (modStep n (fun x => { x with phase := .closing k }) s)

/-- End close stage `k` of step `n` and begin the next one. -/
def stageEnd (n k : Nat) (a b c : Nat) (s : State) : State :=
  stageBegin n (k + 1) (stepJournal 2 k n (BitVec.ofNat 64 a) (BitVec.ofNat 64 b) (BitVec.ofNat 64 c) s)

/-- STEP_CLOSE takes effect (R19, R391). -/
def closeStart (n : Nat) (owner : Nat × Nat) (s : State) : State :=
  let flip := !s.gg.sched.any (fun e => e.2.kind == 5 && e.2.owner == some owner)
  let s := modCmd (Fin.ofNat 64 owner.1) owner.2 (fun c => { c with effective := true }) s
  stageBegin n 1 (modStep n (fun x => { x with closer := some owner, flipReady := flip }) s)

/-- Name the resource a close waits on in its command, or none (R157, R272, R392). -/
def closeWait (st : Step) (res : Option Nat) (s : State) : State :=
  match st.closer with
  | some o => modCmd (Fin.ofNat 64 o.1) o.2 (fun c => { c with wait := res }) s
  | none => s

/-- The class the close runs in: its queue pair's (R391). -/
def closeClass (st : Step) (s : State) : Fin 4 :=
  match st.closer with
  | some o => (s.mb.qps[(Fin.ofNat 64 o.1 : Fin 64)]).cls
  | none => 0

/-- The resource id of the parking areas (R443). -/
def resParking : Nat := 0x0B

/-- Stage 1 ends once no non-speculative gather of the step runs and its Purl slots are empty (R19, R391). -/
def closeStage1 (s : State) : State :=
  match closingOf s with
  | some (st, 1) =>
    let n := st.num
    let gathers := s.tl.hooks.any (fun x => !x.spec && x.stepValid && x.step == n)
    let slots := s.pu.slots.any (fun u => u.step == n)
    if gathers then s
    else if slots then
      (if (parkArea 0 s).isNone then closeWait st (some resParking) s else s)
    else closeWait st (some resCredits) (stageEnd n 1 st.applied st.parked s.pu.store.length (closeWait st none s))
  | _ => s

/-- Own ROW_ADDs of step `n` are all acknowledged. -/
def allAcked (n : Nat) (s : State) : Bool :=
  !s.pu.store.any (fun r => r.upd.step == n) && !s.pu.slots.any (fun u => u.step == n && u.dest != ownDev s)

/-- CTRL DRAIN(n) to one device (R391, R428). -/
def sendDrain (n dst : Nat) (s : State) : State :=
  let s := modStp (fun x => { x with drainsOut := if x.drainsOut.contains (dst, n) then x.drainsOut else x.drainsOut ++ [(dst, n)] }) s
  (sendRouted dst 4 false (msgCtrl dst 0x05 (mput 16 6 n 0) [] s) s).2

/-- In stages 2 to 7, with every own ROW_ADD acknowledged, DRAIN(n) goes to each member of the peer set that has not had it
(R391). -/
def drainProgress (s : State) : State :=
  match closingOf s with
  | some (st, k) =>
    if 2 ≤ k ∧ allAcked st.num s then
      (peerSet s).foldl (fun s d => if s.stp.drainsOut.contains (d, st.num) then s else sendDrain st.num d s) s
    else s
  | none => s

/-- Stage 2 ends once every own ROW_ADD is acknowledged and DRAIN(n) has come from every member (R391, R392). -/
def closeStage2 (s : State) : State :=
  match closingOf s with
  | some (st, 2) =>
    let n := st.num
    if allAcked n s && (peerSet s).all (fun d => s.stp.drainsIn.contains (d, n)) then
      stageEnd n 2 st.acked st.inApplied st.dups (closeWait st none s)
    else s
  | _ => s

/-- Stage 3 compares the update ledgers, after the recount of a reset (R107, R391, R453). -/
def closeStage3 (s : State) : State :=
  match closingOf s with
  | some (st, 3) =>
    if !s.rst.recountDone then s
    else match s.ty.check with
    | none => checkBegin (.close st.num) s
    | some _ => s
  | _ => s

/-- The check of stage 3 has ended. -/
def closeBalanced (c : Check) (n : Nat) (s : State) : State :=
  let out := c.outSorted
  let s := out.foldl raiseAlarm { s with ty := { s.ty with check := none } }
  let s := if out.isEmpty then s else modStep n (fun x => { x with damaged := true }) s
  stageEnd n 3 c.compared out.length 0 s

/-! ### Stage 4 (R388, R390) -/

/-- An entry's sector of the region is poisoned: the entry is lost (R390). -/
def entryLost (a : Accum) (i : Nat) (s : State) : Bool := poisoned (sectorOf (a.addr + 32 + 16 * i)) s

/-- The accessor of the conversion: the adder works in the close's class. -/
def convertWho (cls : Fin 4) : Accessor := ⟨2, 0, cls.val, false, 0⟩

/-- Convert one accumulator at its row's address. -/
def convertAt (a : Accum) (t : Table) (pa : Nat) (s : State) : State :=
  let es := a.entries.zipIdx
  let lost := (es.filter (fun e => entryLost a e.2 s)).map (·.2)
  let good := es.filter (fun e => !lost.contains e.2)
  let inBad := good.filter (fun e => poisoned (sectorOf (elemPa t pa e.2)) s)
  let ok := good.filter (fun e => !poisoned (sectorOf (elemPa t pa e.2)) s)
  let s := markStale a.table a.row s
  let vs := ok.map (fun e => (e.2, exactValue t.fmt t.sat e.1.base e.1.state e.1.acc))
  let s := if vs.isEmpty then s else writeElems t pa vs s
  let vals := (List.range t.width).map (fun i => match a.entries[i]? with
    | some e => exactSum e.state e.acc
    | none => 0)
  let u : Update := {
    tile := 0, thread := 0, dest := ownDev s, sender := ownDev s, seqNo := 0, step := a.step, table := a.table, row := a.row,
    values := vals, bf16 := false, cls := 0, draws := [], stall := .none }
  let secs := (inBad.map (fun e => sectorOf (elemPa t pa e.2))).eraseDups
  let s := secs.foldl (fun s x =>
    (parkSector u t (x, (inBad.filter (fun e => sectorOf (elemPa t pa e.2) == x)).map (·.2)) s).getD s) s
  let dead := (lost.map (fun i => sectorOf (elemPa t pa i))).eraseDups
  dead.foldl (fun s x =>
    let s := if poisoned x s then s else { s with ram := { s.ram with poison := x :: s.ram.poison } }
    logErr .deferred 0x39 .data (stackOf x).val a.table x s) s

/-- Release an accumulator (R388). -/
def accumDrop (a : Accum) (s : State) : State :=
  modPurl (fun p => { p with
    accums := p.accums.filter (fun b => !(b.step == a.step && b.table == a.table && b.row == a.row))
    released := vmod p.released a.stack (fun n => n + 1) }) s

/-- Convert one accumulator: its block is faulted in first, and an accumulator whose target cannot be reached is released
unwritten, with the failed fault-in logged (R388). -/
def convertOne (n : Nat) (cls : Fin 4) (s : State) (a : Accum) : State :=
  match tableOf a.table s with
  | none => accumDrop a s
  | some t =>
    match t.slot a.row with
    | none => accumDrop a s
    | some slot =>
      match translate (convertWho cls) t.tag.toNat (t.slotVa slot) t.rowBytes .add s with
      | (.ok [(pa, _, true)], s) =>
        let s := accumDrop a (convertAt a t pa s)
        modStep n (fun x => { x with converted := x.converted + 1, elements := x.elements + a.entries.length }) s
      | (.stall _, s) => s
      | (_, s) => accumDrop a (logFaultIn a.table (t.slotBlock slot) s)

/-- Stage 4: every accumulator of the step is converted and released; blocks on their way in leave the rest for later
(R391). -/
def closeStage4 (s : State) : State :=
  match closingOf s with
  | some (st, 4) =>
    let n := st.num
    let s := (s.pu.accums.filter (fun a => a.step == n)).foldl (convertOne n (closeClass st s)) s
    if s.pu.accums.any (fun a => a.step == n) then s
    else
      let st := (stepOf n s).getD st
      stageEnd n 4 st.converted st.elements (s.pu.fellTables.filter (fun x => x.1 == n)).length s
  | _ => s

/-! ### Stage 5 (R209) -/

/-- The version a row's primary has now: its frame's, or its directory entry's (R261). -/
def primaryVersion (t : Table) (slot : Nat) (s : State) : Option (BitVec 7) :=
  (dirEntry t (t.slotBlock slot) s).map (fun d => if d.loc = 1 then frameVersion d.frame s else d.version)

/-- Read a row's primary for a copy, faulting its block in (R209, R212); `none` while it is on its way. -/
def readPrimary (cls : Fin 4) (id row : Nat) (s : State) : Option (Option (List Byte × BitVec 7)) × State :=
  match tableOf id s with
  | none => (some none, s)
  | some t =>
    match t.slot row with
    | none => (some none, s)
    | some slot =>
      match xRead (convertWho cls) t.tag.toNat (t.slotVa slot) t.rowBytes .read s with
      | (.data bs, s) => (some (some (bs, (primaryVersion t slot s).getD 0)), s)
      | (.stall _, s) => (none, s)
      | (.wait, s) => (none, s)
      | (_, s) => (some none, s)

/-- A copy must be rewritten: it is stale, or its primary's version has changed (R209, R212). -/
def copyOld (id : Nat) (c : RowCopy) (s : State) : Bool :=
  c.stale || (match tableOf id s with
    | none => false
    | some t => match t.slot c.row with
      | none => false
      | some slot => (primaryVersion t slot s).any (fun v => v != c.version))

/-- Refresh a list of copies of a table: the copies as they then are, how many were rewritten, and whether any still waits. -/
def refreshRows (cls : Fin 4) (id : Nat) : List RowCopy → State → (List RowCopy × Nat × Bool) × State
  | [], s => (([], 0, false), s)
  | c :: cs, s =>
    if copyOld id c s then
      match readPrimary cls id c.row s with
      | (some (some (bs, v)), s) =>
        let ((rs, n, w), s) := refreshRows cls id cs (noteRewritten id c.row s)
        ((⟨c.row, bs, v, false⟩ :: rs, n + 1, w), s)
      | (some none, s) =>
        let ((rs, n, w), s) := refreshRows cls id cs s
        (({ c with stale := true } :: rs, n, w), s)
      | (none, s) =>
        let ((rs, n, _), s) := refreshRows cls id cs s
        ((c :: rs, n, true), s)
    else
      let ((rs, n, w), s) := refreshRows cls id cs s
      ((c :: rs, n, w), s)

/-- Refresh every replica: how many rows were rewritten and whether any still waits (R209). -/
def refreshReplicas (cls : Fin 4) (s : State) : (Nat × Bool) × State :=
  (List.range s.tbl.replicas.length).foldl (fun (acc : (Nat × Bool) × State) i =>
    let s := acc.2
    match s.tbl.replicas[i]? with
    | none => acc
    | some r =>
      let ((rows, n, w), s) := refreshRows cls r.table.toNat r.rows s
      ((acc.1.1 + n, acc.1.2 || w),
        { s with tbl := { s.tbl with replicas := s.tbl.replicas.set i { r with rows := rows } } })) ((0, false), s)

/-- Stage 5: replicas are rewritten from their primaries (R209, R391). -/
def closeStage5 (s : State) : State :=
  match closingOf s with
  | some (st, 5) =>
    let n := st.num
    let ((k, waits), s) := refreshReplicas (closeClass st s) s
    let s := modStep n (fun x => { x with rewritten := x.rewritten + k }) s
    if waits then s else stageEnd n 5 (st.rewritten + k) 0 0 s
  | _ => s

/-! ### Stages 6 and 7 -/

/-- The version flips: the closed step is `n`, and the held updates of n+1 come into service (R20, R391). -/
def flipStep (n : Nat) (s : State) : State :=
  let s := modStp (fun x => { x with closed := n, drainsIn := x.drainsIn.filter (fun d => decide (n ≤ d.2)),
                                       drainsOut := x.drainsOut.filter (fun d => decide (n ≤ d.2)) }) s
  let hs := s.pu.held
  let s := modStep n (fun x => { x with heldApplied := hs.length }) (modPurl (fun p => { p with held := [] }) s)
  hs.foldl (fun s u => applyInbound u s) s

/-- Stage 6: flips once its mark, if any, has been reached, and ends when every held update has been applied (R75, R391, R394). -/
def closeStage6 (s : State) : State :=
  match closingOf s with
  | some (st, 6) =>
    let n := st.num
    if !st.flipReady then s
    else
      let s := if s.stp.closed = n then s else flipStep n s
      if s.pu.inbound.any (fun u => u.step == n + 1) then s
      else
        let k := ((stepOf n s).map (·.heldApplied)).getD 0
        stageEnd n 6 n k 0 s
  | _ => s

/-- HOT01 is cleared for every block (R220). -/
def clearHot (s : State) : State :=
  s.tbl.tables.foldl (fun s x => (List.range x.2.blocks).foldl (fun s b =>
    match blockDir x.1 b s with
    | some d => if d.hot then blockMod x.1 b (fun d => { d with hot := false }) s else s
    | none => s) s) s

/-- READ_MOSTLY blocks that are dirty are written back and stay (R225). -/
def writeReadMostly (s : State) : State :=
  s.tbl.tables.foldl (fun s x => (List.range x.2.blocks).foldl (fun s b =>
    match blockDir x.1 b s with
    | some d =>
      if d.readMostly && d.dirty && d.loc == 1 && !framePoisoned d.frame s && !d.noHome && d.home != 1 then
        wbStart x.1 b (wbTier d) false s
      else s
    | none => s) s) s

/-- LBA of the step record of step `n` on a drive: its place in the ring of the last 256 LBAs (R108). -/
def recordLba (d : Drive) (n : Nat) : Nat := d.capacity - 256 + n % 256

/-- The step record goes to every usable drive (R108); answers the LBA on the lowest one, or all-ones. -/
def writeStepRecord (n : Nat) (s : State) : W64 × State :=
  let ps := (List.finRange 4).filter (fun p => (s.res.drives[p]).usable)
  (match ps with
   | p :: _ => BitVec.ofNat 64 (recordLba s.res.drives[p] n)
   | [] => BitVec.allOnes 64,
   ps.foldl (fun s p => nvmeIssue p (.stepRecord n) s) s)

/-- The END record of a stage of a step (R393). -/
def endRecord (n k : Nat) (s : State) : Option JournalRec := s.stp.journal.find? (fun r => r.kind == 2 && r.stage == k && r.step == n)

/-- Stage 7: release, the step record, the end of STEP_CLOSE, and a held confirm of n+1 (R23, R391). -/
def closeStage7 (s : State) : State :=
  match closingOf s with
  | some (st, 7) =>
    let n := st.num
    let s := writeReadMostly (clearHot s)
    let (lba, s) := writeStepRecord n s
    let s := stepJournal 2 7 n lba 0 0 s
    let e1 := endRecord n 1 s
    let c4 := match endRecord n 4 s with
      | some r => r.c.toNat
      | none => 0
    let r0 := match e1 with
      | some r => BitVec.ofNat 64 (satTo 32 r.a.toNat + satTo 32 r.b.toNat * 2 ^ 32)
      | none => 0
    let r1 := BitVec.ofNat 64 (satTo 32 c4 + 2 ^ 32 * b2n st.damaged)
    let s := modStp (fun x => { x with live := x.live.filter (fun y => y.num != n) }) s
    let s := modPurl (fun p => { p with fellRows := p.fellRows.filter (fun x => x.1 != n),
                                         fellTables := p.fellTables.filter (fun x => x.1 != n) }) s
    let s := { s with rst := { s.rst with closePending := false } }
    let s := match st.closer with
      | some o => complete (Fin.ofNat 64 o.1) o.2 stOK 0 r0 r1 s
      | none => s
    match s.stp.heldConfirm with
    | some h => if confirmHeld h.step s then s else confirmNow h (modStp (fun x => { x with heldConfirm := none }) s)
    | none => s
  | _ => s

end Sys2Proof.Machine
end

