-- ==== Sys2Proof/Machine/Matrix.lean ====
section
/-! DEFINITION. The Matrix Unit (19_tensor_arithmetic.md): the MXOP descriptor and its checks (R402, R403), LOAD and STORE (R404–R406,
R415), MATMUL (R407–R410), ELEMWISE (R414), SEED (R413), and completion (R416). -/

namespace Sys2Proof.Machine

open Sys2Proof

/-! ### The descriptor (R402) -/

/-- Bits `lo … lo+n-1` of byte `o` on. -/
def MxOp.fld (x : MxOp) (o lo n : Nat) : Nat := bits x.desc.toNat (8 * o + lo) n

def MxOp.kind (x : MxOp) : Nat := x.fld 0 0 4
def MxOp.sat (x : MxOp) : Bool := x.fld 1 0 1 == 1
def MxOp.round (x : MxOp) : Nat := x.fld 1 1 2
def MxOp.resEn (x : MxOp) : Bool := x.fld 1 3 1 == 1
def MxOp.resSeg (x : MxOp) : Fin 8 := Fin.ofNat 8 (x.fld 1 4 3)
def MxOp.aFmt (x : MxOp) : Nat := x.fld 2 0 4
def MxOp.aSigned (x : MxOp) : Bool := x.fld 2 4 1 == 1
def MxOp.bFmt (x : MxOp) : Nat := x.fld 3 0 4
def MxOp.bSigned (x : MxOp) : Bool := x.fld 3 4 1 == 1
def MxOp.outFmt (x : MxOp) : Nat := x.fld 4 0 4
def MxOp.outSigned (x : MxOp) : Bool := x.fld 4 4 1 == 1
def MxOp.cont (x : MxOp) : Bool := x.fld 5 0 1 == 1
def MxOp.drain (x : MxOp) : Bool := x.fld 5 1 1 == 1
def MxOp.bTrans (x : MxOp) : Bool := x.fld 5 2 1 == 1
def MxOp.scale (x : MxOp) : Nat := x.fld 5 3 2
def MxOp.expand (x : MxOp) : Nat := x.fld 5 5 2
def MxOp.eop (x : MxOp) : Nat := x.fld 6 0 2
def MxOp.bcast (x : MxOp) : Nat := x.fld 6 2 2
def MxOp.m (x : MxOp) : Nat := x.fld 8 0 11
def MxOp.n (x : MxOp) : Nat := x.fld 10 0 11
def MxOp.k (x : MxOp) : Nat := x.fld 12 0 14
def MxOp.seed (x : MxOp) : Nat := x.fld 8 0 32
def MxOp.aOff (x : MxOp) : Nat := x.fld 16 0 22
def MxOp.bOff (x : MxOp) : Nat := x.fld 20 0 22
def MxOp.cOff (x : MxOp) : Nat := x.fld 24 0 22
def MxOp.sOff (x : MxOp) : Nat := x.fld 28 0 22
def MxOp.aPitch (x : MxOp) : Nat := x.fld 32 0 22
def MxOp.bPitch (x : MxOp) : Nat := x.fld 36 0 22
def MxOp.memOff (x : MxOp) : Nat := x.fld 40 0 64
def MxOp.memSeg (x : MxOp) : Fin 8 := Fin.ofNat 8 (x.fld 48 0 3)
def MxOp.memPitch (x : MxOp) : Nat := x.fld 52 0 24
def MxOp.cPitch (x : MxOp) : Nat := x.fld 56 0 22
def MxOp.resOff (x : MxOp) : Nat := x.fld 60 0 32

/-- The bits of the descriptor that each kind uses (R402). -/
def mxMask (kind : Nat) : Nat :=
  let common := maskAt 0 4 + maskAt 11 4 + maskAt 480 32
  let mem := maskAt 320 64 + maskAt 384 3 + maskAt 416 24
  let shape := maskAt 64 11 + maskAt 80 11
  if kind = 0 then common + maskAt 8 3 + maskAt 16 5 + maskAt 32 5 + maskAt 45 2 + shape + maskAt 192 22 + maskAt 224 22 + mem + maskAt 448 22
  else if kind = 1 then
    common + maskAt 8 3 + maskAt 16 5 + maskAt 32 5 + maskAt 43 2 + shape + maskAt 192 22 + maskAt 224 22 + mem + maskAt 448 22
  else if kind = 2 then
    common + maskAt 8 3 + maskAt 16 5 + maskAt 24 5 + maskAt 32 5 + maskAt 40 5 + shape + maskAt 96 14 + maskAt 128 22 + maskAt 160 22
      + maskAt 192 22 + maskAt 224 22 + maskAt 256 22 + maskAt 288 22 + maskAt 448 22
  else if kind = 3 then
    common + maskAt 8 3 + maskAt 16 5 + maskAt 24 5 + maskAt 32 5 + maskAt 48 4 + shape + maskAt 128 22 + maskAt 160 22
      + maskAt 192 22 + maskAt 256 22 + maskAt 288 22 + maskAt 448 22
  else maskAt 0 4 + maskAt 64 32

/-! ### Elements -/

/-- Bits of an element of a format code (R399, R400); 0 for an unassigned code. -/
def codeBits (c : Nat) : Nat :=
  match fmtOf c with
  | some f => f.width
  | none => if c = 5 then 8 else if c = 6 then 4 else if c = 7 then 32 else 0

/-- A floating-point code. -/
def isFloat (c : Nat) : Bool := (fmtOf c).isSome

/-- Bytes of a row of `n` elements (R396). -/
def mxRowBytes (c n : Nat) : Nat := ceilDiv (codeBits c * n) 8

/-- The raw bits of element `k` of a row's bytes (R396). -/
def mxElem (c k : Nat) (row : List Byte) : Nat :=
  if c = 6 then bits (((row[k / 2]?).getD 0).toNat) (4 * (k % 2)) 4
  else let w := codeBits c / 8; ofBytes ((row.drop (w * k)).take w)

/-- The bytes of a row of raw elements; an odd INT4 row leaves its last bits 0 (R396). -/
def mxRow (c : Nat) (xs : List Nat) : List Byte :=
  let w := codeBits c
  toBytes (ceilDiv (w * xs.length) 8) (xs.zipIdx.foldl (fun acc x => acc + x.1 % 2 ^ w * 2 ^ (w * x.2)) 0)

/-- The integer a code and its signedness read (R400). -/
def intElem (c : Nat) (sgn : Bool) (raw : Nat) : Int :=
  if c = 7 || sgn then signed (codeBits c) raw else (raw : Int)

/-- The value of an input element, and whether it was flushed (R400, R401). -/
def mxValue (c : Nat) (sgn : Bool) (raw : Nat) : Num × Bool :=
  match fmtOf c with
  | some f => f.decode raw
  | none => (Num.ofInt (intElem c sgn raw), false)

/-- An input element under the operation's mode: with SAT an infinity is read as the largest finite value (R409). -/
def mxInput (c : Nat) (sgn sat : Bool) (raw : Nat) : Num × Counts :=
  let (v, z) := mxValue c sgn raw
  match v, fmtOf c with
  | .inf neg, some f => if sat then (f.maxNum neg, { sat := 1 }) else (v, {})
  | v, _ => (v, { ftzIn := b2n z })

/-- A row of a staged matrix. -/
def stagedRow (tile : Fin 16) (off pitch c n r : Nat) (s : State) : List Byte :=
  cellsRead (s.tl.staging[tile]) (off + r * pitch) (mxRowBytes c n)

/-- Write bytes into staging. -/
def stagePut (tile : Fin 16) (off : Nat) (bs : List Byte) (s : State) : State :=
  { s with tl := { s.tl with staging := vmod s.tl.staging tile (fun m => cellsWrite m off bs) } }

/-! ### Conversions of the store and load paths (R411–R413) -/

/-- A value does not fit an integer without rounding. -/
def Num.fraction (n : Num) : Bool :=
  match n with
  | .fin m e => decide (e < 0) && decide (m.natAbs % 2 ^ (-e).toNat ≠ 0)
  | _ => false

/-- One conversion: the raw result, its counts, and the LFSR after the draw it may consume. -/
def mxConvert (out : Nat) (sgn : Bool) (round : Nat) (sat : Bool) (v : Num) (l : W32) : Nat × Counts × W32 :=
  let needs := round == 2 && (match fmtOf out with
    | some f => f.inexact v
    | none => v.fraction)
  let (r, l') := if needs then lfsrDraw l else (0, l)
  let mode : Rnd := if round = 0 then .even else if round = 1 then .zero else .stoch r
  match fmtOf out with
  | some f => let (x, c) := f.convert mode sat v; (x, c, l')
  | none => let (x, c) := toInt8 mode sgn v; (x, c, l')

/-- Convert a row of values. -/
def mxConvertRow (out : Nat) (sgn : Bool) (round : Nat) (sat : Bool) (vs : List Num) (l : W32) : List Nat × Counts × W32 :=
  vs.foldl (fun acc v =>
    let (x, c, l) := mxConvert out sgn round sat v acc.2.2
    (acc.1 ++ [x], acc.2.1.plus c, l)) ([], {}, l)

/-- A copy between equal formats: bit for bit, but for subnormals, −0 and NaNs (R404, R415). -/
def mxCopy (c raw : Nat) : Nat × Counts :=
  match fmtOf c with
  | none => (raw, {})
  | some f =>
    match f.decode raw with
    | (.inf _, _) => (raw, {})
    | (v, z) => let (x, n) := f.convert .even false v; (x, n.plus { ftzIn := b2n z })

/-! ### Checks (R403) -/

/-- The accumulator type of a pairing (R407): 7 INT32, 0 FP32, 8 FP64. -/
def pairing (a b : Nat) : Option Nat :=
  if (a == 5 || a == 6) && (b == 5 || b == 6) then some 7
  else if (a == 3 || a == 4) && (b == 3 || b == 4) then some 0
  else if a == b && (a == 0 || a == 1 || a == 2) then some 0
  else if a == 8 && b == 8 then some 8 else none

/-- The conversions a LOAD permits (R404). -/
def loadOk (x : MxOp) : Bool :=
  if x.expand = 0 then (decide (codeBits x.aFmt ≠ 0) && x.aFmt == x.outFmt) || (isFloat x.aFmt && isFloat x.outFmt)
  else (x.aFmt == 5 || x.aFmt == 6) && (x.outFmt == 3 || x.outFmt == 4 || x.outFmt == 1)

/-- The conversions a STORE permits (R415). -/
def storeOk (x : MxOp) : Bool :=
  if x.scale = 0 then (decide (codeBits x.aFmt ≠ 0) && x.aFmt == x.outFmt) || (isFloat x.aFmt && isFloat x.outFmt)
  else if x.aFmt = 0 then decide (x.outFmt ≤ 4)
  else x.aFmt == 8 && (x.outFmt == 8 || x.outFmt == 0)

/-- The drains a MATMUL permits (R410). -/
def drainOk (acc scale out : Nat) : Bool :=
  if acc = 7 then (if scale = 0 then out == 7 else decide (out ≤ 5))
  else if acc = 0 then decide (out ≤ 4) else out == 8 || out == 0

/-- A staged range: offset, rows, pitch, row size. -/
structure Staged where
  off : Nat
  rows : Nat
  pitch : Nat
  size : Nat
deriving DecidableEq, Repr

/-- Bytes from its offset to its end (R403). -/
def Staged.extent (g : Staged) : Nat := if g.rows = 0 ∨ g.size = 0 then 0 else (g.rows - 1) * g.pitch + g.size

/-- Bytes of one element of a scale array (R410). -/
def scaleBytes (acc : Nat) : Nat := if acc = 8 then 8 else 4

/-- The array at S_OFF. -/
def MxOp.side (x : MxOp) : List Staged :=
  if x.kind = 0 then
    (if x.expand = 1 then [⟨x.sOff, 1, 0, ceilDiv x.n 32 * (if x.aFmt = 6 then 16 else 256) * (codeBits x.outFmt / 8)⟩]
     else if x.expand = 0 then [] else [⟨x.sOff, 1, 0, 4 * (if x.expand = 2 then x.m else x.n)⟩])
  else if x.scale = 0 ∨ (x.kind = 2 ∧ !x.drain) then []
  else
    let acc := if x.kind = 2 then (pairing x.aFmt x.bFmt).getD 0 else x.aFmt
    [⟨x.sOff, 1, 0, scaleBytes acc * (if x.scale = 1 then x.m else x.n)⟩]

/-- The staged inputs. -/
def MxOp.inputs (x : MxOp) : List Staged :=
  (if x.kind = 1 then [⟨x.cOff, x.m, x.cPitch, mxRowBytes x.aFmt x.n⟩]
   else if x.kind = 2 then
     [⟨x.aOff, x.m, x.aPitch, mxRowBytes x.aFmt x.k⟩,
      if x.bTrans then ⟨x.bOff, x.n, x.bPitch, mxRowBytes x.bFmt x.k⟩ else ⟨x.bOff, x.k, x.bPitch, mxRowBytes x.bFmt x.n⟩]
   else if x.kind = 3 then
     [⟨x.aOff, x.m, x.aPitch, 4 * x.n⟩,
      if x.bcast = 0 then ⟨x.bOff, x.m, x.bPitch, 4 * x.n⟩ else ⟨x.bOff, 1, 0, if x.bcast = 1 then 4 * x.n else 4⟩]
   else []) ++ x.side

/-- The staged output, if any. -/
def MxOp.output (x : MxOp) : Option Staged :=
  if x.kind = 0 ∨ x.kind = 3 ∨ (x.kind = 2 ∧ x.drain) then some ⟨x.cOff, x.m, x.cPitch, mxRowBytes x.outFmt x.n⟩ else none

/-- The output overlaps an input in a way R403 does not permit. -/
def MxOp.overlapBad (x : MxOp) : Bool :=
  match x.output with
  | none => false
  | some o => x.inputs.any (fun g => overlaps g.off g.extent o.off o.extent && !(x.kind == 3 && decide (g = o)))

/-- Step 1 of R403. -/
def MxOp.fieldsOk (x : MxOp) : Bool :=
  let kd := x.kind
  decide (kd ≤ 4) && decide (x.desc.toNat - (x.desc.toNat &&& mxMask kd) = 0)
    && (if kd = 4 then x.seed != 0
        else
          let big := if kd ≤ 1 then 1024 else 512
          decide (1 ≤ x.m ∧ x.m ≤ big ∧ 1 ≤ x.n ∧ x.n ≤ big) && decide (x.round ≤ 2 ∧ (kd = 0 → x.round = 0))
            && (kd != 2 || decide (1 ≤ x.k ∧ x.k ≤ 8192))
            && decide (x.aOff % 32 = 0 ∧ x.bOff % 32 = 0 ∧ x.cOff % 32 = 0 ∧ x.sOff % 32 = 0)
            && decide (x.aPitch % 32 = 0 ∧ x.bPitch % 32 = 0 ∧ x.cPitch % 32 = 0 ∧ x.resOff % 32 = 0)
            && decide (x.scale ≤ 2) && decide (x.bcast ≤ 2)
            && (x.inputs ++ x.output.toList).all (fun g => decide (g.off + g.extent ≤ 2 ^ 22))
            && (if kd = 0 then loadOk x && decide (mxRowBytes x.aFmt x.n ≤ x.memPitch)
                else if kd = 1 then storeOk x && decide (mxRowBytes x.outFmt x.n ≤ x.memPitch)
                else if kd = 2 then (match pairing x.aFmt x.bFmt with
                  | some acc => if x.drain then drainOk acc x.scale x.outFmt else true
                  | none => false)
                else x.aFmt == 0 && x.bFmt == 0 && decide (x.outFmt ≤ 4))
            && !x.overlapBad)

/-- Some operand or output is FP64. -/
def MxOp.usesFp64 (x : MxOp) : Bool := x.kind != 4 && (x.aFmt == 8 || x.bFmt == 8 || x.outFmt == 8)

/-- Key of an accumulator. -/
def accKey (tile : Fin 16) (i j : Nat) : Nat := tile.val * 2 ^ 18 + 512 * i + j

/-- The accumulator's value has the type of the pairing. -/
def AccVal.hasType (acc : Nat) : AccVal → Bool
  | .i32 _ => acc == 7
  | .f32 _ => acc == 0
  | .f64 _ => acc == 8

/-- The check of R398 for CONT 1. -/
def MxOp.accOk (x : MxOp) (s : State) : Bool :=
  !(x.kind == 2 && x.cont) || (List.range x.m).all (fun i => (List.range x.n).all (fun j =>
    (kvGet s.tl.accs (accKey x.tile i j)).any (AccVal.hasType ((pairing x.aFmt x.bFmt).getD 0))))

/-- Bytes of a memory row. -/
def MxOp.memRow (x : MxOp) : Nat := mxRowBytes (if x.kind = 0 then x.aFmt else x.outFmt) x.n

/-- The memory extent of a LOAD or STORE. -/
def MxOp.memExtent (x : MxOp) : Nat := (x.m - 1) * x.memPitch + x.memRow

/-- The checks of R403: status and XF of the first that fails. -/
def MxOp.verdict (x : MxOp) (s : State) : Option (Nat × W64) :=
  let bad (st : Nat) : Option (Nat × W64) := some (st, xfWord st 0 false 0)
  if !x.fieldsOk then bad stMalformed
  else if (x.usesFp64 && !granted 5 s) || (x.round == 2 && !granted 6 s) then bad stFeature
  else if !x.accOk s then bad stState
  else
    let g := x.segs[x.memSeg]
    let wr := x.kind == 1
    if decide (x.kind ≤ 1) && !g.allows (fun g => if wr then g.w else g.r) x.memOff x.memExtent then
      some (stSegment, xfWord stSegment x.memSeg.val wr (g.va x.memOff))
    else
      let h := x.segs[x.resSeg]
      if x.resEn && !h.allows (·.w) x.resOff 32 then some (stSegment, xfWord stSegment x.resSeg.val true (h.va x.resOff))
      else none

/-! ### Issue (R294, R342) -/

/-- Operations of a tile's queue. -/
def mxQueued (tile : Nat) (s : State) : Nat := (s.tl.mx.filter (fun x => x.tile.val == tile)).length

/-- MXOP: the descriptor is read as the thread's own access; a full queue makes the thread wait; a refused operation completes on
its counter at once (R294, R342, R403). -/
def opMxop : Meaning := fun key i t0 s =>
  if keyPlain key then plainFault stState s
  else
    let k := issueCounter i
    let seg := issueSeg i
    TStep.finish <| (need 1 t0 s).andThen fun _ t s => (pop key t s).andThen fun o t s =>
      (threadRead key seg o.toNat 64 .clean t s).andThen fun bs t s => (countUp key k t s).andThen fun _ t s =>
        let tile := keyTile key
        if 64 ≤ mxQueued tile s ∨ claimWaits resMatrix tile t.cls s then .stop (.claim ⟨resMatrix, tile, t.cls, 1, key⟩ s)
        else
          let x : MxOp := {
            tile := Fin.ofNat 16 tile, thread := key, counter := k, cls := t.cls, tag := t.tag, segs := t.segs,
            desc := BitVec.ofNat 512 (ofBytes bs), started := false, row := 0, cnt := {}, written := 0, seen := [],
            stall := .none, stallXf := 0, ending := none }
          match x.verdict s with
          | some (st, xf) => .ok () (latchNow k st xf t) s
          | none => .ok () t (noteGrant resMatrix tile t.cls 1 { s with tl := { s.tl with mx := s.tl.mx ++ [x] } })

/-! ### Streams (R245, R246, R342) -/

/-- The offset of the field of a stream descriptor that breaks a constraint (R245). -/
def streamFault (d : Nat) : Option Nat :=
  let base := bits d 0 52
  let len := bits d 64 52
  let mask := maskAt 0 52 + maskAt 64 52 + maskAt 128 32 + maskAt 160 32 + maskAt 192 12 + maskAt 208 5
  let bad := [(8, decide (1 ≤ len ∧ base + len ≤ 2 ^ 52)), (20, bits d 128 32 == 0 || decide (1 ≤ bits d 160 32)),
    (26, decide (bits d 208 2 ≤ 2) && decide (1 ≤ bits d 210 3 ∧ bits d 210 3 ≤ 4))]
  let offs := (bad.filter (fun x => !x.2)).map (fun x => x.1)
  let offs := match reservedByte d mask 32 with
    | some o => o :: offs
    | none => offs
  offs.foldl (fun m o => some (match m with | some x => min x o | none => o)) none

/-- The stream a descriptor starts: an atomic add joins the Purl's, a read or write the Hook's. -/
def newStream (key : Nat) (d : Nat) : Stream where
  tile := Fin.ofNat 16 (keyTile key)
  purl := bits d 208 2 == 2
  thread := key
  tag := bits d 192 12
  base := bits d 0 52
  len := bits d 64 52
  stride := bits d 128 32
  span := bits d 160 32
  lookahead := bits d 210 3
  reached := bits d 0 52
  walked := bits d 0 52

/-- STREAM: the descriptor becomes active and completes on its counter at once. -/
def opStream : Meaning := fun key i t0 s =>
  if keyPlain key then plainFault stState s
  else
    let k := issueCounter i
    let seg := issueSeg i
    TStep.finish <| (need 1 t0 s).andThen fun _ t s => (pop key t s).andThen fun o t s =>
      (threadRead key seg o.toNat 32 .clean t s).andThen fun bs t s => (countUp key k t s).andThen fun _ t s =>
        let d := ofBytes bs
        match streamFault d with
        | some f => .ok () (latchNow k stMalformed (xfWord stMalformed 0 false (0x8000 + f)) t) s
        | none => .ok () (latchNow k stOK 0 t) (streamAdd (newStream key d) s)

/-! ### The running operation (R294) -/

/-- The operation a tile's Matrix Unit runs: the one that has started, else the first of the highest class. -/
def mxCurrent (tile : Fin 16) (s : State) : Option MxOp :=
  let mine := s.tl.mx.filter (fun x => x.tile == tile)
  (mine.find? (fun x => x.started)).orElse fun _ =>
    [0, 1, 2, 3].findSome? (fun c => mine.find? (fun x => x.cls.val == c))

/-- Replace an operation of the queue. -/
def putMx (x y : MxOp) (s : State) : State := { s with tl := { s.tl with mx := modFirst (fun z => z == x) (fun _ => y) s.tl.mx } }

/-- It ends with a status; its record and counter follow (R416). -/
def mxFinish (x y : MxOp) (status : Nat) (xi xf : W64) (s : State) : State :=
  putMx x { y with started := true, stall := .none, ending := some (status, xi, xf) } s

/-- The accessor of the Matrix Unit's accesses (R248). -/
def MxOp.who (x : MxOp) : Accessor := ⟨0, x.tile.val, x.cls.val, false, 0⟩

/-! ### LOAD (R404–R406) -/

/-- The scale and zero point at an index of the array at S_OFF: value, zero point, flushed (R406). -/
def scaleZero (x : MxOp) (i : Nat) (s : State) : Num × Int × Bool :=
  let b := cellsRead (s.tl.staging[x.tile]) (x.sOff + 4 * i) 4
  let (v, z) := fp16.decode (ofBytes (b.take 2))
  (v, signed 16 (ofBytes (b.drop 2)), z)

/-- A zero point in its range (R406). -/
def zeroOk (z : Int) : Bool := decide (-256 ≤ z ∧ z ≤ 255)

/-- What one row of a LOAD or STORE comes to: its raw elements and the operation after it, or an invalid zero point. -/
abbrev RowOut := Option (List Nat × MxOp × W32)

/-- A table entry as it is written (R405). -/
def tableEntry (x : MxOp) (j code : Nat) (s : State) : Nat × Nat × Counts × Bool :=
  let size := if x.aFmt = 6 then 16 else 256
  let idx := j / 32 * size + code
  let w := codeBits x.outFmt / 8
  let raw := ofBytes (cellsRead (s.tl.staging[x.tile]) (x.sOff + w * idx) w)
  match fmtOf x.outFmt with
  | none => (idx, raw, {}, false)
  | some f =>
    match f.decode raw with
    | (.nan, _) => (idx, f.nanCode, { nanOut := 1 }, false)
    | (.fin 0 _, z) => (idx, 0, {}, z)
    | _ => (idx, raw, {}, false)

/-- Convert one memory row of a LOAD. -/
def loadRow (x : MxOp) (bs : List Byte) (s : State) : RowOut :=
  let l := s.tl.lfsr[x.tile]
  let raws := (List.range x.n).map (fun j => mxElem x.aFmt j bs)
  if x.expand = 0 then
    if x.aFmt = x.outFmt then
      let rs := raws.map (mxCopy x.aFmt)
      some (rs.map (·.1), { x with cnt := rs.foldl (fun c r => c.plus r.2) x.cnt }, l)
    else
      let vs := raws.map (fun r => mxValue x.aFmt x.aSigned r)
      let (out, c, l) := mxConvertRow x.outFmt x.outSigned 0 x.sat (vs.map (·.1)) l
      some (out, { x with cnt := x.cnt.plus (c.plus { ftzIn := (vs.filter (·.2)).length }) }, l)
  else if x.expand = 1 then
    let es := raws.zipIdx.map (fun r => tableEntry x r.2 r.1 s)
    let fresh := ((es.filter (fun e => e.2.2.2)).map (·.1)).eraseDups.filter (fun i => !x.seen.contains i)
    let c := es.foldl (fun c e => c.plus e.2.2.1) x.cnt
    some (es.map (·.2.1), { x with seen := x.seen ++ fresh, cnt := c.plus { ftzIn := fresh.length } }, l)
  else
    let at' (j : Nat) := scaleZero x (if x.expand = 2 then x.row else j) s
    if !(List.range x.n).all (fun j => zeroOk (at' j).2.1) then none
    else
      let vs := raws.zipIdx.map (fun r =>
        let e := at' r.2
        let d := intElem x.aFmt x.aSigned r.1 - e.2.1
        f32 (toF32 ((Num.ofInt d).mul e.1)))
      let flushed := if x.expand = 2 then b2n (at' 0).2.2 else if x.row = 0 then ((List.range x.n).filter (fun j => (at' j).2.2)).length else 0
      let (out, c, l) := mxConvertRow x.outFmt false 0 x.sat vs l
      some (out, { x with cnt := x.cnt.plus (c.plus { ftzIn := flushed }) }, l)

/-- One row of a LOAD: the operation after it, or how it ends or stalls. -/
def loadStep (x : MxOp) (s : State) : Option MxOp × State :=
  let off := x.memOff + x.row * x.memPitch
  let va := (x.segs[x.memSeg]).va off
  let partialEnd (st : Nat) (xf : W64) (s : State) : Option MxOp × State :=
    (none, mxFinish x x stPartial (BitVec.ofNat 64 x.row) xf s)
  match xRead x.who x.tag.toNat va x.memRow .read s with
  | (.data bs, s) =>
    (match loadRow x bs s with
     | none => partialEnd stMalformed (xfWord stMalformed 0 false 0) s
     | some (out, y, _) =>
       let s := stagePut x.tile (x.cOff + x.row * x.cPitch) (mxRow x.outFmt out) s
       let y := { y with started := true, row := x.row + 1, written := x.written + x.n, stall := .none }
       (some y, putMx x y s))
  | (.stall w, s) => (none, putMx x { x with started := true, stall := w, stallXf := xfWord 0 x.memSeg.val false va } s)
  | (.fault st, s) => partialEnd st (xfWord st x.memSeg.val false va) s
  | (.suppressed, s) => partialEnd stTranslation (xfWord stTranslation x.memSeg.val false va) s
  | (.wait, s) => (none, s)

/-! ### STORE (R415) -/

/-- The scale value at an index and whether it was flushed (R410). -/
def scaleAt (x : MxOp) (acc i : Nat) (s : State) : Num × Bool :=
  let w := scaleBytes acc
  (if acc = 8 then fp64 else fp32).decode (ofBytes (cellsRead (s.tl.staging[x.tile]) (x.sOff + w * i) w))

/-- Convert one staged row of a STORE. -/
def storeRow (x : MxOp) (s : State) : List Nat × MxOp × W32 :=
  let l := s.tl.lfsr[x.tile]
  let row := stagedRow x.tile x.cOff x.cPitch x.aFmt x.n x.row s
  let raws := (List.range x.n).map (fun j => mxElem x.aFmt j row)
  if x.scale = 0 ∧ x.aFmt = x.outFmt then
    let rs := raws.map (mxCopy x.aFmt)
    (rs.map (·.1), { x with cnt := rs.foldl (fun c r => c.plus r.2) x.cnt }, l)
  else
    let vs := raws.map (fun r => mxValue x.aFmt x.aSigned r)
    let z := (vs.filter (·.2)).length
    let (vals, zs) := if x.scale = 0 then (vs.map (·.1), 0)
      else
        let at' (j : Nat) := scaleAt x x.aFmt (if x.scale = 1 then x.row else j) s
        (vs.zipIdx.map (fun v => v.1.1.mul (at' v.2).1),
         if x.scale = 1 then b2n (at' 0).2 else if x.row = 0 then ((List.range x.n).filter (fun j => (at' j).2)).length else 0)
    let (out, c, l) := mxConvertRow x.outFmt x.outSigned x.round x.sat vals l
    (out, { x with cnt := x.cnt.plus (c.plus { ftzIn := z + zs }) }, l)

/-- One row of a STORE. -/
def storeStep (x : MxOp) (s : State) : Option MxOp × State :=
  let off := x.memOff + x.row * x.memPitch
  let va := (x.segs[x.memSeg]).va off
  let (out, y, l) := storeRow x s
  match xStore x.who x.tag.toNat va (mxRow x.outFmt out) s with
  | (.done, s) =>
    let y := { y with started := true, row := x.row + 1, written := x.written + x.n, stall := .none }
    (some y, putMx x y { s with tl := { s.tl with lfsr := vset s.tl.lfsr x.tile l } })
  | (.stall w, s) => (none, putMx x { x with started := true, stall := w, stallXf := xfWord 0 x.memSeg.val true va } s)
  | (.fault st, s) => (none, mxFinish x x stPartial (BitVec.ofNat 64 x.row) (xfWord st x.memSeg.val true va) s)
  | (.wait, s) => (none, s)

/-- Move rows in ascending order until the last, a stall or an end (R415). -/
def mxRows (step : MxOp → State → Option MxOp × State) : (fuel : Nat) → MxOp → State → State
  | 0, _, s => s
  | fuel + 1, x, s =>
    if x.m ≤ x.row then mxFinish x x stOK 0 0 s
    else match step x s with
    | (some y, s) => mxRows step fuel y s
    | (none, s) => s

/-! ### MATMUL (R408–R410) -/

/-- The exponent of a non-zero product. -/
def Num.exponent : Num → Option Int
  | .fin m e => if m = 0 then none else some (e + m.natAbs.log2)
  | _ => none

/-- A product cut toward zero at the weight `2^lo` (R408). -/
def Num.cutAt (lo : Int) : Num → Num
  | .fin m e =>
    if e < lo then .fin (signedBy (decide (m < 0)) (m.natAbs >>> (lo - e).toNat)) lo else .fin m e
  | n => n

/-- The aligned sum of one group (R408, R409). -/
def groupSum (w : Int) (ps : List Num) : Num :=
  match ps.filterMap Num.exponent with
  | [] => ps.foldl Num.add (.fin 0 0)
  | e :: es =>
    let top := es.foldl max e
    (ps.map (Num.cutAt (top - w + 1))).foldl Num.add (.fin 0 0)

/-- Groups of 32 in ascending order. -/
def groups {α : Type} : (fuel : Nat) → List α → List (List α)
  | 0, _ => []
  | fuel + 1, xs => if xs.isEmpty then [] else xs.take 32 :: groups fuel (xs.drop 32)

/-- One floating-point cell after its groups: its bits and whether it saturated (R408, R409). -/
def floatCell (f : Fmt) (w : Int) (sat : Bool) (acc : Nat) (ps : List Num) : Nat × Bool :=
  (groups (ps.length + 1) ps).foldl (fun a g =>
    let (x, c) := f.convert .even sat ((f.value a.1).add (groupSum w g))
    (x, a.2 || decide (0 < c.sat))) (acc, false)

/-- One integer cell: group sums wrap or saturate (R408). -/
def intCell (sat : Bool) (acc : W32) (ps : List Int) : W32 × Bool :=
  (groups (ps.length + 1) ps).foldl (fun a g =>
    let v := a.1.toInt + g.foldl (· + ·) 0
    if sat ∧ 2 ^ 31 - 1 < v then (BitVec.ofNat 32 0x7FFFFFFF, true)
    else if sat ∧ v < -(2 ^ 31) then (BitVec.ofNat 32 0x80000000, true)
    else (BitVec.ofInt 32 v, a.2)) (acc, false)

/-- Element (r, k) of A, and (k, j) of B, as raw bits. -/
def rawA (x : MxOp) (i k : Nat) (s : State) : Nat := mxElem x.aFmt k (stagedRow x.tile x.aOff x.aPitch x.aFmt x.k i s)
def rawB (x : MxOp) (k j : Nat) (s : State) : Nat :=
  if x.bTrans then mxElem x.bFmt k (stagedRow x.tile x.bOff x.bPitch x.bFmt x.k j s)
  else mxElem x.bFmt j (stagedRow x.tile x.bOff x.bPitch x.bFmt x.n k s)

/-- What the distinct inputs of a MATMUL count (R409, R416). -/
def matmulInputs (x : MxOp) (s : State) : Counts :=
  let a := (List.range x.m).foldl (fun c i => (List.range x.k).foldl (fun c k =>
    c.plus (mxInput x.aFmt x.aSigned x.sat (rawA x i k s)).2) c) {}
  (List.range x.k).foldl (fun c k => (List.range x.n).foldl (fun c j =>
    c.plus (mxInput x.bFmt x.bSigned x.sat (rawB x k j s)).2) c) a

/-- The new accumulator of a cell and whether it saturated. -/
def matmulCell (x : MxOp) (acc i j : Nat) (s : State) : AccVal × Bool :=
  let ks := List.range x.k
  let old := if x.cont then kvGet s.tl.accs (accKey x.tile i j) else none
  if acc = 7 then
    let ps := ks.map (fun k => intElem x.aFmt x.aSigned (rawA x i k s) * intElem x.bFmt x.bSigned (rawB x k j s))
    let a0 : W32 := match old with
      | some (.i32 v) => v
      | _ => 0
    let (v, z) := intCell x.sat a0 ps
    (.i32 v, z)
  else
    let ps := ks.map (fun k =>
      (mxInput x.aFmt x.aSigned x.sat (rawA x i k s)).1.mul (mxInput x.bFmt x.bSigned x.sat (rawB x k j s)).1)
    if acc = 0 then
      let a0 := match old with
        | some (.f32 v) => v.toNat
        | _ => 0
      let (v, z) := floatCell fp32 48 x.sat a0 ps
      (.f32 (BitVec.ofNat 32 v), z)
    else
      let a0 := match old with
        | some (.f64 v) => v.toNat
        | _ => 0
      let (v, z) := floatCell fp64 106 x.sat a0 ps
      (.f64 (BitVec.ofNat 64 v), z)

/-- The value of an accumulator. -/
def AccVal.num : AccVal → Num
  | .i32 v => Num.ofInt v.toInt
  | .f32 v => fp32.value v.toNat
  | .f64 v => fp64.value v.toNat

/-- Drain one row of the region (R410). -/
def drainRow (x : MxOp) (acc i : Nat) (s : State) : State × Counts :=
  let cells := (List.range x.n).map (fun j => (kvGet s.tl.accs (accKey x.tile i j)).getD (.i32 0))
  let l := s.tl.lfsr[x.tile]
  let (out, c, l) :=
    if x.scale = 0 ∧ acc = 7 then
      (cells.map (fun v => match v with
        | .i32 w => w.toNat
        | _ => 0), ({} : Counts), l)
    else
      let vals := cells.zipIdx.map (fun v =>
        if x.scale = 0 then v.1.num else v.1.num.mul (scaleAt x acc (if x.scale = 1 then i else v.2) s).1)
      mxConvertRow x.outFmt x.outSigned x.round x.sat vals l
  let s := stagePut x.tile (x.cOff + i * x.cPitch) (mxRow x.outFmt out) s
  ({ s with tl := { s.tl with lfsr := vset s.tl.lfsr x.tile l } }, c)

/-- Flushed entries of a drain's scale array. -/
def scaleFlushed (x : MxOp) (acc : Nat) (s : State) : Nat :=
  if x.scale = 0 then 0
  else ((List.range (if x.scale = 1 then x.m else x.n)).filter (fun i => (scaleAt x acc i s).2)).length

/-- Run a MATMUL (R408–R410). -/
def matmulRun (x : MxOp) (s : State) : State :=
  let acc := (pairing x.aFmt x.bFmt).getD 0
  let cin := matmulInputs x s
  let cells := (List.range x.m).flatMap (fun i => (List.range x.n).map (fun j => (accKey x.tile i j, matmulCell x acc i j s)))
  let sats := (cells.filter (fun c => c.2.2)).length
  let s := { s with tl := { s.tl with accs := cells.foldl (fun m c => kvSet m c.1 c.2.1) s.tl.accs } }
  let cnt := x.cnt.plus (cin.plus { sat := sats })
  if x.drain then
    let cnt := cnt.plus { ftzIn := scaleFlushed x acc s }
    let (s, cnt) := (List.range x.m).foldl (fun (a : State × Counts) i =>
      let (s, c) := drainRow x acc i a.1
      (s, a.2.plus c)) (s, cnt)
    mxFinish x { x with cnt := cnt, written := x.m * x.n } stOK 0 0 s
  else mxFinish x { x with cnt := cnt } stOK 0 0 s

/-! ### ELEMWISE and SEED (R413, R414) -/

/-- MAX and MIN (R414). -/
def maxMin (isMax : Bool) (a b : Num) : Num :=
  match a, b with
  | .nan, b => b
  | a, .nan => a
  | a, b => if isMax then (if a.le b then b else a) else (if a.le b then a else b)

/-- Raw bits of element (i, j) of B (R402, R414). -/
def elemB (x : MxOp) (i j : Nat) (s : State) : Nat :=
  let r := if x.bcast = 0 then x.bOff + i * x.bPitch + 4 * j else if x.bcast = 1 then x.bOff + 4 * j else x.bOff
  ofBytes (cellsRead (s.tl.staging[x.tile]) r 4)

/-- Raw bits of element (i, j) of A. -/
def elemA (x : MxOp) (i j : Nat) (s : State) : Nat :=
  ofBytes (cellsRead (s.tl.staging[x.tile]) (x.aOff + i * x.aPitch + 4 * j) 4)

/-- An operand of ELEMWISE: ADD and MUL follow R409 for infinities. -/
def elemIn (x : MxOp) (raw : Nat) : Num × Counts := mxInput 0 false (x.sat && decide (x.eop ≤ 1)) raw

/-- What the distinct inputs of an ELEMWISE count. -/
def elemInputs (x : MxOp) (s : State) : Counts :=
  let a := (List.range x.m).foldl (fun c i => (List.range x.n).foldl (fun c j => c.plus (elemIn x (elemA x i j s)).2) c) {}
  let rows := if x.bcast = 0 then x.m else 1
  let cols := if x.bcast = 2 then 1 else x.n
  (List.range rows).foldl (fun c i => (List.range cols).foldl (fun c j => c.plus (elemIn x (elemB x i j s)).2) c) a

/-- The rows of an ELEMWISE, computed from the staging as it stood, with the counts and the LFSR after them. -/
def elemRows (x : MxOp) (s : State) : List (List Nat) × Counts × W32 :=
  (List.range x.m).foldl (fun acc i =>
    let vs := (List.range x.n).map (fun j =>
      let a := (elemIn x (elemA x i j s)).1
      let b := (elemIn x (elemB x i j s)).1
      if x.eop = 0 then a.add b else if x.eop = 1 then a.mul b else maxMin (x.eop == 2) a b)
    let (out, c, l) := mxConvertRow x.outFmt false x.round x.sat vs acc.2.2
    (acc.1 ++ [out], acc.2.1.plus c, l)) ([], elemInputs x s, s.tl.lfsr[x.tile])

/-- Run an ELEMWISE (R414). -/
def elemRun (x : MxOp) (s : State) : State :=
  let (rows, c, l) := elemRows x s
  let s := rows.zipIdx.foldl (fun s r => stagePut x.tile (x.cOff + r.2 * x.cPitch) (mxRow x.outFmt r.1) s) s
  let s := { s with tl := { s.tl with lfsr := vset s.tl.lfsr x.tile l } }
  mxFinish x { x with cnt := x.cnt.plus c, written := x.m * x.n } stOK 0 0 s

/-- Run a SEED (R413). -/
def seedRun (x : MxOp) (s : State) : State :=
  mxFinish x x stOK 0 0 { s with tl := { s.tl with lfsr := vset s.tl.lfsr x.tile (BitVec.ofNat 32 x.seed) } }

/-- Run the tile's current operation with `run` if it is of this kind and can go on (R294, R415). -/
def mxRun (kind : Nat) (run : MxOp → State → State) (tile : Fin 16) (s : State) : State :=
  match mxCurrent tile s with
  | none => s
  | some x =>
    if x.kind ≠ kind ∨ x.ending.isSome ∨ !engines s then s
    else match x.stall with
    | .none => run x s
    | .failed st => mxFinish x x stPartial (BitVec.ofNat 64 x.row) (x.stallXf ||| BitVec.ofNat 64 st) s
    | _ => s

/-- The 32 bytes of the result record (R416). -/
def MxOp.record (x : MxOp) (status : Nat) : List Byte :=
  toBytes 4 (satTo 32 x.written) ++ toBytes 4 (satTo 32 x.cnt.sat) ++ toBytes 4 (satTo 32 x.cnt.ftzIn)
    ++ toBytes 4 (satTo 32 x.cnt.ftzOut) ++ toBytes 4 (satTo 32 x.cnt.nanOut) ++ toBytes 4 (satTo 32 x.cnt.infOut)
    ++ toBytes 4 (if x.kind ≤ 1 then x.row else 0) ++ toBytes 4 (status % 256)

/-- The operation leaves the queue and completes on its counter. -/
def mxRelease (x : MxOp) (status : Nat) (xi xf : W64) (s : State) : State :=
  opDone x.thread x.counter status xi xf { s with tl := { s.tl with mx := s.tl.mx.erase x } }

/-- The operation completes: its record is written first; a page that is not present lets it wait (R354, R416). -/
def mxComplete (tile : Fin 16) (s : State) : State :=
  match mxCurrent tile s with
  | none => s
  | some x =>
    match x.ending with
    | none => s
    | some (st, xi, xf) =>
      let va := (x.segs[x.resSeg]).va x.resOff
      if !engines s then s
      else if !x.resEn then mxRelease x st xi xf s
      else match x.stall with
      | .failed _ => mxRelease x st xi xf (logErr .contained 0x13 .operation tile.val st va s)
      | .none =>
        (match xStore x.who x.tag.toNat va (x.record st) s with
         | (.done, s) => mxRelease x st xi xf s
         | (.fault _, s) => mxRelease x st xi xf (logErr .contained 0x13 .operation tile.val st va s)
         | (.stall w, s) => putMx x { x with stall := w } s
         | (.wait, s) => s)
      | _ => s

end Sys2Proof.Machine
end

