-- ==== Sys2Proof/Machine/Grants.lean ====
section
/-! DEFINITION. The grant of a freed unit to a waiting claim (21_capacity_and_tally.md R449): the head claim's context issues its
instruction again. -/

namespace Sys2Proof.Machine

open Sys2Proof

/-- The meaning of an operation of the opcode map, as it runs when a waiting context goes on. -/
def runOf : POp → Meaning
  | .nop => opNop | .dup => opDup | .swap => opSwap | .drop => opDrop | .over_ => opOver | .rot => opRot | .pick => opPick
  | .pushi => opPushi | .pushx => opPushx
  | .add => opAdd | .sub => opSub | .and => opAnd | .or => opOr | .xor => opXor | .andn => opAndn | .neg => opNeg | .not => opNot
  | .mins => opMins | .maxs => opMaxs | .minu => opMinu | .maxu => opMaxu
  | .shl => opShl | .shr => opShr | .sar => opSar | .rol => opRol | .clz => opClz | .popc => opPopc | .bperm => opBperm
  | .bfx => opBfx | .bfi => opBfi | .mul => opMul | .mulh => opMulh
  | .cmp => opCmp | .plog => opPlog | .pfrom => opPfrom | .pto => opPto
  | .ld => opLd .clean | .st => opSt | .aadd => opAadd | .bcopy => opBcopy
  | .br => opBr | .bz => opBz | .bnz => opBnz | .call => opCall | .calli => opCalli | .bri => opBri | .ret => opRet | .end_ => opEnd
  | .rds => opRds | .wrs => opWrs | .rdwait => opRdwait | .sgrd => opSgrd | .waitc => opWaitc
  | .fenceT => opFenceT | .fenceD => opFenceD | .fenceS => opFenceS
  | .gather => opGather false | .pool => opPool false | .gatherAddr => opGatherAddr false | .gatherResume => opGatherResume false
  | .rowAdd => opRowAdd false | .stream => opStream | .mxop => opMxop

/-- The operation of the unit a context stands at. -/
def unitOp (t : Thread) (s : State) : Option POp :=
  match fetchUnit (t.code s) t.pc with
  | .unit u => some u.ins.op
  | _ => none

/-- Occupancy of a pool that contexts claim (R443). -/
def poolUsed (res scope : Nat) (s : State) : Nat :=
  if res = resBuffers then buffersUsed scope s
  else if res = resHook then hooksActive scope s
  else if res = resPurl then purlUsed scope s
  else if res = resMatrix then mxQueued scope s
  else if res = resCounter then
    (match threadAt (scope / 4) s with
     | some t => (t.cc[(Fin.ofNat 4 scope : Fin 4)]).out
     | none => 0)
  else 0

/-- A context at its held instruction issues it again. -/
def reissue (key : Nat) (s : State) : State :=
  match threadAt key s with
  | some t => match unitOp t s with
    | some op => issue op (runOf op) key s
    | none => s
  | none => s

/-- Row CLAIM_GRANT (R449): the claim leaves the list, its context's wait ends, and it goes on ahead of the claims that still wait. -/
def claimGrant (res scope : Nat) (s : State) : State :=
  if !engines s then s
  else match nextGrant res scope (poolUsed res scope s) s with
  | none => s
  | some c =>
    let rest := s.th.claims.erase c
    let mine := rest.filter (fun x => x.res == res && x.scope == scope)
    let others := rest.filter (fun x => !(x.res == res && x.scope == scope))
    let s := endWait c.thread { s with th := { s.th with claims := others } }
    let s := reissue c.thread s
    { s with th := { s.th with claims := mine ++ s.th.claims } }

end Sys2Proof.Machine
end

