-- ==== Sys2Proof/Machine/Command.lean ====
section
/-! DEFINITION. The rules for every command (08_command_catalogue.md R165–R172): what the catalogue says of a command, the checks
of R166 in their order, how a command begins, waits and ends. -/

namespace Sys2Proof.Machine

open Sys2Proof

/-! ### What a catalogue row says -/

/-- The Mark column: `per` accepts PERIODIC 1 too. -/
inductive MarkRule where
  | never | opt | req | per
deriving DecidableEq, Repr

/-- The Buf column. -/
inductive BufRule where
  | none
  | input (len : Nat)
  | output (len : Nat)
deriving DecidableEq, Repr

/-- How a command's run ends for now. -/
inductive CmdEnd where
  /-- it fails with this status, SUBCODE and RESULT0 and has no effect -/
  | fail (status sub : Nat) (r0 : W64)
  /-- it completes, and with these results -/
  | done (status sub : Nat) (r0 r1 : W64)
  /-- its schedule entry has been accepted and it waits for its mark -/
  | marked
  /-- it has not taken effect and waits for this reason (R157) -/
  | waits (reason : Nat)
  /-- it has taken effect and runs its own work (R157) -/
  | works
deriving DecidableEq, Repr

/-- A command's own part: from step 4 of R166 on. -/
abbrev CmdRun := Fin 64 → Entry → State → CmdEnd × State

/-- A catalogue row. `fields` lists the PARAM fields as byte offset, first bit and width; `checks` gives each enumerated or
bounded field's offset and whether its value is assigned. -/
structure CmdDef where
  op : Nat
  fields : List (Nat × Nat × Nat) := []
  tag : Bool := false
  mark : MarkRule := .never
  buf : Entry → BufRule := fun _ => .none
  checks : Entry → List (Nat × Bool) := fun _ => []
  /-- further checks of step 1 that look at the schedule or the command's fetch -/
  timing : Fin 64 → Entry → State → List (Nat × Bool) := fun _ _ _ => []
  needs : Entry → List Nat := fun _ => []
  /-- what else a malformed field at this offset does -/
  onFault : Entry → Nat → State → State := fun _ _ s => s
  run : CmdRun

/-- Completion OK with two results. -/
def okEnd (r0 r1 : Nat) : CmdEnd := .done stOK 0 (BitVec.ofNat 64 r0) (BitVec.ofNat 64 r1)

/-- Failure with RESULT0 0. -/
def failEnd (status sub : Nat) : CmdEnd := .fail status sub 0

/-! ### Step 1 of R166 -/

/-- The bits of the entry that are not reserved for this command (R146, R148, R165). -/
def entryMask (d : CmdDef) (marked : Bool) : Nat :=
  maskAt 0 11 + maskAt 16 16 + maskAt 320 64 + (if d.tag then maskAt 32 12 else 0)
    + (d.fields.map (fun f => maskAt (8 * f.1 + f.2.1) f.2.2)).sum
    + (if marked && d.mark != .never then maskAt 384 80 + maskAt 464 2 + maskAt 480 16 else 0)

/-- DPTR is present exactly where the command takes a buffer, and 8-byte aligned (R147). -/
def dptrOk (d : CmdDef) (e : Entry) : Bool :=
  (match d.buf e with
   | .none => decide (Entry.dptr e = 0)
   | _ => decide (Entry.dptr e ≠ 0)) && decide (Entry.dptr e % 8 = 0)

/-- The offset of the first offending field of the entry (R162, R166 step 1). -/
def entryFault (d : CmdDef) (dup : Bool) (more : List (Nat × Bool)) (e : Entry) : Option Nat :=
  let marked := Entry.marked e
  let bad : List (Nat × Bool) :=
    [(1, !(match d.mark with | .never => marked | .opt => false | _ => !marked)), (2, !dup), (40, dptrOk d e),
     (58, !(marked && d.mark != .never && d.mark != .per && Entry.periodic e))] ++ d.checks e ++ more
  let offs := (bad.filter (fun b => !b.2)).map (fun b => b.1)
  let offs := match reservedByte e.toNat (entryMask d marked) 64 with
    | some o => o :: offs
    | none => offs
  offs.foldl (fun m o => some (match m with | some x => min x o | none => o)) none

/-- The commands only queue pair 0 may issue (R169): QP_CREATE, QP_DELETE, BIND_OFF, WARM_RESET, PT_WRITE, GAUGE_CONFIG,
GAUGE_REBASE, FABRIC_ID, KEY_UPDATE, FW_STAGE, FW_ACTIVATE, FW_CHAIN_SET, FW_DISCARD. -/
def qp0Only (op : Nat) : Bool :=
  [0x03, 0x04, 0x05, 0x06, 0x12, 0x50, 0x51, 0x40, 0x73, 0x75, 0x76, 0x78, 0x79].contains op

/-- The commands accepted while BOUND (R97): IDENTIFY and the log and tally reads. -/
def boundAllows (op : Nat) : Bool := [0x02, 0x60, 0x62, 0x63].contains op

/-- The commands ROM recovery mode serves (R523): IDENTIFY, FW_STAGE, FW_STATUS. -/
def recoveryAllows (op : Nat) : Bool := [0x02, 0x75, 0x77].contains op

/-- The commands a BIND_OFF under way refuses (R96 step 1): table commands, LAUNCH, STEP_OPEN. -/
def bindRefuses (op : Nat) : Bool := decide (0x20 ≤ op ∧ op ≤ 0x29) || op == 0x32 || op == 0x33

/-- What decides ahead of the checks: the fatal state (R467), BOUND (R97), a BIND_OFF under way (R96), ROM recovery (R523), no negotiation yet (R92). -/
def gateShut (op : Nat) (s : State) : Bool :=
  (s.er.fatal && !fatalAllows op) || (s.rst.bound && !boundAllows op) || (binding s && bindRefuses op)
    || (if s.rst.recovery then !recoveryAllows op else !s.mb.negotiated && op != 0x01)

/-! ### The data buffer (R147, R133, R134) -/

/-- The first of the read requests of `[a, a+n)` that the host refuses, each within one 4 KiB page (R116, R147). -/
def bufRefused (a n : Nat) (s : State) : (fuel : Nat) → Option Nat
  | 0 => none
  | fuel + 1 =>
    if n = 0 then none
    else
      let k := min n (4096 - a % 4096)
      if hostRefuses a k s then some a else bufRefused (a + k) (n - k) s fuel

/-- The failure of a refused buffer read: FAULT_TRANSLATION at DPTR with the address, logged under R134 as a partner violation and
a contained error. -/
def bufFault (n : Fin 64) (a : Nat) (s : State) : CmdEnd × State :=
  (.fail stTranslation 0x28 (BitVec.ofNat 64 a), logReadRefused n.val a s)

/-- The command's input buffer, or its failure (R147). -/
def readBuf (n : Fin 64) (e : Entry) (len : Nat) (s : State) (k : List Byte → State → CmdEnd × State) : CmdEnd × State :=
  match bufRefused (Entry.dptr e) len s (len / 4096 + 2) with
  | some a => bufFault n a s
  | none => k (cellsRead s.host (Entry.dptr e) len) s

/-- Returned data is written before the completion (R133, R147). -/
def writeBuf (e : Entry) (bs : List Byte) (s : State) : State := hostWrite (Entry.dptr e) bs s

/-! ### Marks (R166 step 6, R167, R168) -/

/-- Accept the schedule entries of a marked command together (R76, R183). A periodic command completes at once (R168). -/
def schedule (es : List SchedEntry) (s : State) : CmdEnd × State :=
  match schedRefusal es s with
  | some (st, sub) => (failEnd st sub, s)
  | none =>
    let i := (kvFree s.gg.sched 0 256).getD 0
    match es with
    | e :: _ =>
      if e.periodic then
        (okEnd i 0, (es.map (fun x => { x with owner := none })).foldl schedPut s)
      else (.marked, es.foldl schedPut s)
    | [] => (.marked, s)

/-- The command's own schedule entry. -/
def ownEntry (n : Fin 64) (e : Entry) (kind tag : Nat) : SchedEntry := entryOf n e kind tag

/-! ### Beginning a command -/

/-- Carry out the end of a run. -/
def settleCmd (n : Fin 64) (cid : Nat) (r : CmdEnd × State) : State :=
  match r with
  | (.fail st sub r0, s) => complete n cid st sub r0 0 s
  | (.done st sub r0 r1, s) => complete n cid st sub r0 r1 s
  | (.marked, s) => s
  | (.waits w, s) => modCmd n cid (fun c => { c with wait := some w, effective := false, stall := .none }) s
  | (.works, s) => modCmd n cid (fun c => { c with effective := true, wait := none }) s

/-- The status of R166 steps 1 to 3, with the gates before them. -/
def cmdRefusal (d : CmdDef) (n : Fin 64) (e : Entry) (s : State) : Option (Nat × Nat) :=
  if gateShut d.op s then some (stState, 0)
  else match entryFault d false (d.timing n e s) e with
    | some o => some (stMalformed, o)
    | none =>
      match ((d.needs e).filter (fun i => !granted i s)).foldl (fun m i => some (match m with | some x => min x i | none => i)) none with
      | some i => some (stFeature, i)
      | none => if qp0Only d.op && decide (n ≠ 0) then some (stPolicy, 1) else none

/-- Run a begun command from its checks on (R166). A NEGOTIATE after a granted one is answered ahead of them (R160). -/
def runCmd (d : CmdDef) (n : Fin 64) (e : Entry) (s : State) : CmdEnd × State :=
  if d.op = 0x01 ∧ s.mb.negotiated then
    (.done stState 0 (s.mb.features.setWidth 64) ((s.mb.features >>> 64).setWidth 64), s)
  else match cmdRefusal d n e s with
  | some (st, sub) => (failEnd st sub, if st = stMalformed then d.onFault e sub s else s)
  | none => d.run n e s

/-- The command reads host memory when it runs: its input buffer, or a ring it sets up (R120, R140, R147). -/
def readsHost (d : CmdDef) (e : Entry) : Bool :=
  d.op == 0x03 || (match d.buf e with
    | .input _ => true
    | _ => false)

/-- The objects whose commands keep their order within a queue pair (R153): table (kind 0), tag (1), step (2), queue pair (3). -/
def namedObjects (e : Entry) : List (Nat × Nat) :=
  let op := Entry.opcode e
  if [0x21, 0x22, 0x23, 0x28, 0x29].contains op then [(0, efld e 8 3 % 2 ^ 20)]
  else if [0x10, 0x11, 0x13, 0x14, 0x26, 0x27, 0x32].contains op then [(1, Entry.tag e)]
  else if [0x33, 0x34, 0x35, 0x36, 0x37].contains op then [(2, efld e 8 6)]
  else if [0x03, 0x04].contains op then [(3, efld e 8 1)]
  else []

/-- An earlier unmarked command that names one of the same objects has not taken effect (R153). -/
def overtakes (c : Cmd) (earlier : List Cmd) : Bool :=
  earlier.any (fun x => !x.effective && !Entry.marked x.entry
    && (namedObjects x.entry).any (fun o => (namedObjects c.entry).contains o))

/-- The first fetched command of queue pair `n` that has not begun, with those before it. -/
def frontCmd (n : Fin 64) (s : State) : Option (Cmd × List Cmd) :=
  let cs := (s.mb.qps[n]).cmds
  match cs.dropWhile (fun c => c.begun) with
  | c :: _ => some (c, cs.takeWhile (fun c => c.begun))
  | [] => none

/-- The front command may begin: the firmware runs, R163 has not stopped the queue pair, and FENCE and R153 let it. -/
def mayBegin (n : Fin 64) (c : Cmd) (earlier : List Cmd) (s : State) : Bool :=
  let q := s.mb.qps[n]
  mbLive s && decide (q.state = .enabled) && q.stop.isNone && !(Entry.fence c.entry && !earlier.isEmpty)
    && !earlier.any (fun x => Entry.fence x.entry) && !overtakes c earlier

/-! ### Fetching (R145, R151, R152, R156) -/

/-- Mailbox slots in use (R156). -/
def slotsUsed (s : State) : Nat := (s.mb.qps.toList.map (fun q => q.cmds.length)).sum

/-- The engine may fetch from queue pair `n` (R92, R144, R151, R163). -/
def mayFetch (n : Fin 64) (s : State) : Bool :=
  let q := s.mb.qps[n]
  mbLive s && hostReach s && decide (q.state = .enabled) && q.stop.isNone && decide (q.sqHead ≠ q.sqTail) && q.waiting.isEmpty && q.hasRoom
    && (decide (n = 0) || s.mb.negotiated)

/-- Fetch the next command of queue pair `n` (row COMMAND_FETCH). A refused ring read quarantines the queue pair (R134). -/
def fetchCmd (n : Fin 64) (same : Bool) (s : State) : State :=
  if !mayFetch n s then s
  else
    let q := s.mb.qps[n]
    let (r, s) := decideClaim resMailbox 0 (slotsUsed s) q.cls 1 true same s
    if r = .wait then s
    else
      let a := q.sqBase.toNat + 64 * q.sqHead
      let s := modQp n (fun q => { q with sqHead := (q.sqHead + 1) % 2 ^ q.sqLog }) s
      match hostRead a 64 s with
      | none => quarantine n 0x0C (violation 0x0C n.val 0 0 s)
      | some bs =>
        let e : Entry := BitVec.ofNat 512 (ofBytes bs)
        match r with
        | .capacity => completeUnslotted n e stCapacity resMailbox s
        | .race => completeUnslotted n e stRace resMailbox s
        | _ => if cidTaken n e s then completeUnslotted n e stMalformed 2 s else admitCmd n e s

/-- The host publishes `e` on queue pair `n`, whose ring is empty: it writes the entry and rings the doorbell (R144, R145). -/
def publish (n : Fin 64) (e : Entry) (s : State) : State :=
  let q := s.mb.qps[n]
  let s := { s with host := cellsWrite s.host (q.sqBase.toNat + 64 * q.sqHead) (toBytes 64 e.toNat) }
  sqTailNow n (BitVec.ofNat 32 ((q.sqHead + 1) % 2 ^ q.sqLog)) s

/-- The front command of queue pair `n` begins, if it is `e` and may (R153, R154). -/
def beginFront (d : CmdDef) (n : Fin 64) (e : Entry) (s : State) : State :=
  match frontCmd n s with
  | some (c, earlier) =>
    if c.entry = e ∧ mayBegin n c earlier s ∧ (readsHost d e = true → hostReach s = true) then
      let s := modCmd n (Entry.cid e) (fun c => { c with begun := true }) s
      settleCmd n (Entry.cid e) (runCmd d n e s)
    else s
  | none => s

/-- A mailbox command: it is the fetched command that begins next; where nothing is fetched or published, the host publishes it
and the engine fetches it first. The entry's opcode byte is the row's. -/
def command (d : CmdDef) (n : Fin 64) (e0 : Entry) (s : State) : State :=
  let e := Entry.withOpcode e0 d.op
  let q := s.mb.qps[n]
  if (frontCmd n s).isNone && decide (q.sqHead = q.sqTail ∧ q.state = .enabled) && mbLive s then
    beginFront d n e (fetchCmd n false (publish n e s))
  else beginFront d n e s

/-- DEFER_AFTER beats have passed since the due point without effect: the command that names its wait posts its interim entry
(row INTERIM_COMPLETION, R157). -/
def interimDue (n : Fin 64) (cid : Nat) (s : State) : State :=
  let q := s.mb.qps[n]
  match findCmd n cid s with
  | some c =>
    match c.wait with
    | some w =>
      let closing := [0x35, 0x14, 0x11].contains (Entry.opcode c.entry)
      if c.interim || (c.effective && !closing) || decide (q.deferAfter = 0 ∨ q.state ≠ .enabled)
          || decide (beatsSince c.due s < q.deferAfter) || !mbLive s then s
      else
        post n ⟨0, 0, c.sqHead, cid, stDeferred, true, false, w, q.deferAfter, Entry.noIrq c.entry⟩
          (modCmd n cid (fun c => { c with interim := true }) s)
    | none => s
  | none => s

/-- COAL_TIME µs have passed since the first completion after the last raise (row COAL_TIME_EXPIRY, R158). -/
def coalExpiry (n : Fin 64) (s : State) : State :=
  let q := s.mb.qps[n]
  if q.timer && q.irqEn then raiseQp n (modQp n (fun q => { q with timer := false, sinceRaise := 0 }) s) else s

end Sys2Proof.Machine
end

