-- ==== Sys2Proof/Machine/Crypto.lean ====
section
/-! DEFINITION. The cryptography the spec names: SHA-384 (FIPS 180-4) and ECDSA P-384 verification (FIPS 186-5). -/

namespace Sys2Proof.Machine

open Sys2Proof

/-! ### SHA-384 -/

/-- The round constants. -/
def shaK : List W64 :=
  [
    0x428A2F98D728AE22, 0x7137449123EF65CD, 0xB5C0FBCFEC4D3B2F, 0xE9B5DBA58189DBBC,
    0x3956C25BF348B538, 0x59F111F1B605D019, 0x923F82A4AF194F9B, 0xAB1C5ED5DA6D8118,
    0xD807AA98A3030242, 0x12835B0145706FBE, 0x243185BE4EE4B28C, 0x550C7DC3D5FFB4E2,
    0x72BE5D74F27B896F, 0x80DEB1FE3B1696B1, 0x9BDC06A725C71235, 0xC19BF174CF692694,
    0xE49B69C19EF14AD2, 0xEFBE4786384F25E3, 0x0FC19DC68B8CD5B5, 0x240CA1CC77AC9C65]
  ++ [
    0x2DE92C6F592B0275, 0x4A7484AA6EA6E483, 0x5CB0A9DCBD41FBD4, 0x76F988DA831153B5,
    0x983E5152EE66DFAB, 0xA831C66D2DB43210, 0xB00327C898FB213F, 0xBF597FC7BEEF0EE4,
    0xC6E00BF33DA88FC2, 0xD5A79147930AA725, 0x06CA6351E003826F, 0x142929670A0E6E70,
    0x27B70A8546D22FFC, 0x2E1B21385C26C926, 0x4D2C6DFC5AC42AED, 0x53380D139D95B3DF,
    0x650A73548BAF63DE, 0x766A0ABB3C77B2A8, 0x81C2C92E47EDAEE6, 0x92722C851482353B]
  ++ [
    0xA2BFE8A14CF10364, 0xA81A664BBC423001, 0xC24B8B70D0F89791, 0xC76C51A30654BE30,
    0xD192E819D6EF5218, 0xD69906245565A910, 0xF40E35855771202A, 0x106AA07032BBD1B8,
    0x19A4C116B8D2D0C8, 0x1E376C085141AB53, 0x2748774CDF8EEB99, 0x34B0BCB5E19B48A8,
    0x391C0CB3C5C95A63, 0x4ED8AA4AE3418ACB, 0x5B9CCA4F7763E373, 0x682E6FF3D6B2B8A3,
    0x748F82EE5DEFB2FC, 0x78A5636F43172F60, 0x84C87814A1F0AB72, 0x8CC702081A6439EC]
  ++ [
    0x90BEFFFA23631E28, 0xA4506CEBDE82BDE9, 0xBEF9A3F7B2C67915, 0xC67178F2E372532B,
    0xCA273ECEEA26619C, 0xD186B8C721C0C207, 0xEADA7DD6CDE0EB1E, 0xF57D4F7FEE6ED178,
    0x06F067AA72176FBA, 0x0A637DC5A2C898A6, 0x113F9804BEF90DAE, 0x1B710B35131C471B,
    0x28DB77F523047D84, 0x32CAAB7B40C72493, 0x3C9EBE0A15C9BEBC, 0x431D67C49C100D4C,
    0x4CC5D4BECB3E42B6, 0x597F299CFC657E2A, 0x5FCB6FAB3AD6FAEC, 0x6C44198C4A475817]

/-- The initial hash value of SHA-384. -/
def shaInit : List W64 := [
    0xCBBB9D5DC1059ED8, 0x629A292A367CD507, 0x9159015A3070DD17, 0x152FECD8F70E5939,
    0x67332667FFC00B31, 0x8EB44A8768581511, 0xDB0C2E0D64F98FA7, 0x47B5481DBEFA4FA4]

/-- A big-endian number. -/
def beNat (bs : List Byte) : Nat := bs.foldl (fun a b => a * 256 + b.toNat) 0

/-- `n` big-endian bytes of a number. -/
def beBytes (n x : Nat) : List Byte := (toBytes n x).reverse

/-- The message schedule, newest word first: `n` more words. -/
def shaExpand : (n : Nat) → List W64 → List W64
  | 0, w => w
  | n + 1, w =>
    let g (i : Nat) : W64 := (w[i]?).getD 0
    let s0 := (g 14).rotateRight 1 ^^^ (g 14).rotateRight 8 ^^^ (g 14 >>> 7)
    let s1 := (g 1).rotateRight 19 ^^^ (g 1).rotateRight 61 ^^^ (g 1 >>> 6)
    shaExpand n ((s1 + g 6 + s0 + g 15) :: w)

/-- One round on the eight working variables. -/
def shaRound (v : List W64) (kw : W64 × W64) : List W64 :=
  match v with
  | [a, b, c, d, e, f, g, h] =>
    let t1 := h + (e.rotateRight 14 ^^^ e.rotateRight 18 ^^^ e.rotateRight 41) + ((e &&& f) ^^^ (~~~ e &&& g)) + kw.1 + kw.2
    let t2 := (a.rotateRight 28 ^^^ a.rotateRight 34 ^^^ a.rotateRight 39) + ((a &&& b) ^^^ (a &&& c) ^^^ (b &&& c))
    [t1 + t2, a, b, c, d + t1, e, f, g]
  | _ => v

/-- One 128-byte block. -/
def shaBlock (h : List W64) (blk : List Byte) : List W64 :=
  let w := (List.range 16).map (fun i => BitVec.ofNat 64 (beNat ((blk.drop (8 * i)).take 8)))
  let ws := (shaExpand 64 w.reverse).reverse
  let v := (shaK.zip ws).foldl shaRound h
  (h.zip v).map (fun p => p.1 + p.2)

/-- Every block of a padded message. -/
def shaBlocks : (n : Nat) → List W64 → List Byte → List W64
  | 0, h, _ => h
  | n + 1, h, bs => shaBlocks n (shaBlock h (bs.take 128)) (bs.drop 128)

/-- The padded message. -/
def shaPad (bs : List Byte) : List Byte :=
  let n := bs.length
  bs ++ [0x80] ++ List.replicate ((239 - n % 128) % 128) 0 ++ beBytes 16 (8 * n)

/-- SHA-384 as its 48 octets (FIPS 180-4; 24, Model). -/
def sha384 (bs : List Byte) : List Byte :=
  let m := shaPad bs
  ((shaBlocks (m.length / 128) shaInit m).take 6).flatMap (fun w => beBytes 8 w.toNat)

/-! ### P-384 -/

def p384 : Nat := 0xFFFFFFFFFFFFFFFFFFFFFFFFFFFFFFFFFFFFFFFFFFFFFFFFFFFFFFFFFFFFFFFEFFFFFFFF0000000000000000FFFFFFFF
def n384 : Nat := 0xFFFFFFFFFFFFFFFFFFFFFFFFFFFFFFFFFFFFFFFFFFFFFFFFC7634D81F4372DDF581A0DB248B0A77AECEC196ACCC52973
def b384 : Nat := 0xB3312FA7E23EE7E4988E056BE3F82D19181D9C6EFE8141120314088F5013875AC656398D8A2ED19D2A85C8EDD3EC2AEF
def g384 : Nat × Nat := (0xAA87CA22BE8B05378EB1C71EF320AD746E1D3B628BA79B9859F741E082542A385502F25DBF55296C3A545E3872760AB7,
  0x3617DE4A96262C6F5D9E98BF9292DC29F8F41DBD289A147CE9DA3113B5F0B8C00A60B1CE1D7E819D7A431D7C90EA0E5F)

/-- The point lies on P-384 and is not the point at infinity. -/
def onCurve (q : Nat × Nat) : Bool :=
  decide (q.1 < p384 ∧ q.2 < p384) && q.2 * q.2 % p384 == (q.1 * q.1 * q.1 + (p384 - 3) * q.1 + b384) % p384

/-- Modular power by `n` binary digits of the exponent, least significant first. -/
def powMod (m : Nat) : (n : Nat) → (e b acc : Nat) → Nat
  | 0, _, _, acc => acc
  | n + 1, e, b, acc => powMod m n (e / 2) (b * b % m) (if e % 2 = 1 then acc * b % m else acc)

/-- The inverse modulo a prime below 2^384. -/
def invMod (m x : Nat) : Nat := powMod m 384 (m - 2) (x % m) 1

/-- Addition of points; `none` is the point at infinity. -/
def ecAdd (a b : Option (Nat × Nat)) : Option (Nat × Nat) :=
  match a, b with
  | none, q => q
  | q, none => q
  | some (x1, y1), some (x2, y2) =>
    if x1 = x2 ∧ (y1 + y2) % p384 = 0 then none
    else
      let l := if x1 = x2 then (3 * x1 * x1 + (p384 - 3)) * invMod p384 (2 * y1) % p384
        else (y2 + p384 - y1) * invMod p384 (x2 + p384 - x1) % p384
      let x := (l * l + 2 * p384 - x1 - x2) % p384
      some (x, (l * (x1 + p384 - x) + p384 - y1) % p384)

/-- Multiple of a point by `n` binary digits, least significant first. -/
def ecMul : (n k : Nat) → (q acc : Option (Nat × Nat)) → Option (Nat × Nat)
  | 0, _, _, acc => acc
  | n + 1, k, q, acc => ecMul n (k / 2) (ecAdd q q) (if k % 2 = 1 then ecAdd acc q else acc)

/-- ECDSA P-384 with SHA-384: the signature (r, s) of the bytes verifies under the public key (FIPS 186-5). -/
def verify384 (key : Nat × Nat) (msg : List Byte) (r s : Nat) : Bool :=
  if 1 ≤ r ∧ r < n384 ∧ 1 ≤ s ∧ s < n384 ∧ onCurve key then
    let w := invMod n384 s
    let u1 := beNat (sha384 msg) * w % n384
    let u2 := r * w % n384
    match ecAdd (ecMul 384 u1 (some g384) none) (ecMul 384 u2 (some key) none) with
    | some (x, _) => x % n384 == r
    | none => false
  else false

end Sys2Proof.Machine
end

