-- ==== Sys2Proof/Machine/Identity.lean ====
section
/-! DEFINITION. Identity, user tags and owner keys (24_identity_and_keys.md): ID_READ (R491), image binding (R493), TAG_READ and
TAG_WRITE (R494–R497), KEY_UPDATE and KEY_STATUS (R499–R504). -/

namespace Sys2Proof.Machine

open Sys2Proof

/-- Change the firmware unit. -/
def modFw (f : FwUnit → FwUnit) (s : State) : State := { s with fw := f s.fw }

/-! ### Factory identity (R491, R492) -/

/-- `n` bytes of the identity page from byte `o` on. -/
def idField (o n : Nat) : List Byte := toBytes n (bytesAt Config.identity.toNat o n)

/-- The 16 serial-number bytes, held in fuses. -/
def serialBytes : List Byte := toBytes 16 Config.serial.toNat

/-- The 1,024 bytes ID_READ returns: where the flash page failed its CRC, the fuse-held fields and 0 (R491). -/
def identityPage (s : State) : List Byte :=
  if s.fw.calDefault then serialBytes ++ List.replicate 32 0 ++ idField 48 88 ++ List.replicate 888 0
  else
    let body := serialBytes ++ toBytes 2 0x1F4E ++ toBytes 2 0x0816 ++ [0xB0, 0, 0, 0] ++ idField 24 24 ++ idField 48 88
      ++ List.replicate 24 0 ++ idField 160 196 ++ List.replicate 28 0 ++ idField 384 432 ++ List.replicate 204 0
    body ++ toBytes 4 (crc32 body)

/-- ID_KEY (R492): 0 before stage S2. -/
def idKeyReg (s : State) : Nat :=
  if s.rst.stage < 2 then 0
  else s.fw.key.gen % 2 ^ 32 + 2 ^ 32 * s.fw.key.slot + 2 ^ 33 * b2n s.fw.key.factory

def cmdIdRead : CmdDef where
  op := 0x70
  buf := fun _ => .output 1024
  run := fun _ e s => (okEnd 0 0, writeBuf e (identityPage s) s)

/-! ### Image binding (R493) -/

/-- The hardware type names this chip. -/
def hwTypeOk (x : Nat) : Bool :=
  bits x 0 16 == 0x0816 && bits x 24 8 == 0 && (bits x 16 8 == 0xB0 || bits x 16 8 == 0)

/-! ### User tags (R494–R497) -/

/-- The size of a tag area. -/
def tagSize (a : Nat) : Nat := if a = 0 then 1024 else 64

/-- The content of a tag area and its write count (R496). -/
def tagArea (a : Nat) (s : State) : List Byte := (kvGet s.fw.tags a).getD (List.replicate (tagSize a) 0)
def tagCount (a : Nat) (s : State) : Nat := (kvGet s.fw.tagCounts a).getD 0

/-- AREA is 0–16 (R494). -/
def areaCheck (e : Entry) : List (Nat × Bool) := [(8, decide (efld e 8 1 ≤ 16))]

def cmdTagRead : CmdDef where
  op := 0x71
  fields := [(8, 0, 8)]
  buf := fun e => .output (tagSize (efld e 8 1))
  checks := areaCheck
  run := fun _ e s =>
    let a := efld e 8 1
    (okEnd (tagCount a s) 0, writeBuf e (tagArea a s) s)

/-- Replace a tag area and count the write, in one commit (R495, R496). -/
def tagCommit (a : Nat) (bs : List Byte) (s : State) : State :=
  modFw (fun f => { f with tags := kvSet f.tags a bs, tagCounts := kvSet f.tagCounts a (tagCount a s + 1) }) s

def cmdTagWrite : CmdDef where
  op := 0x72
  fields := [(8, 0, 8)]
  buf := fun e => .input (tagSize (efld e 8 1))
  checks := areaCheck
  run := fun n e s =>
    let a := efld e 8 1
    readBuf n e (tagSize a) s fun bs s =>
      if 100000 ≤ tagCount a s then (failEnd stPolicy 0x0005, s)
      else if bs = tagArea a s then (okEnd (tagCount a s) 0, s)
      else let s := tagCommit a bs s; (okEnd (tagCount a s) 0, s)

/-! ### Firmware conditions that other commands look at (R502, R510, R517) -/

/-- The bank that does not run. -/
def otherBank (b : Fin 2) : Fin 2 := 1 - b
def runBank (s : State) : Bank := s.fw.banks[s.fw.running]
def idleBank (s : State) : Bank := s.fw.banks[otherBank s.fw.running]

/-- A trial runs: the running bank is TRIAL (R519). -/
def inTrial (s : State) : Bool := decide (s.rst.recovery = false) && (runBank s).state == 2

/-- An FW_ACTIVATE is pending: its schedule entry stands (R517). -/
def activatePending (s : State) : Bool := s.gg.sched.any (fun x => x.2.kind == 0x0B)

/-- A staging, apply, applied image or trial exists (R502, R514). -/
def deliveryBusy (s : State) : Bool :=
  s.fw.staging.isSome || s.fw.applying.isSome || (idleBank s).state == 1 || inTrial s

/-! ### Owner keys (R499–R504) -/

/-- The coordinates of a public key. -/
def PubKey.coords : PubKey → Nat × Nat
  | .release => Config.releaseKey
  | .factory => Config.factoryKey
  | .point x y => (x, y)

/-- The named bytes of the KEY_UPDATE buffer (R501). -/
def keyMask : Nat := maskAt 0 97 + maskAt 128 128 + maskAt 256 768 + maskAt 7168 768

/-- The first inconsistent field of a KEY_UPDATE buffer: MAGIC, reserved bytes, serial (R502). -/
def keyFormFault (b : Nat) : Option Nat :=
  let bad := [(0, bytesAt b 0 4 == 0x554B4A46), (16, bytesAt b 12 1 % 2 == 1 || bytesAt b 16 16 == 0)]
  let offs := (bad.filter (fun x => !x.2)).map (fun x => x.1)
  let offs := match reservedByte b keyMask 1024 with
    | some o => o :: offs
    | none => offs
  offs.foldl (fun m o => some (match m with | some x => min x o | none => o)) none

/-- The checks of R502 in their order: `none`, or the status and SUBCODE. -/
def keyRefusal (bs : List Byte) (s : State) : Option (Nat × Nat) :=
  let b := ofBytes bs
  match keyFormFault b with
  | some o => some (stMalformed, 0x8000 + o)
  | none =>
    if !onCurve (bytesAt b 32 48, bytesAt b 80 48) then some (stMalformed, 0x8020)
    else if !hwTypeOk (bytesAt b 8 4) then some (stPolicy, 0x0006)
    else if bytesAt b 12 1 % 2 = 1 ∧ bytesAt b 16 16 ≠ Config.serial.toNat then some (stPolicy, 0x0007)
    else if deliveryBusy s then some (stState, 0)
    else if bytesAt b 4 4 ≤ s.fw.key.gen then some (stPolicy, 0x000A)
    else if !verify384 s.fw.key.key.coords (bs.take 896) (bytesAt b 896 48) (bytesAt b 944 48) then some (stPolicy, 0x000A)
    else none

/-- The slot an update writes: the one that does not hold the key in force (R191, R503). -/
def keyTarget (s : State) : Fin 2 := Fin.ofNat 2 (1 - s.fw.key.slot)

/-- Write and commit the new key (R503); `bad` says that the read-back of record or marker failed twice. -/
def keyCommit (bs : List Byte) (bad : Bool) (s : State) : CmdEnd × State :=
  let b := ofBytes bs
  let t := keyTarget s
  if bad then
    (.done stState 0 0 1, modFw (fun f => { f with slots := vmod f.slots t (fun k => { k with valid := false }) }) s)
  else
    let g := bytesAt b 4 4
    let k : PubKey := .point (bytesAt b 32 48) (bytesAt b 80 48)
    (okEnd g 0, modFw (fun f => { f with slots := vset f.slots t ⟨true, g, k⟩, key := ⟨g, t.val, false, k⟩ }) s)

def cmdKeyUpdate (bad : Bool) : CmdDef where
  op := 0x73
  fields := [(8, 0, 1)]
  buf := fun _ => .input 1024
  run := fun n e s =>
    readBuf n e 1024 s fun bs s =>
      match keyRefusal bs s with
      | some (st, sub) => (failEnd st sub, s)
      | none => keyCommit bs bad s

/-- A slot in a KEY_STATUS result (R504). -/
def KeySlot.word (k : KeySlot) : Nat := if k.valid then k.gen % 2 ^ 32 + 2 ^ 32 else 0

def cmdKeyStatus : CmdDef where
  op := 0x74
  run := fun _ _ s => (okEnd (s.fw.slots[(0 : Fin 2)]).word (s.fw.slots[(1 : Fin 2)]).word, s)

/-- Stage S1: the valid slot with the highest generation is in force, slot A on a tie; none valid: the factory key (R499, R90). -/
def keyAtBoot (s : State) : KeyForce :=
  let a := s.fw.slots[(0 : Fin 2)]
  let b := s.fw.slots[(1 : Fin 2)]
  if a.valid && (!b.valid || decide (b.gen ≤ a.gen)) then ⟨a.gen, 0, false, a.key⟩
  else if b.valid then ⟨b.gen, 1, false, b.key⟩
  else ⟨0, 0, true, .factory⟩

end Sys2Proof.Machine
end

