-- ==== Sys2Proof/Machine/FabricPort.lean ====
section
/-! DEFINITION. Henur ports (20_henur_fabric.md): flits and replay (R421, R422), credits (R425), link state (R430, R431), joining
and leaving (R420, R429, R113), violations and the fence (R438, R439). -/

namespace Sys2Proof.Machine

open Sys2Proof

/-! ### Reserved bits of the messages (R426–R428) -/

/-- Bits covered by `n` bytes at byte `o`. -/
def byteMask (o n : Nat) : Nat := maskAt (8 * o) (8 * n)

/-- The header fields every message has (R426). -/
def commonMask : Nat := maskAt 0 8 + maskAt 8 6 + maskAt 16 9 + maskAt 32 9 + maskAt 48 13 + byteMask 8 4

/-- The bits of bytes 12–47 that a type, and for CTRL a subtype, names; `none` for an unassigned type or subtype. -/
def fieldMask (type sub : Nat) : Option Nat :=
  match type with
  | 0x01 => some (byteMask 12 4 + maskAt 128 4 + maskAt 136 7 + maskAt 144 20 + maskAt 192 41 + maskAt 256 48 + maskAt 320 23)
  | 0x02 => some (byteMask 12 4 + maskAt 128 2 + maskAt 136 7 + maskAt 144 23 + maskAt 192 48 + maskAt 256 48)
  | 0x03 => some (byteMask 12 8 + maskAt 160 48 + maskAt 208 20 + maskAt 232 2 + maskAt 256 41 + maskAt 320 2)
  | 0x04 => some (byteMask 12 8 + maskAt 160 2 + maskAt 192 48)
  | 0x05 => some (byteMask 12 1 + maskAt 104 1 + byteMask 16 8 + byteMask 24 4 + maskAt 256 48)
  | 0x06 => some (byteMask 12 10)
  | 0x07 => some (byteMask 12 10 + byteMask 24 4 + maskAt 224 4 + maskAt 240 9)
  | 0x08 => some (byteMask 12 8 + maskAt 160 1 + byteMask 24 8)
  | 0x09 =>
    (match sub with
     | 0x01 => some (byteMask 12 1 + maskAt 128 9 + byteMask 20 4 + maskAt 192 48 + maskAt 240 1 + byteMask 32 10)
     | 0x02 => some (byteMask 12 1 + byteMask 16 8)
     | 0x03 => some (byteMask 12 1 + byteMask 16 16)
     | 0x04 => some (byteMask 12 1 + maskAt 128 9 + byteMask 20 4)
     | 0x05 => some (byteMask 12 1 + maskAt 128 48)
     | 0x06 => some (byteMask 12 1 + byteMask 16 1)
     | _ => none)
  | _ => none

/-- The length that a message of a type must have, where its header alone decides it (R426–R428). -/
def lengthOk (m : List Byte) : Bool :=
  let n := mLen m
  match mType m with
  | 0x02 => if mfld m 16 1 % 2 = 1 then n == 48 else decide (48 < n ∧ n ≤ 7936)
  | 0x03 => decide (48 < n ∧ n ≤ 7936)
  | 0x08 => decide (1 ≤ mfld m 16 4 ∧ mfld m 16 4 ≤ 7888) && n == 48 + mfld m 16 4
  | 0x09 => if mfld m 12 1 = 0x04 then n == 66 else n == 48
  | _ => n == 48

/-- A flooded message: LINK_STATE (R428, R430). -/
def floodedType (m : List Byte) : Bool := mType m == 0x09 && mfld m 12 1 == 0x04

/-- A routed message: the row messages and DRAIN (R424, R428). -/
def routedType (m : List Byte) : Bool := decide (1 ≤ mType m ∧ mType m ≤ 5) || (mType m == 0x09 && mfld m 12 1 == 0x05)

/-- The CLASS that a request carries. -/
def mClass (m : List Byte) : Nat := if mType m = 0x01 then mfld m 16 1 % 4 else mfld m 40 1 % 4

/-- The VC is one its type may travel on, and a request's CLASS equals it (R424, R438). -/
def vcOk (vc : Fin 5) (m : List Byte) : Bool :=
  let t := mType m
  if t = 1 ∨ t = 3 then vc.val == mClass m else if t ≤ 5 then decide (vc.val < 4) else vc.val == 4

/-- A body of LINK_STATE with its reserved bits 0 (R428). -/
def linkBodyOk (m : List Byte) : Bool :=
  (List.range 9).all (fun i => mfld m (48 + 2 * i) 2 &&& 0x7E00 == 0)

/-- The message has the form R426–R428 give its type, as far as the message itself shows it (R438 cause 0x21). -/
def wellFormedMsg (vc : Fin 5) (m : List Byte) : Bool :=
  decide (48 ≤ m.length) && m.length == mLen m && lengthOk m && vcOk vc m
    && (match fieldMask (mType m) (mfld m 12 1) with
        | some k => let h := ofBytes (m.take 48); h - (h &&& (commonMask + k)) == 0
        | none => false)
    && (routedType m || floodedType m || mHops m % 64 == 0)
    && (mType m != 0x05 || decide (1 ≤ mfld m 12 1 ∧ mfld m 12 1 ≤ 0x0A))
    && (!(mType m == 0x09 && mfld m 12 1 == 0x04) || linkBodyOk m)
    && (!(mType m == 0x09 && mfld m 12 1 == 0x06) || decide (mfld m 16 1 ≤ 2))

/-- An assigned type other than `type`: the message is not one for this row. -/
def otherType (type : Nat) (m : List Byte) : Bool := mType m != type && decide (1 ≤ mType m ∧ mType m ≤ 9)

/-! ### Outgoing link control and credits (R422, R425) -/

/-- Acknowledge the last flit received in order (R422). -/
def sendAck (p : Fin 9) (nak : Bool) (s : State) : State :=
  emit (.linkCtl p (((s.fab.ports[p]).rxSeq + 1023) % 1024) nak)
    (modPort p (fun x => { x with unacked := 0, nakSent := x.nakSent || nak }) s)

/-- The CREDIT message of the freed flits (R425, R428). -/
def sendCredit (p : Fin 9) (s : State) : State :=
  let x := s.fab.ports[p]
  if x.state ≠ .joined ∨ x.rxFreed.toList.all (fun n => n == 0) then s
  else
    let rest := (List.finRange 5).foldl (fun h v => mput (12 + 2 * v.val) 2 x.rxFreed[v] h) 0
    let m := mhead 0x06 x.peer 48 rest s
    sendOn p 4 false m (modPort p (fun x => { x with rxFreed := Vector.replicate 5 0 }) s)

/-- A received message has been taken: its flits are freed, and 64 on any one VC are returned at once (R425). CREDIT messages take
none. -/
def consumeMsg (p : Fin 9) (vc : Fin 5) (m : List Byte) (s : State) : State :=
  if mType m = 0x06 then s
  else
    let n := min (flitsOf m) (s.fab.ports[p]).rxHeld[vc]
    let s := modPort p (fun x => { x with rxHeld := vmod x.rxHeld vc (· - n), rxFreed := vmod x.rxFreed vc (· + n) }) s
    if (s.fab.ports[p]).rxFreed.toList.any (fun k => decide (64 ≤ k)) then sendCredit p s else s

/-! ### Link state (R430) -/

/-- The LINK_STATE message of this device to a neighbour (R428). -/
def ownLinkState (dst : Nat) (s : State) : List Byte :=
  let body := (List.finRange 9).flatMap (fun q =>
    let y := s.fab.ports[q]
    toBytes 2 (if y.state = .joined then y.peer + 2 ^ 15 else 0))
  msgCtrl dst 0x04 (mput 16 2 (ownDev s) (mput 20 4 s.fab.lsSeq 0)) body s

/-- The device floods its LINK_STATE on every joined port (R430). -/
def floodOwn (s : State) : State :=
  let s := modFab (fun f => { f with lsSeq := (f.lsSeq + 1) % 2 ^ 32 }) s
  (List.finRange 9).foldl (fun s q =>
    if (s.fab.ports[q]).state = .joined then sendOn q 4 false (ownLinkState (s.fab.ports[q]).peer s) s else s) s

/-! ### Requests and updates after a route change (R435, R437) -/

/-- Reissue a ROW_GET with a new REQ (R435): the old one is retired, and the ledger of its destination says so (R451). -/
def reissueGet (g : RowGet) (dest : Nat) (s : State) : State :=
  let n := s.fab.nextReq
  let s := modCount g.dest (fun c => { c with retired := c.retired + 1 }) s
  let g' := { g with req := n, dest := dest, wait := .answer }
  let s := modFab (fun f => { f with nextReq := (f.nextReq + 1) % 2 ^ 32, gets := modFirst (fun x => x.req == g.req) (fun _ => g') f.gets }) s
  transmitGet g' s

/-- Reissue every outstanding ROW_GET and resend every unacknowledged ROW_ADD that does not wait for a map (R435, R439). -/
def resendAll (s : State) : State :=
  let s := (s.fab.gets.filter (fun g => g.result.isNone && (match g.wait with
    | .gen _ => false
    | _ => true))).foldl (fun s g => reissueGet g g.dest s) s
  s.pu.store.foldl (fun s r => match r.wait with
    | .gen _ => s
    | _ => sendUpdate r.upd s) s

/-- The device switches to the routes of its present link state, and a change reissues and resends (R431, R435). -/
def recomputeRoutes (s : State) : State :=
  let r := computeRoutes s
  if r = s.fab.routes then s else resendAll (modFab (fun f => { f with routes := r }) s)

/-! ### Taking a port down (R113, R420, R439) -/

/-- Send a link-local message on a port whatever its credits: HELLO before the join, LEAVE (R428, R439). -/
def rawSend (p : Fin 9) (m : List Byte) (s : State) : State :=
  emit (.fabric p 4 m) (modPort p (fun x => { x with txSeq := (x.txSeq + 1) % 1024 }) s)

/-- CTRL LEAVE with a reason (R428). -/
def sendLeave (p : Fin 9) (reason : Nat) (s : State) : State :=
  if (s.fab.ports[p]).state = .joined then rawSend p (msgCtrl (s.fab.ports[p]).peer 0x06 (mput 16 1 reason 0) [] s) s else s

/-- A port without its volatile contents: replay buffer, waiting messages, credits and exchanges. -/
def Port.cleared (x : Port) : Port :=
  { x with
    alloc := Vector.replicate 5 0, avail := Vector.replicate 5 0, rxHeld := Vector.replicate 5 0, rxFreed := Vector.replicate 5 0
    txSeq := 0, txAck := 0, rxSeq := 0, unacked := 0, nakSent := false, replays := 0, txq := [], echo := none
    measuring := false, peerHello := none, helloSent := false }

/-- What arrived through a port and is not finished ends: services, and updates received and not acknowledged (R113, R251); the
ledgers of its peers are recounted from what survives (R114). -/
def dropArrivals (p : Fin 9) (s : State) : State :=
  let sv := s.fab.services.filter (fun g => g.port == p)
  let s := sv.foldl (fun s g => modCount g.src (fun c => { c with inGets := c.inGets - 1 }) s) s
  let s := modFab (fun f => { f with services := f.services.filter (fun g => g.port != p) }) s
  let mine (u : Update) : Bool := u.tile == 16 + p.val
  let us := (s.pu.inbound ++ s.pu.held).filter mine
  let s := us.foldl (fun s u => modCount u.sender (fun c => { c with received := c.received - 1 }) s) s
  pruneFaults (modPurl (fun q => { q with inbound := q.inbound.filter (fun u => !mine u), held := q.held.filter (fun u => !mine u) }) s)

/-- The port goes down: it trains again if it is enabled (R113, R420). -/
def portDown (p : Fin 9) (s : State) : State :=
  let was := (s.fab.ports[p]).state
  let s := chainLost p s
  let s := modPort p (fun x => { x.cleared with state := if x.enabled then .training else .disabled, plies := 0, peer := 0 }) s
  if was = .joined then floodOwn s else s

/-- A Henur port reset (R113): its stitch queues are flushed, its replay buffer is discarded, what had arrived through it ends, and
it retrains. -/
def portReset (p : Fin 9) (s : State) : State := portDown p (dropArrivals p (sqFlushIds (sqPortIds p.val) (dropHeld s)))

/-- A port reset that can still tell its peer (R428, LEAVE reason 2). -/
def portResetBye (p : Fin 9) (s : State) : State := portReset p (sendLeave p 2 s)

/-- The port is fenced (R439, steps 1 to 5). -/
def fencePort (p : Fin 9) (s : State) : State :=
  let n := (s.fab.ports[p]).inSecond
  let s := dropArrivals p (sqFlushIds (sqPortIds p.val) (sendLeave p 1 s))
  let s := chainLost p (modPort p (fun x => { x.cleared with state := .fenced }) s)
  let s := floodOwn s
  let s := resendAll (modFab (fun f => { f with routes := computeRoutes s }) s)
  raise 70 (logErr .contained 0x2C .henurPort p.val n 0 s)

/-- A peer violation (R438): logged, counted, and in excess of VIOL_LIMIT within a second fenced (R439). -/
def portViol (p : Fin 9) (cause ref : Nat) (s : State) : State :=
  let x := s.fab.ports[p]
  let counts := cause ≠ 0x28
  let s := logErr .partner cause .henurPort p.val x.peer ref s
  let s := modPort p (fun x => { x with
    lastCause := cause
    violations := if counts then satTo 32 (x.violations + 1) else x.violations
    inSecond := if counts then x.inSecond + 1 else x.inSecond }) s
  let y := s.fab.ports[p]
  if y.state = .joined ∧ y.violLimit < y.inSecond then fencePort p s else s

/-! ### Replay (R422) -/

/-- The sender replays every unacknowledged flit; the 16th replay without an acceptance takes the port down (R420, R422). -/
def replayFlits (p : Fin 9) (s : State) : State :=
  let x := s.fab.ports[p]
  let n := (x.txSeq + 1024 - x.txAck) % 1024
  if n = 0 then s
  else
    let s := modPort p (fun x => { x with replayed := satTo 32 (x.replayed + n), replays := x.replays + 1 }) s
    let s := logErr .corrected 0x20 .henurPort p.val x.peer n (emit (.replay p x.txAck n) s)
    if 16 ≤ x.replays + 1 then portReset p (logErr .contained 0x29 .henurPort p.val x.plies.toNat 0 s) else s

/-- An ACK releases replay-buffer flits up to its SEQ (R422). -/
def takeAck (p : Fin 9) (ack : Nat) (s : State) : State :=
  let x := s.fab.ports[p]
  let out := (x.txSeq + 1024 - x.txAck) % 1024
  let k := (ack % 1024 + 1 + 1024 - x.txAck) % 1024
  if 1 ≤ k ∧ k ≤ out then pump p (modPort p (fun x => { x with txAck := (ack % 1024 + 1) % 1024, replays := 0 }) s) else s

/-- A received ACK or NAK (R422). -/
def takeControl (p : Fin 9) (ack : Nat) (valid nak : Bool) (s : State) : State :=
  let s := if valid || nak then takeAck p ack s else s
  if nak then replayFlits p s else s

/-- The port exchanges flits: it is trained and neither fenced nor disabled (R439). -/
def portLive (p : Fin 9) (s : State) : Bool :=
  let st := (s.fab.ports[p]).state
  decide (st = .joined) || decide (st = .training)

/-- A link-control flit (row LINK_CONTROL_FLIT). -/
def linkControl (p : Fin 9) (ack : Fin 1024) (valid nak : Bool) (s : State) : State :=
  if portLive p s then takeControl p ack.val valid nak s else s

/-- Row REPLAY_TIMEOUT: ACK has not advanced for 4 µs while flits are outstanding (R422). -/
def replayTimeout (p : Fin 9) (s : State) : State := if portLive p s then replayFlits p s else s

/-- Row ACK_TIMER (R422). -/
def ackTimer (p : Fin 9) (s : State) : State :=
  if portLive p s && decide (0 < (s.fab.ports[p]).unacked) then sendAck p false s else s

/-- Row CREDIT_RETURN_TIMER (R425). -/
def creditTimer (p : Fin 9) (s : State) : State := sendCredit p s

/-- A link error: one NAK per gap, and a corrected-class entry (R422, R438 cause 0x20). -/
def linkError (p : Fin 9) (s : State) : State :=
  if (s.fab.ports[p]).nakSent then s
  else logErr .corrected 0x20 .henurPort p.val (s.fab.ports[p]).peer 0 (sendAck p true s)

/-- A sequenced flit arrives (row FLIT, R421, R422, R438). -/
def flitArrives (p : Fin 9) (f : BitVec 2048) (s : State) : State :=
  if !portLive p s then s
  else
    let bs := toBytes 256 f.toNat
    if crc32 (bs.take 252) ≠ ofBytes (bs.drop 252) then linkError p s
    else
      let h0 := ofBytes (bs.take 2)
      let h2 := ofBytes ((bs.drop 2).take 2)
      let s := takeControl p (bits h2 0 10) (h2.testBit 10) (h2.testBit 11) s
      let x := s.fab.ports[p]
      let vc := bits h0 10 3
      if vc = 7 ∨ !portLive p s then s
      else
        let d := (bits h0 0 10 + 1024 - x.rxSeq) % 1024
        if 512 ≤ d then s
        else if d ≠ 0 then linkError p s
        else
          let v : Fin 5 := Fin.ofNat 5 vc
          let credit := h0.testBit 13 && vc == 4 && ofBytes ((bs.drop 4).take 1) == 0x06
          if !credit && x.state == .joined && (decide (4 < vc) || decide (ownAlloc[v] ≤ x.rxHeld[v] + x.rxFreed[v])) then
            let s := if x.nakSent then s else sendAck p true s
            portViol p 0x23 0 s
          else
            let s := modPort p (fun x => { x with
              rxSeq := (x.rxSeq + 1) % 1024, nakSent := false, unacked := x.unacked + 1
              rxHeld := if credit || x.state != .joined then x.rxHeld else vmod x.rxHeld v (· + 1) }) s
            if 64 ≤ (s.fab.ports[p]).unacked then sendAck p false s else s

/-! ### Training and joining (R420, R425, R429) -/

/-- The neighbour's id for DST (R426): that of the join, else the expected one, else one the device does not know. -/
def linkDst (p : Fin 9) (s : State) : Nat × State :=
  let x := s.fab.ports[p]
  if x.state = .joined then (x.peer, s)
  else match x.expected with
    | some e => (e, s)
    | none => let (v, s) := drawFree s; (v.toNat % 512, s)

/-- The HELLO of this device on a port (R428). -/
def sendHello (p : Fin 9) (s : State) : State :=
  let cold := s.fab.coldPorts.getLsbD p.val
  let al := (List.finRange 5).foldl (fun h v => mput (32 + 2 * v.val) 2 ownAlloc[v] h) 0
  let rest := mput 16 2 (ownDev s) (mput 20 4 s.fab.gen (mput 24 6 s.stp.closed (mput 30 1 (b2n cold) al)))
  let (dst, s) := linkDst p s
  rawSend p (msgCtrl dst 0x01 rest [] s) (modPort p (fun x => { x with helloSent := true }) s)

/-- CTRL ECHO_REQ with the send time (R70, R428). -/
def echoReq (dst : Nat) (now : W64) (s : State) : List Byte := msgCtrl dst 0x02 (mput 16 8 now.toNat 0) [] s

/-- Complete the commands that wait for the port's join: RESULT0 `r0` for a PORT_CONFIG and for a failure, else 0 (R113, R187). -/
def answerWaiter (p : Fin 9) (status : Nat) (r0 : Nat) (s : State) : State :=
  (s.fab.ports[p]).waiters.foldl (fun s w =>
    let r := match findCmd (Fin.ofNat 64 w.1) w.2 s with
      | some c => if status = stOK ∧ Entry.opcode c.entry ≠ 0x41 then 0 else r0
      | none => r0
    complete (Fin.ofNat 64 w.1) w.2 status 0 (BitVec.ofNat 64 r) 0 s) (modPort p (fun x => { x with waiters := [] }) s)

/-- The join is refused: the port stays down (R187, R429). -/
def refuseJoin (p : Fin 9) (peer : Nat) (s : State) : State :=
  answerWaiter p stState peer (modPort p (fun x => { x.cleared with state := .down }) s)

/-- The allocations a HELLO advertises. -/
def helloAlloc (m : List Byte) : Vector Nat 5 := Vector.ofFn (fun v => mfld m (32 + 2 * v.val) 2)

/-- The allocations lie in the ranges of R425. -/
def allocOk (a : Vector Nat 5) : Bool :=
  (List.finRange 5).all (fun v => decide ((if v.val = 4 then 32 else 64) ≤ a[v] ∧ a[v] ≤ 2048))

/-- The port joins (R429): counts restart (R442), credits are full, a peer from a cold reset restarts its record (R382), a close
repeats its DRAINs (R558), and the updates that lie on this port's routes go out again (R113). -/
def joinPort (p : Fin 9) (m : List Byte) (s : State) : State :=
  let peer := mfld m 16 2 % 512
  let s := modPort p (fun x => { x with
    state := .joined, peer := peer, alloc := helloAlloc m, avail := helloAlloc m
    rxHeld := Vector.replicate 5 0, rxFreed := Vector.replicate 5 0
    violations := 0, inSecond := 0, periods := 0, replayed := 0, fecCorrected := 0, fecFailed := 0, lastCause := 0, gaugeIgnored := 0
    dropped := 0, peerHello := none }) s
  let s := modFab (fun f => { f with coldPorts := f.coldPorts &&& ~~~ (BitVec.twoPow 9 p.val) }) s
  let s := modCount peer id s
  let s := if mfld m 30 1 % 2 = 1 then modPurl (fun q => { q with senders := kvErase q.senders peer }) s else s
  let s := modStp (fun q => { q with left := q.left.filter (fun d => d != peer) }) s
  let s := floodOwn s
  let s := match closingOf s with
    | some (st, k) => if 2 ≤ k ∧ allAcked st.num s then (peerSet s).foldl (fun s d => sendDrain st.num d s) s else s
    | none => s
  let s := s.pu.store.foldl (fun s r => if routeTo r.upd.dest s = some p ∧ r.wait = .answer then sendUpdate r.upd s else s) s
  answerWaiter p stOK peer s

/-- The join conditions of R429 on the peer's HELLO; this side has sent its own. -/
def tryJoin (p : Fin 9) (m : List Byte) (s : State) : State :=
  let x := s.fab.ports[p]
  let peer := mfld m 16 2 % 512
  if s.fab.id.isNone ∨ peer = ownDev s ∨ (x.expected.isSome ∧ x.expected ≠ some peer) then refuseJoin p peer s
  else if !allocOk (helloAlloc m) then refuseJoin p peer (logErr .contained 0x2B .henurPort p.val peer 0 s)
  else joinPort p m s

/-- Row PORT_TRAINED: all 8 plies train, and the round trip is measured (R70, R420). -/
def portTrained (p : Fin 9) (now : W64) (s : State) : State :=
  let x := s.fab.ports[p]
  if !running s || s.er.fatal || !x.enabled || (x.state != .training && x.state != .down) then s
  else
    let s := modPort p (fun x => { x with state := .training, plies := 0xFF, measuring := true, echo := some now.toNat, helloSent := false }) s
    let (dst, s) := linkDst p s
    rawSend p (echoReq dst now s) s

/-- Row PLY_FAILURE (R420): the failing ply takes the port down, and the firmware resets it. -/
def plyFailure (p : Fin 9) (ply : Fin 8) (s : State) : State :=
  let x := s.fab.ports[p]
  if !x.plies.getLsbD ply.val then s
  else
    let left := x.plies &&& ~~~ (BitVec.twoPow 8 ply.val)
    let s := modPort p (fun x => { x with plies := left }) s
    if x.state = .joined ∨ x.state = .training then portReset p (logErr .contained 0x29 .henurPort p.val left.toNat 0 s) else s

/-- Row HELLO (R429). A HELLO on a joined port says that the peer has restarted. -/
def helloArrives (p : Fin 9) (m : List Byte) (s : State) : State :=
  let x := s.fab.ports[p]
  if x.state = .fenced ∨ x.state = .disabled ∨ !running s ∨ otherType 0x09 m ∨ (mType m = 0x09 ∧ mfld m 12 1 ≠ 0x01) then s
  else if !wellFormedMsg 4 m then portViol p 0x21 0 s
  else
    let s := if x.state = .joined then portReset p s else s
    if (s.fab.ports[p]).helloSent && decide ((s.fab.ports[p]).state = .training) then tryJoin p m s
    else modPort p (fun x => { x with peerHello := some m }) s

/-- Row ECHO_REQ: answered with the responder's hold time (R70, R428). -/
def echoReqArrives (p : Fin 9) (m : List Byte) (hold : W64) (s : State) : State :=
  let x := s.fab.ports[p]
  if !portLive p s ∨ otherType 0x09 m ∨ (mType m = 0x09 ∧ mfld m 12 1 ≠ 0x02) then s
  else if !wellFormedMsg 4 m then portViol p 0x21 0 (consumeMsg p 4 m s)
  else
    let s := consumeMsg p 4 m s
    let r := msgCtrl (mSrc m) 0x03 (mput 16 8 (mfld m 16 8) (mput 24 8 hold.toNat 0)) [] s
    if x.state = .joined then sendOn p 4 false r s else rawSend p r s

/-- Row ECHO_RSP (R70, R420): half the round trip is the one-way delay; a port over 2 µs does not join. -/
def echoRspArrives (p : Fin 9) (m : List Byte) (now : W64) (s : State) : State :=
  let x := s.fab.ports[p]
  if !portLive p s ∨ otherType 0x09 m ∨ (mType m = 0x09 ∧ mfld m 12 1 ≠ 0x03) then s
  else if !wellFormedMsg 4 m then portViol p 0x21 0 (consumeMsg p 4 m s)
  else
    let s := consumeMsg p 4 m s
    if x.echo ≠ some (mfld m 16 8) then s
    else
      let trip := (now - BitVec.ofNat 64 (mfld m 16 8) - BitVec.ofNat 64 (mfld m 24 8)).toNat
      let s := modPort p (fun y => { y with echo := none, rtt := satTo 32 (trip / 1000), delay := trip / 2, measuring := false }) s
      if x.state = .training ∧ x.measuring then
        if 2000000 < trip then
          answerWaiter p stState 0
            (logErr .contained 0x2A .henurPort p.val (trip / 1000) 0 (modPort p (fun y => { y.cleared with state := .down }) s))
        else
          let s := sendHello p s
          match x.peerHello with
          | some h => tryJoin p h s
          | none => s
      else s

/-- Row LINK_DELAY_MEASURE (R70): every 2^20 beats the port starts an echo exchange. -/
def delayMeasure (p : Fin 9) (now : W64) (s : State) : State :=
  if (s.fab.ports[p]).state = .joined then
    sendOn p 4 false (echoReq (s.fab.ports[p]).peer now s) (modPort p (fun x => { x with echo := some now.toNat }) s)
  else s

/-- Row LEAVE (R392, R428): the port goes down; an orderly leaver leaves the close peer set. -/
def leaveArrives (p : Fin 9) (m : List Byte) (s : State) : State :=
  let x := s.fab.ports[p]
  if x.state ≠ .joined ∨ otherType 0x09 m ∨ (mType m = 0x09 ∧ mfld m 12 1 ≠ 0x06) then s
  else if !wellFormedMsg 4 m then portViol p 0x21 0 (consumeMsg p 4 m s)
  else
    let s := if mfld m 16 1 = 0 ∧ !s.stp.left.contains x.peer then modStp (fun q => { q with left := q.left ++ [x.peer] }) s else s
    portDown p (dropArrivals p s)

/-! ### Link state rows (R430, R431) -/

/-- Row LINK_STATE_PERIOD: every 100 ms the device floods its LINK_STATE; ten periods from the join are one second of R439. -/
def linkPeriod (s : State) : State :=
  let s := modFab (fun f => { f with ports := f.ports.map (fun x =>
    if x.state = .joined then
      (if 10 ≤ x.periods + 1 then { x with periods := 0, inSecond := 0 } else { x with periods := x.periods + 1 })
    else x) }) s
  if running s && !s.er.fatal then floodOwn s else s

/-- Row ORIGIN_TIMEOUT: an origin not heard for 300 ms leaves the link state. -/
def originTimeout (o : Fin 512) (s : State) : State :=
  modFab (fun f => { f with links := f.links.filter (fun l => l.origin != o.val) }) s

/-- Row LINK_STATE: a newer record replaces the origin's, and is forwarded to every joined port but its own. -/
def linkStateArrives (p : Fin 9) (m : List Byte) (s : State) : State :=
  if (s.fab.ports[p]).state ≠ .joined ∨ otherType 0x09 m ∨ (mType m = 0x09 ∧ mfld m 12 1 ≠ 0x04) then s
  else
    let s := consumeMsg p 4 m s
    if !wellFormedMsg 4 m then portViol p 0x21 0 s
    else
      let o := mfld m 16 2 % 512
      let q := mfld m 20 4
      let newer := match s.fab.links.find? (fun l => l.origin == o) with
        | some l => decide (0 < (q + 2 ^ 32 - l.seqNo) % 2 ^ 32 ∧ (q + 2 ^ 32 - l.seqNo) % 2 ^ 32 < 2 ^ 31)
        | none => true
      if o = ownDev s ∨ !newer then s
      else
        let peers := (List.range 9).map (fun i =>
          let w := mfld m (48 + 2 * i) 2
          if w.testBit 15 then some (w % 512) else none)
        let s := modFab (fun f => { f with links := f.links.filter (fun l => l.origin != o) ++ [⟨o, q, peers⟩] }) s
        if 63 ≤ mHops m % 64 then s
        else (List.finRange 9).foldl (fun s r =>
          if r ≠ p ∧ (s.fab.ports[r]).state = .joined then
            sendOn r 4 false (m.take 1 ++ [BitVec.ofNat 8 (mHops m % 64 + 1)] ++ toBytes 2 (s.fab.ports[r]).peer ++ m.drop 4) s
          else s) s

/-- Every enabled port has joined or been fenced (R114). -/
def portsSettled (s : State) : Bool :=
  s.fab.ports.toList.all (fun x => !x.enabled || x.state == .joined || x.state == .fenced)

end Sys2Proof.Machine
end

