-- ==== Sys2Proof/Machine/FabricMsg.lean ====
section
/-! DEFINITION. Row messages at their destination and on their way (20_henur_fabric.md): forwarding (R432), serving (R435),
answers (R436, R437), received updates (18, R382–R384), DRAIN (R391, R559), CREDIT and GAUGE (R425, R440; 04, R69–R71). -/

namespace Sys2Proof.Machine

open Sys2Proof

/-! ### Forwarding (R432) -/

/-- The reference of a request: the REQ of a ROW_GET, the SEQ of a ROW_ADD. -/
def mRef (m : List Byte) : Nat := if mType m = 0x01 then mfld m 12 4 else mfld m 12 8

/-- A ROW_NAK to the source of a request (R436). -/
def nakRequest (vc : Fin 5) (m : List Byte) (reason : Nat) (s : State) : State :=
  (sendRouted (mSrc m) vc.val false (msgRowNak (mSrc m) reason (mType m == 0x03) (mRef m) 0 s) s).2

/-- A request: ROW_GET or ROW_ADD. -/
def isRequest (m : List Byte) : Bool := mType m == 0x01 || mType m == 0x03

/-- Forward a message for another device (R432). -/
def forwardMsg (vc : Fin 5) (m : List Byte) (s : State) : State :=
  let hops := mHops m % 64
  match routeTo (mDst m) s with
  | some q =>
    if 63 ≤ hops then (if isRequest m then nakRequest vc m 0x0A s else s)
    else sendOn q vc.val (isRequest m) (m.take 1 ++ [BitVec.ofNat 8 (hops + 1)] ++ m.drop 2) s
  | none => if isRequest m then nakRequest vc m 0x0A s else s

/-- A malformed message (R438 cause 0x21): dropped, and answered to SRC if it is a request with a readable header. -/
def malformedMsg (p : Fin 9) (vc : Fin 5) (m : List Byte) (s : State) : State :=
  let here := 48 ≤ m.length ∧ isRequest m
  let s := if here then nakRequest vc m 0x05 s else s
  let s := if here then
      (if mType m = 0x01 then modCount (mSrc m) (fun c => { c with inGets := c.inGets + 1, inDropped := c.inDropped + 1 }) s
       else modCount (mSrc m) (fun c => { c with received := c.received + 1, nacked := c.nacked + 1 }) s)
    else s
  portViol p 0x21 (if here then mRef m else 0) s

/-- What a row for messages of `type` does with the bytes that arrive: nothing on a port that is not joined or for another type;
the malformed are dropped; messages for other devices are forwarded; the rest is handled. -/
def receiveMsg (type : Nat) (p : Fin 9) (vc : Fin 5) (m : List Byte) (handle : State → State) (s : State) : State :=
  if (s.fab.ports[p]).state ≠ .joined ∨ otherType type m then s
  else
    let s := consumeMsg p vc m s
    if !wellFormedMsg vc m then malformedMsg p vc m s
    else if routedType m && mDst m != ownDev s then forwardMsg vc m s
    else handle s

/-! ### Serving a ROW_GET (R207, R370, R372, R435, R436) -/

/-- The ROW_GET a message spells. -/
def parseGet (p : Fin 9) (m : List Byte) : Service :=
  let b := mfld m 16 1
  { port := p, src := mSrc m, req := mfld m 12 4, cls := Fin.ofNat 4 b, spec := b.testBit 2, table := mfld m 18 3 % 2 ^ 20,
    row := mfld m 24 6 % 2 ^ 41, stall := .none }

/-- Answer a ROW_GET; its ledger counts it answered (R451). -/
def answerGet (g : Service) (m : List Byte) (s : State) : State :=
  (sendRouted g.src g.cls.val false m (modCount g.src (fun c => { c with inAnswered := c.inAnswered + 1 }) s)).2

/-- Answer it with a ROW_NAK. -/
def refuseGet (g : Service) (reason : Nat) (s : State) : State := answerGet g (msgRowNak g.src reason false g.req 0 s) s

/-- The version, frame and tracking step a ROW_DATA carries (R370, R427). -/
def dataMsg (g : Service) (frame : Nat) (v : BitVec 7) (bs : List Byte) (s : State) : List Byte :=
  let track := if g.spec ∧ s.ram.windowOpen then s.stp.mapStep else 0
  msgRowData g.src g.req false false v.toNat frame track bs s

/-- A block with a non-zero accessed-by set that does not name the requester keeps its REF bit as it was (R220, R234). -/
def keepRef (g : Service) (blk : Nat) (before : Option DirEntry) (s : State) : State :=
  match before with
  | some d =>
    let named := ((kvGet s.res.absets d.abset).getD 0).getLsbD g.src
    if d.abset ≠ 0 ∧ !named then blockMod g.table blk (fun e => { e with ref := d.ref }) s else s
  | none => s

/-- The status of a failed or suppressed service as a ROW_NAK reason (R370, R436). -/
def serviceReason (t : Table) (va st : Nat) (spec : Bool) (s : State) : Nat :=
  if spec then
    match resolve t.tag.toNat va .read s with
    | .t1 _ _ => 0x08
    | .absent _ _ => 0x04
    | .away _ _ => 0x04
    | _ => 0x09
  else if st = 0x22 then 0x08 else 0x09

/-- Keep a request in service. -/
def keepService (g : Service) (w : Stall) (s : State) : State :=
  modFab (fun f => { f with services := f.services ++ [{ g with stall := w }] }) s

/-- Serve a ROW_GET, or keep it in service while its context is stalled (R435). -/
def serveGet (g : Service) (s : State) : State :=
  match tableOf g.table s with
  | none => refuseGet g 0x06 s
  | some t =>
    match t.slot g.row with
    | none => refuseGet g 0x01 s
    | some slot =>
      let blk := t.slotBlock slot
      let before := blockDir g.table blk s
      let frame := (before.map (·.frame)).getD 0
      let hbm := (rowCopies g.table g.row 0 s).filter (fun c => decide (16 ≤ c.place))
      let kept := (primaryAt t slot 0 s :: hbm).foldl (fun acc c => insertCopy c acc) []
      match (kept[g.row % max 1 kept.length]?).bind (·.data) with
      | some (bs, v) => answerGet g (dataMsg g frame v bs s) s
      | none =>
        let va := t.slotVa slot
        match xRead ⟨3, g.port.val, g.cls.val, g.spec, 0⟩ t.tag.toNat va t.rowBytes .read s with
        | (.data bs, s) =>
          let f := ((blockDir g.table blk s).map (·.frame)).getD 0
          let s := keepRef g blk before s
          answerGet g (dataMsg g f (frameVersion f s) bs s) s
        | (.stall w, s) => keepService g w s
        | (.wait, s) => keepService g .none s
        | (.fault st, s) => refuseGet g (serviceReason t va st false s) s
        | (.suppressed, s) => refuseGet g (serviceReason t va 0 true s) s

/-- A service goes on (R435): its stall has been released, or ended with a failure. -/
def resumeService (s : State) (g : Service) : State :=
  let drop := modFab (fun f => { f with services := f.services.erase g })
  match g.stall with
  | .none => serveGet g (drop s)
  | .failed st => refuseGet g (if st = 0x22 then 0x08 else 0x09) (drop s)
  | _ => s

/-- Every service that can go on does. -/
def runServices (s : State) : State := s.fab.services.foldl resumeService s

/-- A validation request is answered as R372 decides. -/
def serveValidate (g : Service) (m : List Byte) (s : State) : State :=
  match tableOf g.table s with
  | none => refuseGet g 0x06 s
  | some t =>
    match t.slot g.row with
    | none => refuseGet g 0x01 s
    | some slot =>
      let v := BitVec.ofNat 7 (mfld m 17 1)
      let frame := mfld m 40 3 % 2 ^ 23
      let track := mfld m 32 6
      let current := track != 0 && track == s.stp.mapStep && primaryCurrent g.table (t.slotBlock slot) frame v s
      answerGet g (msgRowData g.src g.req true current v.toNat frame track [] s) s

/-- Row ROW_GET: the owner serves the row, or refuses it (R435, R436). -/
def rowGetArrives (p : Fin 9) (vc : Fin 5) (m : List Byte) (s : State) : State :=
  receiveMsg 0x01 p vc m (fun s =>
    let g := parseGet p m
    let s := modCount g.src (fun c => { c with inGets := c.inGets + 1 }) s
    match tableOf g.table s with
    | none => refuseGet g 0x06 s
    | some t =>
      let mine := ownerOf g.table g.row s = ownDev s
      if !mine ∨ (t.slot g.row).isNone then
        let s := if mine then logErr .contained 0x46 .table 0 g.table g.row s else s
        let s := refuseGet g 0x01 s
        if mGen m = s.fab.gen then portViol p 0x24 g.req s else s
      else if (mfld m 16 1).testBit 3 then serveValidate g m s
      else serveGet g s) s

/-! ### Answers to a ROW_GET (R435–R437) -/

/-- An answer with nothing outstanding is dropped and counted (R435). -/
def dropAnswer (p : Fin 9) (s : State) : State := modPort p (fun x => { x with dropped := satTo 32 (x.dropped + 1) }) s

/-- A request has its result; a request whose operation has left the Hook is over. -/
def settleGet (g : RowGet) (r : GetResult) (version frame track : Nat) (s : State) : State :=
  let s := modCount g.dest (fun c => { c with answered := c.answered + 1 }) s
  match hookOf g.op s with
  | none => dropGet g.req s
  | some _ => modGet g.req (fun x => { x with result := some r, version := version, frame := frame, track := track }) s

/-- A validation has its answer: the records it asked about are current or changed (R372). -/
def settleValidate (g : RowGet) (current : Bool) (s : State) : State :=
  let s := dropGet g.req (modCount g.dest (fun c => { c with answered := c.answered + 1 }) s)
  match hookOf g.op s with
  | none => s
  | some x =>
    putHook { x with reads := x.reads.map (fun r =>
      if r.elem = g.elem ∧ r.table = g.table ∧ r.row = g.row then
        (match r.place with
         | .remote d t none => { r with place := .remote d t (some current) }
         | _ => r)
      else r) } s

/-- The outstanding request with this REQ. -/
def getOf (req : Nat) (s : State) : Option RowGet := s.fab.gets.find? (fun g => g.req == req && g.result.isNone)

/-- Row ROW_DATA (R427, R435). -/
def rowDataArrives (p : Fin 9) (vc : Fin 5) (m : List Byte) (s : State) : State :=
  receiveMsg 0x02 p vc m (fun s =>
    match getOf (mfld m 12 4) s with
    | none => dropAnswer p s
    | some g =>
      let body := m.drop 48
      let reply := (mfld m 16 1).testBit 0
      let sizeBad := match tableOf g.table s with
        | some t => !reply && body.length != t.rowBytes
        | none => false
      if reply != g.validate || sizeBad then malformedMsg p vc m s
      else if g.validate then settleValidate g ((mfld m 16 1).testBit 1) s
      else settleGet g (.row body) (mfld m 17 1) (mfld m 18 3) (mfld m 24 6) s) s

/-- Send a request to the owner its map names; one that has become local is over, and the Hook reads the row itself (R437). -/
def rerouteGet (g : RowGet) (s : State) : State :=
  let o := ownerOf g.table g.row s
  if o = ownDev s then dropGet g.req (modCount g.dest (fun c => { c with retired := c.retired + 1 }) s) else reissueGet g o s

/-- NOT_OWNER for a ROW_GET (R437). -/
def getNotOwner (g : RowGet) (gen : Nat) (s : State) : State :=
  if s.fab.gen < gen then modGet g.req (fun x => { x with wait := .gen gen }) s
  else if gen < s.fab.gen then modGet g.req (fun x => { x with wait := .lag }) s
  else if ownerOf g.table g.row s ≠ g.dest then rerouteGet g s
  else settleGet g (.fault stIndex) 0 0 0 s

/-- A ROW_NAK for a ROW_GET (R436). -/
def getNak (g : RowGet) (reason gen : Nat) (s : State) : State :=
  if g.validate then settleValidate g false s
  else if reason = 0x01 then getNotOwner g gen s
  else if reason = 0x08 then settleGet g (.fault stPoison) 0 0 0 s
  else settleGet g (.fault stTranslation) 0 0 0 s

/-! ### Answers to a ROW_ADD (R380, R381, R436, R437) -/

/-- The stored update with this number for this destination. -/
def storedUpdate (dest : Nat) (sq : Nat) (s : State) : Option Resend :=
  s.pu.store.find? (fun r => r.upd.dest == dest && r.upd.seqNo.toNat == sq)

/-- Remove it. -/
def dropStored (u : Update) (s : State) : State :=
  modPurl (fun p => { p with store := p.store.filter (fun r => !(r.upd.dest == u.dest && r.upd.seqNo == u.seqNo)) }) s

/-- Change what it waits for. -/
def waitStored (u : Update) (w : GetWait) (s : State) : State :=
  modPurl (fun p => { p with store := modFirst (fun r => r.upd.dest == u.dest && r.upd.seqNo == u.seqNo) (fun r => { r with wait := w }) p.store }) s

/-- The update goes to the owner that the present map names, under that destination's next number (R381); an update that this
device now owns goes to its adder, unless its descriptor gives no slot. -/
def rerouteUpdate (u : Update) (s : State) : State :=
  let o := ownerOf u.table u.row s
  let noSlot := o = ownDev s ∧ ((tableOf u.table s).bind (fun t => t.slot u.row)).isNone
  if noSlot then refuseUpdate u 0x01 (dropStored u s)
  else
    let sq := (kvGet s.pu.seq o).getD 1
    let v := { u with dest := o, seqNo := sq, stall := .none }
    let s := modCount u.dest (fun c => { c with accepted := c.accepted - 1 }) (dropStored u s)
    let s := modCount o (fun c => { c with accepted := c.accepted + 1 }) (modPurl (fun p => { p with seq := kvSet p.seq o (sq + 1) }) s)
    if o = ownDev s then modPurl (fun p => { p with slots := p.slots ++ [v] }) s
    else sendUpdate v (modPurl (fun p => { p with store := p.store ++ [⟨v, .answer⟩] }) s)

/-- A ROW_NAK for a ROW_ADD (R381, R436, R437). -/
def addNak (p : Fin 9) (vc : Fin 5) (m : List Byte) (r : Resend) (reason gen : Nat) (s : State) : State :=
  let u := r.upd
  if reason = 0x01 then
    if s.fab.gen < gen then waitStored u (.gen gen) s
    else if gen < s.fab.gen then waitStored u .lag s
    else if ownerOf u.table u.row s ≠ u.dest then rerouteUpdate u s
    else refuseUpdate u 0x01 (dropStored u s)
  else if reason = 0x04 ∨ reason = 0x08 then malformedMsg p vc m s
  else refuseUpdate u reason (dropStored u s)

/-- Row ROW_NAK (R436). -/
def rowNakArrives (p : Fin 9) (vc : Fin 5) (m : List Byte) (s : State) : State :=
  receiveMsg 0x05 p vc m (fun s =>
    let reason := mfld m 12 1
    let ref := mfld m 16 8
    let gen := mfld m 24 4
    if mfld m 13 1 % 2 = 0 then
      match getOf ref s with
      | none => dropAnswer p s
      | some g => if reason = 0x02 ∨ reason = 0x03 ∨ reason = 0x07 then malformedMsg p vc m s else getNak g reason gen s
    else if reason = 0x0A then
      (if s.pu.store.any (fun r => r.upd.seqNo.toNat == ref) then s else dropAnswer p s)
    else
      match storedUpdate (mSrc m) ref s with
      | none => dropAnswer p s
      | some r => addNak p vc m r reason gen s) s

/-- Row ROW_ACK: the update leaves the retransmit store and is counted acknowledged (R380, R391). -/
def rowAckArrives (p : Fin 9) (vc : Fin 5) (m : List Byte) (s : State) : State :=
  receiveMsg 0x04 p vc m (fun s =>
    match storedUpdate (mSrc m) (mfld m 12 8) s with
    | none => dropAnswer p s
    | some r =>
      let u := r.upd
      let s := dropStored u s
      let s := modStep u.step (fun x => { x with acked := x.acked + 1 }) s
      modCount u.dest (fun c => { c with acked := c.acked + 1 }) s) s

/-- What waited for the shard map to reach a generation goes on (R437). -/
def releaseGen (s : State) : State :=
  let due (w : GetWait) : Bool := match w with
    | .gen g => decide (g ≤ s.fab.gen)
    | _ => false
  let gs := s.fab.gets.filter (fun g => due g.wait)
  let us := s.pu.store.filter (fun r => due r.wait)
  let s := gs.foldl (fun s g => rerouteGet g s) s
  us.foldl (fun s r => rerouteUpdate r.upd s) s

/-! ### Resends by time (R435, R437) -/

/-- Row ROUTE_RECOMPUTE (R431). -/
def routeRecompute (s : State) : State := if running s && !s.er.fatal then recomputeRoutes s else s

/-- Row ROW_GET_REISSUE: 200 µs without an answer (R435). -/
def getReissue (req : Nat) (s : State) : State :=
  match getOf req s with
  | some g => if g.wait = .answer && engines s then reissueGet g g.dest s else s
  | none => s

/-- Row ROW_ADD_RESEND: 200 µs without an acknowledgement (R435). -/
def addResend (dst : Fin 512) (sq : W64) (s : State) : State :=
  match storedUpdate dst.val sq.toNat s with
  | some r => if r.wait = .answer && operational s && !s.er.fatal then sendUpdate r.upd s else s
  | none => s

/-- Row NOT_OWNER_RESEND: 1 ms after a lagging owner's NOT_OWNER everything that waits for it is sent again, to the device this
device's map names (R437). -/
def notOwnerResend (dst : Fin 512) (s : State) : State :=
  if !(operational s && !s.er.fatal) then s
  else
    let gs := s.fab.gets.filter (fun g => g.wait == .lag && g.dest == dst.val)
    let us := s.pu.store.filter (fun r => r.wait == .lag && r.upd.dest == dst.val)
    let s := gs.foldl (fun s g => rerouteGet g s) s
    us.foldl (fun s r =>
      if ownerOf r.upd.table r.upd.row s = dst.val then sendUpdate r.upd (waitStored r.upd .answer s) else rerouteUpdate r.upd s) s

/-! ### A received ROW_ADD (R20, R382–R384) -/

/-- The values and draws in the body of a ROW_ADD for a row of `w` elements. -/
def parseAdd (p : Fin 9) (m : List Byte) (w : Nat) (s : State) : Update :=
  let b := mfld m 29 1
  let bf := b.testBit 0
  let vals := rowValues bf w (m.drop 48)
  let at0 := 48 + w * (if bf then 2 else 4)
  { tile := 16 + p.val, thread := 0, dest := ownDev s, sender := mSrc m, seqNo := BitVec.ofNat 64 (mfld m 12 8), step := mfld m 20 6,
    table := mfld m 26 3 % 2 ^ 20, row := mfld m 32 6 % 2 ^ 41, values := vals, bf16 := bf, cls := Fin.ofNat 4 (mfld m 40 1),
    draws := if b.testBit 1 then (List.range w).map (fun k => mfld m (at0 + 2 * k) 2) else [], stall := .none }

/-- What R383 says of a step tag. -/
inductive TagVerdict where
  | now | hold | mismatch
deriving DecidableEq, Repr

/-- The step tags this device accepts (R383). -/
def tagVerdict (n : Nat) (s : State) : TagVerdict :=
  match closingOf s with
  | some (st, k) =>
    if n = st.num ∧ k ≤ 2 then .now
    else if n = st.num + 1 then (if s.stp.closed = st.num ∧ 6 ≤ k then .now else .hold)
    else .mismatch
  | none =>
    match confirmOf s with
    | some st => if n = st.num then .now else .mismatch
    | none => .mismatch

/-- The body of a ROW_ADD has the length its table gives, with draws exactly where the table rounds stochastically (R427, R385). -/
def addLengthOk (t : Table) (m : List Byte) : Bool :=
  let b := mfld m 29 1
  b.testBit 1 == (t.round == 2) &&
    m.length == 48 + t.width * (if b.testBit 0 then 2 else 4) + (if b.testBit 1 then 2 * t.width else 0)

/-- Refuse a received update (R436). -/
def refuseAdd (m : List Byte) (u : Update) (reason : Nat) (s : State) : State :=
  nakUpdate u reason (modCount (mSrc m) (fun c => { c with received := c.received + 1 }) s)

/-- Row ROW_ADD_RECEIVED (R382). -/
def rowAddArrives (p : Fin 9) (vc : Fin 5) (m : List Byte) (s : State) : State :=
  receiveMsg 0x03 p vc m (fun s =>
    let t? := tableOf (mfld m 26 3 % 2 ^ 20) s
    let w := (t?.map (·.width)).getD 0
    let u := parseAdd p m w s
    let src := mSrc m
    let sq := u.seqNo.toNat
    let r := senderOf src s
    if !(peerSet s).contains src then portViol p 0x26 sq (refuseAdd m u 0x03 s)
    else if r.seen sq then
      let s := modCount src (fun c => { c with received := c.received + 1, dups := c.dups + 1 }) s
      let s := modStep u.step (fun x => { x with dups := x.dups + 1 }) s
      (sendRouted src vc.val false (msgRowAck src u.seqNo true false s) s).2
    else if r.next.toNat + 1024 ≤ sq then malformedMsg p vc m s
    else if (s.pu.inbound ++ s.pu.held).any (fun x => x.sender == src && x.seqNo == u.seqNo) then s
    else if tagVerdict u.step s = .mismatch then portViol p 0x25 sq (refuseAdd m u 0x02 s)
    else match t? with
    | none => refuseAdd m u 0x06 s
    | some t =>
      if t.addMode = 0 then refuseAdd m u 0x07 s
      else if !addLengthOk t m then malformedMsg p vc m s
      else
        let mine := ownerOf u.table u.row s = ownDev s
        if !mine ∨ (t.slot u.row).isNone then
          let s := if mine then logErr .contained 0x46 .table 0 u.table u.row s else s
          let s := refuseAdd m u 0x01 s
          if mGen m = s.fab.gen then portViol p 0x24 sq s else s
        else
          let s := modCount src (fun c => { c with received := c.received + 1 }) s
          if tagVerdict u.step s = .hold then modPurl (fun q => { q with held := q.held ++ [u] }) s
          else applyInbound u s) s

/-! ### DRAIN (R391, R559) -/

/-- Row DRAIN: recorded for close stage 2, answered once, or discarded. -/
def drainArrives (p : Fin 9) (m : List Byte) (s : State) : State :=
  if mType m = 0x09 ∧ mfld m 12 1 ≠ 0x05 then s
  else receiveMsg 0x09 p 4 m (fun s =>
    let src := mSrc m
    let n := mfld m 16 6
    let fresh := decide (s.stp.closed < n) || s.stp.live.any (fun x => x.num == n)
    let s := if fresh && !s.stp.drainsIn.contains (src, n) then modStp (fun x => { x with drainsIn := x.drainsIn ++ [(src, n)] }) s else s
    let due := s.stp.drainsOut.contains (src, n) && !s.stp.drainsAns.contains (src, n)
      && (decide (s.stp.closed = n) || (match closingOf s with
          | some (st, k) => st.num == n && decide (2 ≤ k)
          | none => false))
    if due then sendDrain n src (modStp (fun x => { x with drainsAns := x.drainsAns ++ [(src, n)] }) s) else s) s

/-! ### CREDIT (R425, R438) -/

/-- Row CREDIT: credits come back, clamped to the allocation. -/
def creditArrives (p : Fin 9) (m : List Byte) (s : State) : State :=
  receiveMsg 0x06 p 4 m (fun s =>
    let x := s.fab.ports[p]
    let ret (v : Fin 5) := mfld m (12 + 2 * v.val) 2
    let over_ := (List.finRange 5).any (fun v => decide (x.alloc[v] < x.avail[v] + ret v))
    let s := modPort p (fun y => { y with avail := Vector.ofFn (fun v => min y.alloc[v] (y.avail[v] + ret v)) }) s
    pump p (if over_ then portViol p 0x22 0 s else s)) s

/-- Row MESSAGE_FORWARD: a message for another device (R432); other messages are not this row's. -/
def messageForward (p : Fin 9) (vc : Fin 5) (m : List Byte) (s : State) : State :=
  if (s.fab.ports[p]).state = .joined && wellFormedMsg vc m && routedType m && mDst m != ownDev s then
    forwardMsg vc m (consumeMsg p vc m s)
  else s

/-! ### In-band gauge (R69–R71, R440) -/

/-- The source that this device takes its gauge from. -/
def gaugeFrom (s : State) : Nat := if s.gg.cfg.source = 2 then s.gg.selected else s.gg.cfg.source

/-- Send a GAUGE message on every downstream port (R69). -/
def gaugeSend (beat phase delay hops root : Nat) (s : State) : State :=
  (List.finRange 9).foldl (fun s q =>
    if s.gg.cfg.downMask.getLsbD q.val && (s.fab.ports[q]).state == .joined then
      let rest := mput 12 8 beat (mput 20 2 phase (mput 24 4 delay (mput 28 1 (hops % 16) (mput 30 2 root 0))))
      sendOn q 4 false (mhead 0x07 (s.fab.ports[q]).peer 48 rest s) s
    else s) s

/-- A device that takes its gauge from a connector originates in-band gauge: the phase at which the message leaves is the port's
own and left open (R69, R440). -/
def gaugeOriginate (s : State) : State :=
  if gaugeFrom s = 0 ∧ s.gg.cfg.downMask ≠ 0 then
    let (ph, s) := drawFree s
    gaugeSend s.gg.beat.toNat (ph.toNat % 2 ^ 16) 0 0 (ownDev s) s
  else s

/-- A local beat event, after which the root of the in-band gauge sends its beat on. -/
def withOrigin (f : State → State) (s : State) : State :=
  let t := f s
  if t.gg.beat ≠ s.gg.beat then gaugeOriginate t else t

/-- Row GAUGE: the message has taken GHOPS + 1 hops when it arrives, and 16 or more discard it (R71); it is a beat of the in-band source, or ignored; `since` is the time since the source's last good edge in ps,
`off` the mark's distance from the local one in ps (R70, R71). -/
def gaugeArrives (p : Fin 9) (m : List Byte) (since : Nat) (off : Int) (s : State) : State :=
  receiveMsg 0x07 p 4 m (fun s =>
    let beat := mfld m 12 8
    let hops := mfld m 28 1 % 16
    if s.gg.cfg.upstream ≠ p.val then
      portViol p 0x28 beat (modPort p (fun x => { x with gaugeIgnored := satTo 8 (x.gaugeIgnored + 1) }) s)
    else if 16 ≤ hops + 1 then logErr .partner 0x2E .henurPort p.val (hops + 1) beat s
    else
      let s := { s with gg := { s.gg with root := BitVec.ofNat 9 (mfld m 30 2), hops := hops } }
      let s := gaugeEdge 1 true (BitVec.ofNat 64 beat) since off s
      if gaugeFrom s = 1 then
        let (d, s) := drawFree s
        let delay := mfld m 24 4 + d.toNat + (s.fab.ports[p]).delay
        gaugeSend beat (mfld m 20 2) delay (hops + 1) (mfld m 30 2) s
      else s) s

end Sys2Proof.Machine
end

