-- ==== Sys2Proof/Machine/Power.lean ====
section
/-! DEFINITION. Power, cooling and monitors (23_power_thermal_monitors.md; 27, R541–R548): samples, limits and trip, the effective
cap, grants and the ramp, the throttle ladder, the brake, and the PM_ registers. -/

namespace Sys2Proof.Machine

open Sys2Proof

def modPm (f : PowerUnit → PowerUnit) (s : State) : State := { s with pm := f s.pm }

/-- Change monitor `m`. -/
def modMonitor (m : Fin 88) (f : Monitor → Monitor) (s : State) : State :=
  modPm (fun p => { p with monitors := vmod p.monitors m f }) s

/-- The bits of PM_EVENT (R490). -/
def pmEventBits : W32 := 0xFF

/-- A PM_EVENT bit becomes 1; its first setting raises vector 73 unless masked (R490). -/
def pmEvent (k : Nat) (s : State) : State :=
  if s.pm.event.getLsbD k then s
  else
    let s := modPm (fun p => { p with event := p.event ||| BitVec.twoPow 32 k }) s
    if s.pm.eventMask.getLsbD k then s else raise 73 s

/-- The module is powered and its power controller runs (R542). -/
def powered (s : State) : Bool := decide (s.rst.phase ≠ .off)

/-- Every ladder is at its bottom and the cap is 450 W: brake, fatal state or trip (R475, R476, R487). -/
def atBottom (s : State) : Bool := s.pm.brake || s.er.fatal || s.pins.thermTrip

/-! ### Monitors (R469–R474, R543) -/

/-- The factory trip threshold of a thermal monitor in 0.1 °C (R473). -/
def tripThreshold (m : Nat) : Int := if m < 38 then 1100 else if m < 46 then 1000 else if m = 46 then 1300 else 650

/-- A rail's nominal value in mV and its window in percent (R543). -/
def railNominal (i bin : Nat) : Nat × Nat :=
  if i = 1 then (3300, 5) else if i ≤ 3 then (800 - 10 * bin, 5) else if i = 4 then (800, 3) else if i ≤ 7 then (850, 3)
  else if i ≤ 15 then (400, 3) else if i = 16 then (1100, 3) else if i = 17 then (1800, 3) else if i = 18 then (900, 3)
  else if i = 19 then (1200, 3) else if i = 20 then (750, 3) else if i = 21 then (1800, 3) else if i = 22 then (1800, 3) else (800, 3)

/-- A rail reads outside `n` times its window (R543, R544); the main input's window is 40 to 60 V. -/
def railOutside (i bin n v : Nat) : Bool :=
  if i = 0 then decide (v < 40000 ∨ 60000 < v)
  else
    let (nom, pct) := railNominal i bin
    decide (n * pct * nom < 100 * (v - nom) ∨ n * pct * nom < 100 * (nom - v))

/-- The unit a monitor belongs to is excluded (R471). -/
def monExcluded (m : Nat) (s : State) : Bool :=
  if m < 32 then !s.ram.tiles.getLsbD (m / 2)
  else if 38 ≤ m ∧ m < 46 then !s.ram.stackSet.getLsbD (m - 38)
  else if 56 ≤ m ∧ m < 64 then !s.ram.stackSet.getLsbD (m - 56)
  else if 72 ≤ m then !s.ram.tiles.getLsbD (m - 72) else false

/-- Row MONITOR_SAMPLE (R470, R473, R474, R543). -/
def monitorSample (m : Fin 88) (v : BitVec 16) (s : State) : State :=
  if !powered s then
    if s.pins.auxValid && decide (m.val = 46 ∨ m.val = 47) then modMonitor m (fun x => { x with value := v }) s else s
  else if monExcluded m.val s then s
  else
    let x := s.pm.monitors[m]
    if m.val < 48 then
      let over_ := decide (x.limit.toInt < v.toInt)
      let warn := decide (tripThreshold m.val - 50 ≤ v.toInt)
      let s := modMonitor m (fun x => { x with value := v, valid := true, over_ := over_, warn := warn, releasing := x.releasing && !over_ }) s
      let s := if over_ && !x.over_ then pmEvent 6 (logErr .corrected 0x56 .none m.val (v.toNat) 0 s) else s
      if warn && !x.warn then pmEvent 4 s else s
    else
      let over_ := decide (m.val < 72) && railOutside (m.val - 48) s.pm.speedBin.toNat 1 v.toNat
      modMonitor m (fun x => { x with value := v, valid := true, over_ := over_ }) s

/-- Row THERMAL_RELEASE: the reading has stayed 3.0 °C or more below its limit for 1 ms (R474). -/
def thermalRelease (m : Fin 88) (s : State) : State :=
  let x := s.pm.monitors[m]
  if m.val < 47 ∧ 0 < x.press ∧ x.value.toInt ≤ x.limit.toInt - 30 then modMonitor m (fun x => { x with releasing := true, ticks := 0 }) s
  else s

/-- The 8 bytes of a MON_READ reading (R471); AGE is measured on no clock of the model and stays open. -/
def monitorReading (m : Fin 88) (age : W64) (s : State) : List Byte :=
  let x := s.pm.monitors[m]
  let ex := monExcluded m.val s
  let valid := x.valid && !ex
  let kind := if m.val < 48 then 0 else if m.val < 72 then 1 else 2
  let limit := if m.val < 48 then x.limit.toNat else if m.val < 72 then 0 else s.pm.speedBin.toNat
  toBytes 2 (if ex then 0 else x.value.toNat) ++ toBytes 2 limit
    ++ [BitVec.ofNat 8 (b2n valid + 2 * b2n (x.over_ && !ex) + 4 * b2n (x.warn && !ex) + 8 * b2n ex), BitVec.ofNat 8 kind]
    ++ toBytes 2 (age.toNat % 2 ^ 16)

/-- The highest VALUE among the valid thermal monitors 0–46 (R471). -/
def hottest (s : State) : Option Int :=
  ((List.finRange 88).filter (fun m => decide (m.val < 47) && (s.pm.monitors[m]).valid && !monExcluded m.val s)).foldl
    (fun acc m => let v := (s.pm.monitors[m]).value.toInt; some (max (acc.getD v) v)) none

/-! ### The throttle ladder (R483–R485) -/

/-- The positions of one rung at a ladder position 0–44: rungs 1 to 4 in order (R484). -/
def rungOf (pos r : Nat) : Nat :=
  if r = 1 then min 8 pos else if r = 2 then min 12 (pos - 8) else if r = 3 then min 12 (pos - 20) else min 12 (pos - 32)

/-- The ladder position of a tile: the lower of what the power controller and the thermal governor ask for (R474, R483). -/
def tileLadder (t : Nat) (s : State) : Nat :=
  if atBottom s then 44
  else
    let press (m : Nat) : Nat := (s.pm.monitors[(Fin.ofNat 88 m : Fin 88)]).press
    (2 * t :: (2 * t + 1) :: [32, 33, 34, 35, 36, 37, 46]).foldl (fun a m => max a (press m)) s.pm.ladder

/-- The rung-4 positions of a stack (R474, R484). -/
def stackRung (k : Nat) (s : State) : Nat :=
  if atBottom s then 12 else max (rungOf s.pm.ladder 4) (min 12 (s.pm.monitors[(Fin.ofNat 88 (38 + k) : Fin 88)]).press)

/-- Usable tiles. -/
def usableTiles (s : State) : List Nat := (List.range 16).filter (fun t => s.ram.tiles.getLsbD t)

/-- The position of the lowest tile (sensor 103, R488). -/
def lowestLadder (s : State) : Nat := (usableTiles s).foldl (fun a t => max a (tileLadder t s)) 0

/-- The highest rung under pressure on any domain (R490). -/
def topRung (s : State) : Nat :=
  let l := lowestLadder s
  if 0 < rungOf l 4 ∨ (List.range 8).any (fun k => decide (0 < stackRung k s)) then 4
  else if 0 < rungOf l 3 then 3 else if 0 < rungOf l 2 then 2 else if 0 < rungOf l 1 then 1 else 0

/-- Some ladder is below its top. -/
def throttled (s : State) : Bool := powered s && decide (0 < topRung s)

/-- A change of the ladders with its events (R490). -/
def withLadder (f : State → State) (s : State) : State :=
  let a := throttled s
  let t := f s
  let b := throttled t
  if !a && b then pmEvent 2 t else if a && !b then pmEvent 3 t else t

/-- Row THERM_TRIP: a monitor reaches its factory trip threshold (R475); with only the auxiliary input monitors 46 and 47 are
watched (R542). -/
def thermTripRow (m : Fin 48) (v : BitVec 16) (s : State) : State :=
  if !s.pins.auxValid ∨ v.toInt < tripThreshold m.val ∨ (!powered s ∧ m.val < 46) then s
  else
    let s := modMonitor (Fin.ofNat 88 m.val) (fun x => { x with value := v }) s
    let latch (s : State) : State := { s with pins := { s.pins with thermTrip := true } }
    if !powered s then latch s
    else
      logErr .fatal 0x58 .device m.val v.toNat 0
        (withLadder (fun s => modPm (fun p => { p with cap := 450, ramping := false, ladder := 44 }) (latch s)) s)

/-! ### The cap and the ramp (R476, R482) -/

/-- What the cap rises to. -/
def capTarget (s : State) : Nat := min s.pm.grant s.pm.hostCap

/-- The cap rises by the first step of a ramp, if it may rise (R482). -/
def rampStart (s : State) : State :=
  if atBottom s ∨ capTarget s ≤ s.pm.cap ∨ s.pm.ramping then s
  else
    let c := min (capTarget s) (s.pm.cap + 50)
    modPm (fun p => { p with cap := c, ramping := decide (c < capTarget s) }) s

/-- The target has changed from `old`: a decrease stops a ramp and applies at once (R482). -/
def targetChanged (old : Nat) (s : State) : State :=
  let t := capTarget s
  modPm (fun p => { p with cap := min p.cap t, ramping := p.ramping && decide (old ≤ t) && decide (p.cap < t) }) s

/-- A grant takes effect (R479, R480). -/
def takeGrant (w : Nat) (s : State) : State :=
  let old := capTarget s
  pmEvent 5 (targetChanged old (modPm (fun p => { p with grant := w, pendingGrant := none }) s))

/-- TENSION has been granted (R159). -/
def tensionOn (s : State) : Bool := granted 9 s

/-- The beat condition of R479. -/
def grantDue (g : PendingGrant) (s : State) : Bool :=
  match g.beat with
  | none => true
  | some b => decide ((s.gg.beat.setWidth 32 - b).toNat < 2 ^ 31)

/-- Without TENSION a pending grant takes effect at once, and the cap ramps (R480). -/
def grantAtOnce (s : State) : State :=
  if tensionOn s || s.pm.brake then s
  else
    let s := match s.pm.pendingGrant with
      | some g => takeGrant g.watts s
      | none => s
    rampStart s

/-- Row GRANT_DECREASE (R479). -/
def grantDecrease (s : State) : State :=
  match s.pm.pendingGrant with
  | some g => if tensionOn s && !s.pm.brake && decide (g.watts ≤ s.pm.grant) && grantDue g s then takeGrant g.watts s else s
  | none => s

/-- A tension slot fires (R479, R482, R487): while LOCKED a due grant takes effect, and the cap starts to rise. While the gauge is lost it
applies only a decrease (R82). -/
def tensionFires (s : State) : State :=
  if atBottom s then s
  else if s.gg.state ≠ .locked then grantDecrease s
  else
    let s := match s.pm.pendingGrant with
      | some g => if grantDue g s then takeGrant g.watts s else s
      | none => s
    rampStart s

/-- Row RAMP_STEP: 100 µs after the step before (R482). -/
def rampStep (s : State) : State :=
  if s.pm.ramping ∧ !atBottom s then
    let c := min (capTarget s) (s.pm.cap + 50)
    modPm (fun p => { p with cap := c, ramping := decide (c < capTarget s) }) s
  else s

/-- The host ceiling changes (R190, R476): a decrease applies, an increase waits for a slot, or ramps without TENSION. -/
def setHostCap (w : Nat) (s : State) : State :=
  let old := capTarget s
  let s := targetChanged old (modPm (fun p => { p with hostCap := w }) s)
  if tensionOn s then s else rampStart s

/-! ### The power controller (R483) -/

/-- The 100 µs average draw (R470). -/
def drawNow (s : State) : Nat := s.pm.samples.sum / max 1 s.pm.samples.length

/-- The thermal governor's part of one period: a monitor over its limit presses its domain down by one position, one in release
gives a position back every ten periods (R474, R483). -/
def governMonitor (m : Nat) (x : Monitor) : Monitor :=
  if 46 < m then x
  else if x.over_ then { x with press := min (if 38 ≤ m ∧ m < 46 then 12 else 44) (x.press + 1), releasing := false, ticks := 0 }
  else if x.releasing ∧ 0 < x.press then
    (if 10 ≤ x.ticks + 1 then { x with press := x.press - 1, ticks := 0, releasing := decide (1 < x.press) } else { x with ticks := x.ticks + 1 })
  else x

/-- Row POWER_CONTROL_TICK: every 10 µs, with the input power sampled then (R470, R483). -/
def powerTick (watts : Nat) (s : State) : State :=
  if !powered s then s
  else
    let s := withLadder (fun s =>
      let s := modPm (fun p => { p with samples := (watts :: p.samples).take 10 }) s
      let d := drawNow s
      let cap := if atBottom s then 450 else s.pm.cap
      let s := modPm (fun p =>
        if atBottom s then { p with ladder := 44, upTicks := 0 }
        else if cap < d then { p with ladder := min 44 (p.ladder + 1), upTicks := 0 }
        else if 100 * d ≤ 97 * cap then
          (if 10 ≤ p.upTicks + 1 then { p with ladder := p.ladder - 1, upTicks := 0 } else { p with upTicks := p.upTicks + 1 })
        else { p with upTicks := 0 }) s
      modPm (fun p => { p with monitors := Vector.ofFn (fun m => governMonitor m.val p.monitors[m]) }) s) s
    if throttled s then modPm (fun p => { p with throttleUs := satAdd p.throttleUs 10 }) s else s

/-- Row PWR_BRAKE_ASSERT (R487, R546). -/
def brakeAssert (s : State) : State :=
  let s := { s with pins := { s.pins with pwrBrake := true } }
  if !powered s || s.pm.brake then s
  else
    let s := withLadder (modPm (fun p => { p with brake := true, cap := 450, ramping := false, ladder := 44 })) s
    pmEvent 0 (logErr .corrected 0x57 .none 0 0 0 s)

/-- Row PWR_BRAKE_DEASSERT (R487). -/
def brakeDeassert (s : State) : State :=
  let s := { s with pins := { s.pins with pwrBrake := false } }
  if !s.pm.brake then s
  else grantAtOnce (pmEvent 1 (modPm (fun p => { p with brake := false }) s))

/-- The power unit at a reset of the device (R476, R490): registers at their reset values, the grant kept as a pending target over a
warm reset, everything lost in a cold one; the pin's level stays. -/
def powerReset (cold : Bool) (s : State) : State :=
  let p := s.pm
  let fresh : PowerUnit := { brake := s.pins.pwrBrake }
  if cold then { s with pm := fresh }
  else { s with pm := { fresh with
    hostCap := p.hostCap, speedBin := p.speedBin, grantW := p.grantW, grantBeat := p.grantBeat
    pendingGrant := match p.pendingGrant with
      | some g => some g
      | none => if 450 < p.grant then some ⟨p.grant, none⟩ else none
    monitors := p.monitors.map (fun x => { limit := x.limit }) } }

/-- At the end of stage S5 a device without a dynamic address is standalone (R481). -/
def standaloneCheck (s : State) : State :=
  if s.sb.addr.isNone ∧ !s.pm.standalone then pmEvent 7 (modPm (fun p => { p with standalone := true }) s) else s

/-- At stage S7 a standalone device takes a grant of 1,150 W under R480; another one goes on with a grant that waits for no slot
(R481). -/
def grantAtS7 (s : State) : State :=
  if s.pm.standalone then
    (if s.pm.brake then modPm (fun p => { p with pendingGrant := some ⟨1150, none⟩ }) s else rampStart (takeGrant 1150 s))
  else grantAtOnce s

/-! ### Registers (R490) -/

/-- The cap as it applies. -/
def capNow (s : State) : Nat := if atBottom s then 450 else s.pm.cap

/-- PM_STATUS. -/
def pmStatusReg (s : State) : Nat :=
  let warn := s.pm.monitors.toList.any (·.warn)
  let k := 16 - rungOf (lowestLadder s) 2
  drawNow s % 2 ^ 11 + 2 ^ 11 * capNow s + 2 ^ 22 * s.pm.grant + 2 ^ 33 * s.pm.hostCap + 2 ^ 44 * b2n s.pm.brake
    + 2 ^ 45 * b2n s.pm.standalone + 2 ^ 46 * b2n s.pm.ramping + 2 ^ 47 * b2n warn + 2 ^ 48 * topRung s + 2 ^ 51 * k

/-- PM_TILE_K. -/
def tileKReg (s : State) : Nat :=
  ((List.range 16).map (fun t => (15 - rungOf (tileLadder t s) 2) * 2 ^ (4 * t))).sum

/-- State sensor 110 (R488). -/
def powerState (s : State) : Nat :=
  if s.pins.thermTrip then 4 else if s.pm.brake then 3 else if s.pm.ramping then 2 else if throttled s then 1
  else if s.pm.standalone then 5 else 0

/-- A change of state sensor 110 goes to the event receiver, if one is set (R488). -/
def sensorCheck (s : State) : State :=
  let st := powerState s
  if st = s.sb.lastState then s
  else
    let s := { s with sb := { s.sb with lastState := st } }
    match s.sb.receiver with
    | some r => emit (.sensorEvent r st) s
    | none => s

end Sys2Proof.Machine
end

