-- ==== Sys2Proof/Machine/Firmware.lean ====
section
/-! DEFINITION. Firmware update (25_firmware_update.md): the image header and its checks (R508, R509), staging by mailbox and chain
(R510, R514–R516), delta records and apply (R511, R512), boot bank selection (R513), activation, trial and fallback (R517–R521),
discard (R522), ROM recovery (R523) and status (R524, R525). -/

namespace Sys2Proof.Machine

open Sys2Proof

/-! ### Banks -/

/-- A bank without a valid record. -/
def blankBank : Bank := ⟨0, 0, 0, 0, some []⟩

/-- The full image in a bank. -/
def Bank.bytes (b : Bank) : List Byte := b.image.getD Config.factoryImage

/-- Change a bank. -/
def modBank (b : Fin 2) (f : Bank → Bank) (s : State) : State := modFw (fun x => { x with banks := vmod x.banks b f }) s

/-- The running version; 0 in ROM recovery mode (R173, R523). -/
def runningVersion (s : State) : Nat := if s.rst.recovery then 0 else (runBank s).version

/-! ### The header (R508, R509) -/

/-- The named bytes of the header. -/
def headerMask : Nat := maskAt 0 48 + maskAt 64 40 + maskAt 128 1024 + maskAt 2048 8192 + maskAt 32000 768

/-- Step 1: the first offending field of a header. -/
def headerForm (h : Nat) : Option Nat :=
  let kind := bytesAt h 5 1
  let count := bytesAt h 12 1
  let body := bytesAt h 40 4
  let target := bytesAt h 44 4
  let delta : Bool := kind == 1
  let bad := [(0, bytesAt h 0 4 == 0x57464A46), (4, bytesAt h 4 1 == 1), (5, decide (kind ≤ 1)), (12, decide (count ≤ 64)),
    (16, bytesAt h 16 8 != 0), (24, delta || bytesAt h 24 8 == 0), (32, !delta || bytesAt h 32 8 == 0),
    (40, decide (1 ≤ body ∧ body ≤ (if delta then 33550336 else 31387648))),
    (44, if delta then decide (4097 ≤ target ∧ target ≤ 31391744) else target == 4096 + body),
    (96, delta || bytesAt h 96 48 == 0),
    (256, decide (64 ≤ count) || bytesAt h (256 + 16 * count) (16 * (64 - count)) == 0)]
  let offs := (bad.filter (fun x => !x.2)).map (fun x => x.1)
  let offs := match reservedByte h headerMask 4096 with
    | some o => o :: offs
    | none => offs
  offs.foldl (fun m o => some (match m with | some x => min x o | none => o)) none

/-- Step 3: this unit's serial number is in BIND, or BIND is empty (R493). -/
def bindOk (h : Nat) : Bool :=
  let n := bytesAt h 12 1
  n == 0 || (List.range n).any (fun i => bytesAt h (256 + 16 * i) 16 == Config.serial.toNat)

/-- Step 4: the versions fit the running one. -/
def versionOk (h : Nat) (s : State) : Bool :=
  if bytesAt h 5 1 = 1 then bytesAt h 24 8 == runningVersion s
  else bytesAt h 32 8 == 0 || decide (bytesAt h 32 8 ≤ runningVersion s)

/-- Step 5: the signature under the key in force, or the factory key in ROM recovery mode (R500). -/
def headerSigned (bs : List Byte) (s : State) : Bool :=
  let h := ofBytes (bs.take 4096)
  verify384 s.fw.key.key.coords (bs.take 4000) (bytesAt h 4000 48) (bytesAt h 4048 48)

/-- The checks of R509 in their order on the first 4,096 bytes; `steps` names those that apply. -/
def headerRefusal (steps : List Nat) (bs : List Byte) (s : State) : Option (Nat × Nat) :=
  let h := ofBytes (bs.take 4096)
  match headerForm h with
  | some o => some (stMalformed, 0x8000 + o)
  | none =>
    if steps.contains 2 && !hwTypeOk (bytesAt h 8 4) then some (stPolicy, 0x0006)
    else if steps.contains 3 && !bindOk h then some (stPolicy, 0x0007)
    else if steps.contains 4 && !versionOk h s then some (stPolicy, 0x0008)
    else if steps.contains 5 && !headerSigned bs s then some (stPolicy, 0x0009)
    else none

/-! ### Deliveries -/

/-- A delivery is refused or fails: its status is kept for FW_STATUS (R524). -/
def noteDelivery (st sub : Nat) (s : State) : State := modFw (fun f => { f with lastStatus := st, lastSub := sub }) s

/-- The delivery is discarded with a status. -/
def discardDelivery (st sub : Nat) (s : State) : State := noteDelivery st sub (modFw (fun f => { f with staging := none }) s)

/-- The bytes of an FW_CHUNK for a neighbour (R428). -/
def msgChunk (dst off : Nat) (last : Bool) (version : Nat) (bs : List Byte) (s : State) : List Byte :=
  mhead 0x08 dst (48 + bs.length)
    (mput 12 4 off 0 + mput 16 4 bs.length 0 + mput 20 1 (b2n last) 0 + mput 24 8 version 0) s ++ bs

/-- Send a chunk on every joined port of the downstream mask (R515). -/
def sendChunk (off : Nat) (last : Bool) (version : Nat) (bs : List Byte) (s : State) : State :=
  (List.finRange 9).foldl (fun (s : State) (p : Fin 9) =>
    if s.fw.chainMask.getLsbD p.val then sendOn p 4 false (msgChunk (s.fab.ports[p]).peer off last version bs s) s else s) s

/-- Cut an FW_STAGE chunk into FW_CHUNKs of 7,888 bytes and send them (R515). -/
def sendCut (off : Nat) (last : Bool) (version : Nat) : (fuel : Nat) → List Byte → State → State
  | 0, _, s => s
  | fuel + 1, bs, s =>
    if bs.isEmpty then s
    else if bs.length ≤ 7888 then sendChunk off last version bs s
    else sendCut (off + 7888) last version fuel (bs.drop 7888) (sendChunk off false version (bs.take 7888) s)

/-- A header that only step 3 or 4 refuses: the delivery is forwarded and not kept (R515). -/
def forwardOnly (bs : List Byte) (s : State) : Bool := (headerRefusal [2, 5] bs s).isNone

/-- The apply starts: the inactive bank's record is erased first (R512 step 1). -/
def applyStart (bytes : List Byte) (owner : Option (Nat × Nat)) (s : State) : State :=
  modBank (otherBank s.fw.running) (fun _ => blankBank)
    (modFw (fun f => { f with staging := none, applying := some ⟨bytes, owner⟩ }) s)

/-- VERSION, size and body digest of a checked header. -/
def headVersion (bs : List Byte) : Nat := bytesAt (ofBytes (bs.take 4096)) 16 8
def headSize (bs : List Byte) : Nat := 4096 + bytesAt (ofBytes (bs.take 4096)) 40 4
def bodyOk (bs : List Byte) : Bool := sha384 (bs.drop 4096) == (bs.drop 48).take 48

/-! ### FW_STAGE (R192, R510) -/

/-- OFFSET 0 is not accepted now (R192, R510). -/
def stageShut (s : State) : Bool :=
  (match s.fw.staging with
   | some d => d.chain
   | none => false) || s.fw.applying.isSome || (idleBank s).state == 1 || activatePending s || inTrial s

/-- The chunk is stored at the end of the delivery `d`; the header has been checked. -/
def stageStore (owner : Nat × Nat) (d : Staging) (off : Nat) (bs : List Byte) (last : Bool) (s : State) : CmdEnd × State :=
  let all := d.bytes ++ bs
  if d.size < all.length ∨ (last ∧ all.length ≠ d.size) then
    (failEnd stMalformed 0x8028, discardDelivery stMalformed 0x8028 s)
  else
    let s := sendCut off last d.version (bs.length / 7888 + 1) bs s
    if !last then
      (okEnd all.length 0, modFw (fun f => { f with staging := some { d with bytes := all, next := all.length } }) s)
    else if !bodyOk all then (failEnd stMalformed 0x8030, discardDelivery stMalformed 0x8030 s)
    else (.works, applyStart all (some owner) s)

/-- A chunk at OFFSET 0 begins a delivery: its header is checked before anything else of it is kept (R509, R510). -/
def stageFirst (owner : Nat × Nat) (bs : List Byte) (last : Bool) (s : State) : CmdEnd × State :=
  if stageShut s then (failEnd stState 0, s)
  else
    let s := modFw (fun f => { f with staging := none }) s
    if bs.length < 4096 then (failEnd stMalformed 0x8028, discardDelivery stMalformed 0x8028 s)
    else match headerRefusal [2, 3, 4, 5] bs s with
      | some (st, sub) =>
        let s := if forwardOnly bs s then sendCut 0 last (headVersion bs) (bs.length / 7888 + 1) bs s else s
        (failEnd st sub, discardDelivery st sub s)
      | none => stageStore owner ⟨false, 0, [], true, true, headVersion bs, headSize bs, []⟩ 0 bs last s

/-- ROM recovery: the bank an image is written into (R523). -/
def recoveryTarget (s : State) : Fin 2 :=
  let a := s.fw.banks[(0 : Fin 2)]
  let b := s.fw.banks[(1 : Fin 2)]
  if a.state = 3 ∧ b.state = 3 then (if b.seqNo < a.seqNo then 1 else 0)
  else if a.state = 3 then 1 else 0

/-- One above the highest valid SEQ (R523). -/
def nextSeqNo (s : State) : Nat :=
  s.fw.banks.toList.foldl (fun m b => if b.state = 0 then m else max m (b.seqNo + 1)) 1

/-- ROM recovery: the image is complete, and its record is written CONFIRMED (R523). -/
def recoveryEnd (all : List Byte) (s : State) : State :=
  let t := recoveryTarget s
  let q := nextSeqNo s
  modBank t (fun _ => ⟨3, q, headVersion all, 0, some all⟩) (modFw (fun f => { f with staging := none }) s)

/-- ROM recovery: a chunk is stored into the target bank, which is invalid meanwhile (R523). -/
def recoveryStore (d : Staging) (bs : List Byte) (last : Bool) (s : State) : CmdEnd × State :=
  let all := d.bytes ++ bs
  let s := modBank (recoveryTarget s) (fun _ => blankBank) s
  if d.size < all.length ∨ (last ∧ all.length ≠ d.size) then
    (failEnd stMalformed 0x8028, discardDelivery stMalformed 0x8028 s)
  else if !last then
    (okEnd all.length 0, modFw (fun f => { f with staging := some { d with bytes := all, next := all.length } }) s)
  else if !bodyOk all then (failEnd stMalformed 0x8030, discardDelivery stMalformed 0x8030 s)
  else (okEnd all.length 0, recoveryEnd all s)

/-- ROM recovery: the first chunk; only full images, checked without step 4 (R523). -/
def recoveryFirst (bs : List Byte) (last : Bool) (s : State) : CmdEnd × State :=
  let s := modFw (fun f => { f with staging := none }) s
  if bs.length < 4096 then (failEnd stMalformed 0x8028, discardDelivery stMalformed 0x8028 s)
  else
    let refusal := match headerRefusal [2, 3, 5] bs s with
      | some (st, sub) => if st = stMalformed ∧ sub < 0x8005 then some (st, sub)
        else if bytesAt (ofBytes (bs.take 4096)) 5 1 = 1 then some (stMalformed, 0x8005) else some (st, sub)
      | none => if bytesAt (ofBytes (bs.take 4096)) 5 1 = 1 then some (stMalformed, 0x8005) else none
    match refusal with
    | some (st, sub) => (failEnd st sub, discardDelivery st sub s)
    | none => recoveryStore ⟨false, 0, [], true, true, headVersion bs, headSize bs, []⟩ bs last s

/-- FW_STAGE from its buffer on. -/
def stageRun (n : Fin 64) (e : Entry) (bs : List Byte) (s : State) : CmdEnd × State :=
  let off := efld e 8 4
  let last := e.getLsbD 128
  let owner := (n.val, Entry.cid e)
  if off = 0 then (if s.rst.recovery then recoveryFirst bs last s else stageFirst owner bs last s)
  else match s.fw.staging with
    | some d =>
      if d.chain || d.next != off then (failEnd stState 0, s)
      else if s.rst.recovery then recoveryStore d bs last s else stageStore owner d off bs last s
    | none => (failEnd stState 0, s)

def cmdFwStage : CmdDef where
  op := 0x75
  fields := [(8, 0, 32), (12, 0, 32), (16, 0, 1)]
  buf := fun e => .input (efld e 12 4)
  checks := fun e =>
    let len := efld e 12 4
    [(8, efld e 8 4 % 4096 == 0), (12, decide (1 ≤ len ∧ len ≤ 65536) && (e.getLsbD 128 || len % 4096 == 0))]
  run := fun n e s => readBuf n e (efld e 12 4) s fun bs s => stageRun n e bs s

/-! ### Delta records and apply (R511, R512) -/

/-- Write a delta's records in order: the target, or `none` where a record is malformed, reaches beyond the running image or overruns
the target (R511, R512). -/
def deltaApply (old : List Byte) (size : Nat) : (fuel : Nat) → (body out : List Byte) → Option (List Byte)
  | 0, _, _ => none
  | fuel + 1, body, out =>
    if body.length < 16 then none
    else
      let h := ofBytes (body.take 16)
      let len := bytesAt h 4 4
      match bytesAt h 0 1 with
      | 1 =>
        let src := bytesAt h 8 4
        if bytesAt h 1 3 ≠ 0 ∨ bytesAt h 12 4 ≠ 0 ∨ len = 0 ∨ 2 ^ 24 < len ∨ old.length < src + len ∨ size < out.length + len then none
        else deltaApply old size fuel (body.drop 16) (out ++ (old.drop src).take len)
      | 2 =>
        let pad := roundUp len 8
        if bytesAt h 1 3 ≠ 0 ∨ bytesAt h 8 8 ≠ 0 ∨ len = 0 ∨ 2 ^ 24 < len ∨ body.length < 16 + pad ∨ size < out.length + len
            ∨ ((body.drop (16 + len)).take (pad - len)).any (fun b => b != 0) then none
        else deltaApply old size fuel (body.drop (16 + pad)) (out ++ (body.drop 16).take len)
      | 3 => if h ≠ 3 ∨ body.length ≠ 16 ∨ out.length ≠ size then none else some out
      | _ => none

/-- The target of a delivery: a full image unchanged, or what the delta makes of the running image; TARGET_DIGEST checked. -/
def applyTarget (bs : List Byte) (s : State) : Option (List Byte) :=
  let h := ofBytes (bs.take 4096)
  if bytesAt h 5 1 = 0 then some bs
  else match deltaApply (runBank s).bytes (bytesAt h 44 4) (bs.length / 16 + 1) (bs.drop 4096) [] with
    | some t => if sha384 t = (bs.drop 96).take 48 then some t else none
    | none => none

/-- The check of the target's own header (R512 step 4). -/
def targetRefusal (bs t : List Byte) (s : State) : Option (Nat × Nat) :=
  match headerRefusal [2, 3, 5] t s with
  | some (st, sub) => if st = stMalformed then some (stMalformed, 0x8060) else some (st, sub)
  | none =>
    if bytesAt (ofBytes (t.take 4096)) 5 1 ≠ 0 ∨ headVersion t ≠ headVersion bs then some (stMalformed, 0x8060) else none

/-- Complete the FW_STAGE that waits for an apply. -/
def applyOwner (a : Apply) (st sub : Nat) (r0 : Nat) (s : State) : State :=
  match a.owner with
  | some (n, cid) => complete (Fin.ofNat 64 n) cid st sub (BitVec.ofNat 64 r0) 0 s
  | none => s

/-- The apply ends (row APPLY_COMPLETE, R512): the inactive bank is APPLIED, or stays INVALID and the delivery is discarded. -/
def applyEnd (s : State) : State :=
  match s.fw.applying with
  | none => s
  | some a =>
    if !running s then s
    else
      let fin (st sub : Nat) (s : State) := applyOwner a st sub 0 (noteDelivery st sub (modFw (fun f => { f with applying := none }) s))
      match applyTarget a.bytes s with
      | none => fin stMalformed 0x8060 s
      | some t =>
        match targetRefusal a.bytes t s with
        | some (st, sub) => fin st sub s
        | none =>
          let s := modBank (otherBank s.fw.running) (fun _ => ⟨1, 0, headVersion t, 0, some t⟩) s
          applyOwner a stOK 0 a.bytes.length (modFw (fun f => { f with applying := none }) s)

/-! ### The chain (R514–R516) -/

def cmdFwChainSet : CmdDef where
  op := 0x78
  fields := [(8, 0, 8), (10, 0, 9)]
  checks := fun e =>
    let up := efld e 8 1
    [(8, decide (up ≤ 8) || up == 0xFF), (10, !(decide (up ≤ 8) && e.getLsbD (80 + up)))]
  run := fun _ e s =>
    if s.fw.staging.isSome || s.fw.applying.isSome || activatePending s || inTrial s then (failEnd stState 0, s)
    else (okEnd 0 0, modFw (fun f => { f with chainUp := efld e 8 1, chainMask := BitVec.ofNat 9 (efld e 10 2) }) s)

/-- A chain chunk is dropped and counted (R516). -/
def chunkDrop (s : State) : State := modFw (fun f => { f with dropped := satTo 32 (f.dropped + 1) }) s

/-- A stored chunk is forwarded unchanged: its bytes from 12 on, under this device's link header (R426, R515). -/
def chunkForward (m : List Byte) (s : State) : State :=
  sendChunk (mfld m 12 4) (mfld m 20 1 % 2 == 1) (mfld m 24 8) (m.drop 48) s

/-- The delivery after one more chunk: the header check once 4,096 bytes are there, forwarding, size and digest rules (R510, R515,
R516). -/
def chunkStore (d : Staging) (m : List Byte) (s : State) : State :=
  let last := mfld m 20 1 % 2 == 1
  let d := { d with next := d.next + (m.drop 48).length, bytes := if d.keep then d.bytes ++ m.drop 48 else [], unsent := d.unsent ++ [m] }
  let drop (st sub : Nat) (s : State) := discardDelivery st sub s
  let after (d : Staging) (s : State) : State :=
    if d.size < d.next ∨ (last ∧ d.next ≠ d.size) then drop stMalformed 0x8028 s
    else
      let s := d.unsent.foldl (fun s m => chunkForward m s) s
      let d := { d with unsent := [] }
      if !last then modFw (fun f => { f with staging := some d }) s
      else if !d.keep then modFw (fun f => { f with staging := none }) s
      else if !bodyOk d.bytes then drop stMalformed 0x8030 s
      else applyStart d.bytes none s
  if d.checked then after d s
  else if d.next < 4096 then (if last then drop stMalformed 0x8028 s else modFw (fun f => { f with staging := some d }) s)
  else
    let d' := { d with checked := true, version := headVersion d.bytes, size := headSize d.bytes }
    match headerRefusal [2, 3, 4, 5] d.bytes s with
    | none => after d' s
    | some (st, sub) =>
      if forwardOnly d.bytes s then after { d' with keep := false, bytes := [] } (noteDelivery st sub s) else drop st sub s

/-- An FW_CHUNK arrives (row FW_CHUNK, R441, R516). -/
def chunkArrives (p : Fin 9) (m : List Byte) (s : State) : State :=
  receiveMsg 0x08 p 4 m (fun s =>
    let off := mfld m 12 4
    let bad (s : State) := portViol p 0x21 0 s
    if s.fw.chainUp ≠ p.val then portViol p 0x27 0 s
    else if !running s then chunkDrop s
    else if off = 0 then
      let mailbox := match s.fw.staging with
        | some d => !d.chain
        | none => false
      if mailbox || s.fw.applying.isSome || (idleBank s).state == 1 || activatePending s || inTrial s then chunkDrop s
      else
        let d : Staging := ⟨true, 0, [], false, true, 0, 0, []⟩
        let s := modFw (fun f => { f with staging := none }) s
        if 4096 ≤ (m.drop 48).length ∧ headVersion (m.drop 48) ≠ mfld m 24 8 ∧ (headerForm (ofBytes ((m.drop 48).take 4096))).isNone then bad s
        else chunkStore d m s
    else match s.fw.staging with
      | some d =>
        if !d.chain then chunkDrop s
        else if off ≠ d.next ∨ (d.checked ∧ mfld m 24 8 ≠ d.version) then bad s
        else if !d.checked && decide (4096 ≤ d.next + (m.drop 48).length)
            && decide (headVersion (d.bytes ++ m.drop 48) ≠ mfld m 24 8) then bad s
        else chunkStore d m s
      | none => chunkDrop s) s

/-! ### Activation, trial, discard (R517–R522) -/

def cmdFwActivate : CmdDef where
  op := 0x76
  mark := .req
  run := fun n e s =>
    if (idleBank s).state ≠ 1 ∨ activatePending s ∨ inTrial s then (failEnd stState 0, s)
    else schedule [ownEntry n e 0x0B 0] s

/-- The activation (R517): the inactive bank becomes the running one on TRIAL, with SEQ one above, the previous image is retained, and
every thread parks at its instruction (R315). The pause is a free number of µs up to 40,000, during which beats go on. -/
def activate (n : Fin 64) (cid : Nat) (late : Bool) (s : State) : State :=
  let (v, s) := drawFree s
  let us := v.toNat % 40001
  let old := runBank s
  let nb := otherBank s.fw.running
  let s := modBank nb (fun b => { b with state := 2, seqNo := old.seqNo + 1 }) s
  let s := modFw (fun f => { f with running := nb, retained := some old.version, pauseUs := us }) s
  let s := s.th.threads.foldl (fun s t => modThread t.1 (fun x => park (x.code s) x) s) s
  let k : W64 := BitVec.ofNat 64 (us * s.gg.cfg.rate / 1000000)
  let g := s.gg
  let i := g.selected
  let s := { s with gg := { (g.setSrc i { g.src i with num := (g.src i).num + k }) with beat := g.beat + k } }
  raise 74 (completeAt n cid stOK 0 (BitVec.ofNat 64 us) 0 late s)

/-- The running image confirms itself (row SELF_CONFIRMATION, R519). -/
def selfConfirm (s : State) : State :=
  if running s && inTrial s then
    raise 74 (modFw (fun f => { f with retained := none }) (modBank s.fw.running (fun b => { b with state := 3, fallbacks := 0 }) s))
  else s

/-- The trial counts as failed (R520 step 1): the trial bank is FAILED, the previous bank counts it, and it is the one that runs next. -/
def trialFail (s : State) : State :=
  let t := s.fw.running
  let s := modBank t (fun b => { b with state := 4 }) s
  let s := modBank (otherBank t) (fun b => { b with fallbacks := b.fallbacks + 1 }) s
  modFw (fun f => { f with running := otherBank t, retained := none }) s

def cmdFwDiscard : CmdDef where
  op := 0x79
  run := fun _ _ s =>
    if inTrial s then (failEnd stState 0, s)
    else
      let s := match s.fw.applying with
        | some a => applyOwner a stAbandoned 0 0 (modFw (fun f => { f with applying := none }) s)
        | none => s
      let es := s.gg.sched.filter (fun x => x.2.kind == 0x0B)
      let s := { s with gg := { s.gg with sched := s.gg.sched.filter (fun x => x.2.kind != 0x0B) } }
      let s := es.foldl (fun s x => abandonOwner s x.2) s
      let s := modFw (fun f => { f with staging := none }) s
      (okEnd 0 0, modBank (otherBank s.fw.running) (fun _ => blankBank) s)

/-! ### Boot bank selection (R513) -/

/-- The bank's image passes the checks of stage S2: R509 steps 1 to 3 and 5, and its record's digest. The image of manufacture is
signed with Garsenur's release key. -/
def bankBoots (b : Bank) (s : State) : Bool :=
  match b.image with
  | none => decide (s.fw.key.key = .release)
  | some bs => decide (4096 ≤ bs.length) && (headerRefusal [2, 3, 5] bs s).isNone

/-- Stage S1 of a cold reset: the candidates in the order they are tried, after a trial that the reset ended is counted; `none` enters
ROM recovery (R513 steps 1 and 2). -/
def bootOrder (s : State) : Option (List (Fin 2)) × State :=
  let a := s.fw.banks[(0 : Fin 2)]
  let b := s.fw.banks[(1 : Fin 2)]
  let cand (x : Bank) : Bool := x.state == 2 || x.state == 3
  let ended (t c : Bank) : Bool := t.state == 2 && c.state == 3 && decide (c.seqNo < t.seqNo)
  let fail (t c : Fin 2) : Option (List (Fin 2)) × State :=
    let s := modBank c (fun x => { x with fallbacks := x.fallbacks + 1 }) (modBank t (fun x => { x with state := 4 }) s)
    if 2 ≤ (s.fw.banks[c]).fallbacks then (none, s) else (some [c], s)
  if ended a b then fail 0 1
  else if ended b a then fail 1 0
  else
    let order : List (Fin 2) := if b.seqNo ≤ a.seqNo then [0, 1] else [1, 0]
    (some (order.filter (fun i => cand s.fw.banks[i])), s)

/-! ### Status (R524, R525) -/

/-- The delivery code of R524 byte 18. -/
def deliveryCode (s : State) : Nat :=
  if inTrial s then 6 else if activatePending s then 5 else if (idleBank s).state = 1 then 4
  else if s.fw.applying.isSome then 3
  else match s.fw.staging with
    | some d => if d.chain then 2 else 1
    | none => 0

/-- ms left in the confirmation window: a free number up to 30,000 in a trial, else 0. -/
def trialMs (s : State) : Nat := if inTrial s then (Config.freeValue s.freeCtr).toNat % 30001 else 0

/-- The version R524 gives in bytes 8–15. -/
def stagedVersion (s : State) : Nat :=
  match s.fw.staging, s.fw.applying with
  | some d, _ => d.version
  | none, some a => headVersion a.bytes
  | none, none => if (idleBank s).state = 0 then 0 else (idleBank s).version

/-- Bytes staged and image size (R524 bytes 20–27). -/
def stagedBytes (s : State) : Nat × Nat :=
  match s.fw.staging, s.fw.applying with
  | some d, _ => (d.bytes.length, d.size)
  | none, some a => (a.bytes.length, headSize a.bytes)
  | none, none => (0, 0)

/-- The FW_STATUS record (R524). -/
def fwStatus (s : State) : List Byte :=
  toBytes 8 (runningVersion s) ++ toBytes 8 (stagedVersion s)
    ++ [BitVec.ofNat 8 s.fw.running.val, BitVec.ofNat 8 (idleBank s).state, BitVec.ofNat 8 (deliveryCode s),
        BitVec.ofNat 8 (runBank s).fallbacks]
    ++ toBytes 4 (stagedBytes s).1 ++ toBytes 4 (stagedBytes s).2 ++ toBytes 4 (trialMs s) ++ toBytes 4 s.fw.pauseUs
    ++ toBytes 4 s.fw.dropped ++ toBytes 8 (s.fw.retained.getD 0) ++ [BitVec.ofNat 8 s.fw.lastStatus, 0] ++ toBytes 2 s.fw.lastSub
    ++ List.replicate 12 0

def cmdFwStatus : CmdDef where
  op := 0x77
  buf := fun _ => .output 64
  run := fun _ e s =>
    (okEnd (runningVersion s) (stagedVersion s), (drawFree (writeBuf e (fwStatus s) s)).2)

/-- FW_STATE (R525): 0 during stage S1. -/
def fwStateReg (s : State) : Nat :=
  if s.rst.stage ≤ 1 then 0
  else s.fw.running.val + 2 * (idleBank s).state + 16 * deliveryCode s + 128 * min 2 (runBank s).fallbacks
    + 512 * b2n s.rst.recovery + 1024 * trialMs s

end Sys2Proof.Machine
end

