-- ==== Sys2Proof/Machine/Sideband.lean ====
section
/-! DEFINITION. The management sideband: MCTP control and PLDM base (23, R477), platform monitoring and control (R478, R488), FRU data
(24, R498), and the I3C dynamic address (23, R481; 27, R550). -/

namespace Sys2Proof.Machine

open Sys2Proof

/-- The sideband is served from stage S3 onward (R477). -/
def sbServed (s : State) : Bool := decide (s.rst.phase = .up ∨ s.rst.phase = .quiesce) && decide (3 ≤ s.rst.stage)

/-- Answer a request, where the sideband is served. -/
def sbAnswer (r : SbReply) (s : State) : State := if sbServed s then emit (.sideband r) s else s

/-- Change the sideband's state. -/
def modSb (f : Sideband → Sideband) (s : State) : State := { s with sb := f s.sb }

/-- The 48-bit provisioned id (R550). -/
def provisionedId : Nat := Config.i3cVendor.toNat * 2 ^ 33 + 0x0816 * 2 ^ 16 + crc32 serialBytes % 2 ^ 16

/-- The controller assigns a dynamic address (row ENTDAA, R481, R550): standalone mode ends, and the grant becomes 450 W. -/
def dynamicAddress (a : BitVec 7) (s : State) : State :=
  if !sbServed s then s
  else
    let s := emit (.sideband (.values [provisionedId])) (modSb (fun b => { b with addr := some a }) s)
    if s.pm.standalone then
      let s := modPm (fun p => { p with standalone := false }) s
      modPm (fun p => { p with cap := min p.cap 450, ramping := false }) (takeGrant 450 (pmEvent 7 s))
    else s

/-! ### MCTP control -/

/-- Set Endpoint ID: the null and broadcast ids are no endpoint's. -/
def setEid (e : Byte) (s : State) : State :=
  if !sbServed s then s
  else if e = 0 ∨ e = 0xFF then sbAnswer (.error .invalidData) s
  else sbAnswer (.values [e.toNat]) (modSb (fun b => { b with eid := some e }) s)

/-- Get Endpoint ID: 0 where none is set. -/
def getEid (s : State) : State := sbAnswer (.values [(s.sb.eid.getD 0).toNat]) s

/-! ### PLDM base -/

/-- The PLDM types served (R477, R498). -/
def pldmTypes : List Nat := [0, 2, 4]

/-- The commands of a PLDM type (R477, R488, R498). -/
def pldmCommands (t : Nat) : List String :=
  match t with
  | 0 => ["GetTID", "GetPLDMVersion", "GetPLDMTypes", "GetPLDMCommands"]
  | 2 => ["GetPDRRepositoryInfo", "GetPDR", "GetSensorReading", "GetStateSensorReadings", "GetNumericEffecterValue",
          "SetNumericEffecterValue", "SetEventReceiver"]
  | 4 => ["GetFRURecordTableMetadata", "GetFRURecordTable"]
  | _ => []

/-- GetPLDMVersion and GetPLDMCommands of a type that is not supported are refused. -/
def pldmOf (t : Nat) (r : SbReply) (s : State) : State :=
  sbAnswer (if pldmTypes.contains t then r else .error .unsupported) s

/-! ### Platform monitoring and control (R478, R488) -/

/-- The sensors and effecters of the repository, in the order of R488. -/
def pdrIds : List Nat := ((List.range 88).map (· + 1)) ++ [100, 101, 102, 103, 110, 111, 200, 201]

/-- The kind of a repository entry: 0 numeric sensor, 1 state sensor, 2 numeric effecter. -/
def pdrKind (id : Nat) : Nat := if id = 110 ∨ id = 111 then 1 else if id = 200 ∨ id = 201 then 2 else 0

/-- GetPDR of the record for a sensor or effecter. -/
def getPdr (id : Nat) (s : State) : State :=
  sbAnswer (if pdrIds.contains id then .values [id, pdrKind id] else .error .invalidData) s

/-- A numeric sensor's reading (R488). -/
def numericSensor (id : Nat) (s : State) : SbReply :=
  if 1 ≤ id ∧ id ≤ 88 then
    let m := id - 1
    let x := s.pm.monitors[(Fin.ofNat 88 m : Fin 88)]
    if monExcluded m s || !x.valid then .unavailable else .values [x.value.toNat]
  else if id = 100 then .values [drawNow s]
  else if id = 101 then .values [capNow s]
  else if id = 102 then .values [s.pm.grant]
  else if id = 103 then .values [lowestLadder s]
  else .error .invalidData

/-- A state sensor's reading (R488). -/
def stateSensor (id : Nat) (s : State) : SbReply :=
  if id = 110 then .values [powerState s]
  else if id = 111 then
    .values [match s.gg.state with | .unlocked => 0 | .locking => 1 | .locked => 2 | .holdover => 3 | .freeRun => 4]
  else .error .invalidData

/-- An effecter's value (R488). -/
def effecter (id : Nat) (s : State) : SbReply :=
  if id = 200 then .values [s.pm.grantW] else if id = 201 then .values [s.pm.grantBeat.toNat] else .error .invalidData

/-- SetEventReceiver; no address disables events (R488). -/
def setReceiver (r : Option Byte) (s : State) : State :=
  if sbServed s then sbAnswer (.values []) (modSb (fun b => { b with receiver := r }) s) else s

/-- Row GRANT_W: 450–1,150 W, which alone commits nothing (R478). -/
def grantWatts (w : Nat) (s : State) : State :=
  if !sbServed s then s
  else if w < 450 ∨ 1150 < w then sbAnswer (.error .invalidData) s
  else sbAnswer (.values []) (modPm (fun p => { p with grantW := w }) s)

/-- Row GRANT_BEAT: commits the pair; without TENSION, and so before negotiation, it takes effect at its commit (R478, R480). -/
def grantCommit (b : W32) (s : State) : State :=
  if !sbServed s then s
  else
    let s := modPm (fun p => { p with grantBeat := b, pendingGrant := some ⟨p.grantW, some b⟩ }) s
    sbAnswer (.values []) (grantAtOnce s)

/-! ### FRU data (R498) -/

/-- The ASCII bytes of a name. -/
def asciiBytes (x : String) : List Byte := x.toList.map (fun c => BitVec.ofNat 8 c.toNat)

/-- The records' fields: record type (1 general, 254 OEM), field number, content. The general record's fields stand in the order of
R498: manufacturer, model, part number, serial number, version, manufacture date. -/
def fruFields (t : FruTable) (s : State) : List (Nat × Nat × List Byte) :=
  let page := identityPage s
  let module := t.areas.headD []
  [(1, 1, asciiBytes "Garsenur Silicon"), (1, 2, asciiBytes "FJ-816"), (1, 3, (page.drop 32).take 16), (1, 4, page.take 16),
   (1, 5, asciiBytes "B0"), (1, 6, (page.drop 24).take 8)]
  ++ (List.range 8).map (fun i => (254, i + 1, (module.drop (128 * i)).take 128))
  ++ ((List.range 16).map (fun i => (254, i + 9, (t.areas.drop (i + 1)).headD [])))
  ++ [(254, 25, t.counts.flatMap (fun c => toBytes 4 c))]

/-- The tag areas and counts as they are now. -/
def fruSnapshot (s : State) : FruTable :=
  ⟨(List.range 17).map (fun a => tagArea a s), (List.range 17).map (fun a => tagCount a s)⟩

/-- GetFRURecordTableMetadata: one record set of two records. -/
def fruMetadata (s : State) : State := sbAnswer (.values [1, 2]) s

/-- GetFRURecordTable: the first part takes the snapshot that the whole transfer returns (R498). -/
def fruTable (first : Bool) (s : State) : State :=
  if !sbServed s then s
  else
    let s := if first then modSb (fun b => { b with fru := some (fruSnapshot s) }) s else s
    match s.sb.fru with
    | some t => sbAnswer (.fru (fruFields t s)) s
    | none => sbAnswer (.error .invalidData) s

end Sys2Proof.Machine
end

