-- ==== Sys2Proof/Machine/Spdm.lean ====
section
/-! DEFINITION. Attestation over PCIe DOE (24, R506, R507), DOE Discovery (06, R116) and CXL.cache snoops (06, R122). -/

namespace Sys2Proof.Machine

open Sys2Proof

/-- The responder answers from stage S4 on, outside ROM recovery mode, over the host link (R506). -/
def spdmServed (s : State) : Bool :=
  s.hl.up && s.rst.hostOn && !s.rst.recovery && decide (s.rst.phase = .up)

/-- Answer a request. -/
def spdmAnswer (r : SpdmReply) (s : State) : State := if spdmServed s then emit (.spdm r) s else s

/-- Set the phase and answer. -/
def spdmStep (ph : SpdmPhase) (r : SpdmReply) (s : State) : State :=
  if spdmServed s then emit (.spdm r) { s with sb := { s.sb with spdm := ph } } else s

/-- A request of another version than 1.2 is answered VersionMismatch (R506). -/
def versioned (ver : Byte) (f : State → State) (s : State) : State :=
  if ver = 0x12 then f s else spdmAnswer (.error .versionMismatch) s

/-- Requests that need a negotiated connection. -/
def negotiated (ver : Byte) (f : State → State) (s : State) : State :=
  versioned ver (fun s => if s.sb.spdm = .negotiated then f s else spdmAnswer (.error .unexpectedRequest) s) s

/-- GET_VERSION resets the session (R506). -/
def spdmGetVersion (s : State) : State := spdmStep .version .version s

/-- GET_CAPABILITIES: CERT_CAP, CHAL_CAP and MEAS_CAP. -/
def spdmCapabilities (ver : Byte) (s : State) : State :=
  versioned ver (fun s => if s.sb.spdm = .version then spdmStep .capabilities .capabilities s
    else spdmAnswer (.error .unexpectedRequest) s) s

/-- NEGOTIATE_ALGORITHMS: ECDSA P-384, SHA-384. -/
def spdmAlgorithms (ver : Byte) (s : State) : State :=
  versioned ver (fun s => if s.sb.spdm = .capabilities then spdmStep .negotiated .algorithms s
    else spdmAnswer (.error .unexpectedRequest) s) s

/-- GET_DIGESTS: the digest of slot 0's chain. -/
def spdmDigests (ver : Byte) (s : State) : State :=
  negotiated ver (spdmAnswer (.digests (sha384 Config.certChain))) s

/-- GET_CERTIFICATE: a portion of slot 0's chain; slots 1–7 are empty. -/
def spdmCertificate (ver : Byte) (slot : Fin 8) (off len : BitVec 16) (s : State) : State :=
  negotiated ver (fun s =>
    let chain := Config.certChain
    if slot ≠ 0 ∨ chain.length ≤ off.toNat then spdmAnswer (.error .invalidRequest) s
    else
      let part := (chain.drop off.toNat).take len.toNat
      spdmAnswer (.certificate part (chain.length - off.toNat - part.length)) s) s

/-- The next signature of the device-unique key (R505, R506). -/
def nextSignature (s : State) : BitVec 768 × State := (Config.deviceSign s.freeCtr, { s with freeCtr := s.freeCtr + 1 })

/-- CHALLENGE. -/
def spdmChallenge (ver : Byte) (slot : Fin 8) (s : State) : State :=
  negotiated ver (fun s =>
    if slot ≠ 0 then spdmAnswer (.error .invalidRequest) s
    else let (g, s) := nextSignature s; spdmAnswer (.challengeAuth g) s) s

/-- Usable-mask bytes 56–61 of IDENTIFY (R173). -/
def usableMasks (s : State) : List Byte :=
  let drives := ((List.finRange 4).map (fun p => b2n (s.res.drives[p]).usable * 2 ^ p.val)).sum
  [BitVec.ofNat 8 s.ram.stackSet.toNat, BitVec.ofNat 8 drives] ++ toBytes 2 s.ram.tiles.toNat ++ toBytes 2 s.fab.usable.toNat

/-- A measurement block's content (R507). -/
def measurement (i : Nat) (s : State) : List Byte :=
  match i with
  | 1 => beBytes 48 Config.romDigest.toNat
  | 2 => sha384 (runBank s).bytes
  | 3 => toBytes 8 (runningVersion s)
  | 4 => toBytes 4 s.fw.key.gen ++ [BitVec.ofNat 8 s.fw.key.slot]
      ++ sha384 (toBytes 48 s.fw.key.key.coords.1 ++ toBytes 48 s.fw.key.key.coords.2)
  | 5 => toBytes 16 (if s.mb.negotiated then s.mb.features.toNat else 0)
  | _ => usableMasks s ++ [BitVec.ofNat 8 (s.pm.speedBin.toNat % 8)]

/-- GET_MEASUREMENTS: one block, all six (0xFF), or their number only (0) (R507). -/
def spdmMeasurements (ver index : Byte) (sign : Bool) (s : State) : State :=
  negotiated ver (fun s =>
    let idx := if index = 0xFF then [1, 2, 3, 4, 5, 6] else if index = 0 then [] else [index.toNat]
    if 6 < index.toNat ∧ index ≠ 0xFF then spdmAnswer (.error .invalidRequest) s
    else
      let blocks := idx.map (fun i => (i, measurement i s))
      if sign then let (g, s) := nextSignature s; spdmAnswer (.measurements blocks (some g)) s
      else spdmAnswer (.measurements blocks none) s) s

/-- An SPDM request that is not implemented (R506). -/
def spdmOther (ver : Byte) (s : State) : State := versioned ver (spdmAnswer (.error .unsupportedRequest)) s

/-- DOE Discovery (R116): the Discovery protocol at index 0, CMA-SPDM at index 1; both of the PCI-SIG vendor id. -/
def doeDiscovery (i : Byte) (s : State) : State :=
  if !s.hl.up || !powered s then s
  else if i = 0 then emit (.doe 0 0x0001 0 1) s
  else if i = 1 then emit (.doe 1 0x0001 1 0) s
  else emit (.doe i.toNat 0xFFFF 0 0) s

/-- An H2D snoop in CXL mode is answered RspIHitI (R122). -/
def h2dSnoop (s : State) : State := if s.hl.up && s.hl.cxl then emit .snoopIHitI s else s

end Sys2Proof.Machine
end

