-- ==== Sys2Proof/Machine/Session.lean ====
section
/-! DEFINITION. The session commands (08_command_catalogue.md): NEGOTIATE (R159, R160), IDENTIFY (R173), QP_CREATE and QP_DELETE
(R140, R141, R163), RESET_REPORT (R105). -/

namespace Sys2Proof.Machine

open Sys2Proof

/-! ### NEGOTIATE (R159, R160) -/

/-- The features the device offers (R159): FLASH_TIER with a drive initialised at S3, HOST_TIER_CXL with a link trained in CXL
mode at cast-on. -/
def offered (s : State) : Nat :=
  0xFFE7 + 8 * b2n ((List.finRange 4).any (fun p => (s.res.drives[p]).usable || (s.res.drives[p]).fenced))
    + 16 * b2n s.hl.cxlAtCastOn

def cmdNegotiate : CmdDef where
  op := 0x01
  fields := [(8, 0, 128)]
  run := fun _ e s =>
    let w := efld e 8 16
    let s := if s.rst.stage = 5 then { s with rst := { s.rst with stage := 6 } } else s
    if w % 2 = 0 then (failEnd stFeature 0, s)
    else
      let g := Nat.land w (offered s)
      let s := { s with mb := { s.mb with negotiated := true, features := BitVec.ofNat 128 g } }
      (okEnd g 0, s)

/-! ### IDENTIFY (R173) -/

/-- T1 bytes available for host allocation: each usable stack without its reservation (R38). -/
def t1Available (s : State) : Nat := (stacksOf s.ram.stackSet).length * (2 ^ 36 - 2 ^ 28)

/-- Some fitted resource is not usable (R173, R554). -/
def anyDegraded (s : State) : Bool :=
  s.ram.stackSet != 0xFF || s.ram.tiles != 0xFFFF || s.fab.usable != 0x1FF
    || s.res.drives.any (fun d => d.fitted && !d.usable)

/-- The IDENTIFY buffer. -/
def identifyPage (s : State) : List Byte :=
  toBytes 2 0x1F4E ++ toBytes 2 0x0816 ++ [0xB0, BitVec.ofNat 8 (b2n s.hl.cxlAtCastOn)] ++ toBytes 2 (s.fab.id.getD 0x1FF)
    ++ toBytes 8 (runningVersion s) ++ serialBytes ++ toBytes 16 (offered s) ++ toBytes 8 (t1Available s) ++ usableMasks s
    ++ [0, 0]
    ++ s.res.drives.toList.flatMap (fun d => toBytes 8 (if d.usable then 4096 * d.capacity else 0))
    ++ toBytes 8 0x100000000000 ++ List.replicate 152 0

def cmdIdentify : CmdDef where
  op := 0x02
  buf := fun _ => .output 256
  run := fun _ e s =>
    (.done (if anyDegraded s then stDegraded else stOK) 0 (BitVec.ofNat 64 (t1Available s)) 0, writeBuf e (identifyPage s) s)

/-! ### QP_CREATE and QP_DELETE (R140, R141, R163) -/

/-- The queue pair a QP_CREATE describes. -/
def newQp (e : Entry) : QueuePair :=
  { state := .enabled, sqBase := BitVec.ofNat 64 (efld e 16 8), cqBase := BitVec.ofNat 64 (efld e 24 8),
    sqLog := efld e 10 1 % 16, cqLog := efld e 10 1 / 16, cls := Fin.ofNat 4 (efld e 9 1 % 4), irqEn := efld e 11 1 % 2 == 1,
    coalCount := efld e 12 1, coalTime := efld e 13 1, deferAfter := efld e 14 1 }

/-- The queue pair a QP_CREATE or QP_DELETE names. -/
def namedQp (e : Entry) : Fin 64 := Fin.ofNat 64 (efld e 8 1)

def cmdQpCreate : CmdDef where
  op := 0x03
  fields := [(8, 0, 8), (9, 0, 2), (10, 0, 8), (11, 0, 1), (12, 0, 8), (13, 0, 8), (14, 0, 8), (16, 0, 64), (24, 0, 64)]
  checks := fun e => [(8, decide (1 ≤ efld e 8 1 ∧ efld e 8 1 ≤ 63)), (10, logOk (efld e 10 1 % 16) && logOk (efld e 10 1 / 16)),
    (16, efld e 16 8 % 4096 == 0), (24, efld e 24 8 % 4096 == 0)]
  onFault := fun e o s => if o = 16 ∨ o = 24 then violation 0x0E (efld e 8 1) 0 (efld e o 8) s else s
  run := fun _ e s =>
    let m := namedQp e
    if (s.mb.qps[m]).state ≠ .disabled then (failEnd stState 0, s)
    else
      let sq := efld e 16 8
      let cq := efld e 24 8
      if hostRefuses sq 64 s then (.fail stTranslation 16 (BitVec.ofNat 64 sq), violation 0x0F m.val 0 sq s)
      else if hostRefuses cq 32 s then (.fail stTranslation 24 (BitVec.ofNat 64 cq), violation 0x0F m.val 0 cq s)
      else (okEnd 0 0, modQp m (fun _ => newQp e) s)

def cmdQpDelete : CmdDef where
  op := 0x04
  fields := [(8, 0, 8)]
  checks := fun e => [(8, decide (efld e 8 1 ≤ 63))]
  run := fun _ e s =>
    let m := namedQp e
    let q := s.mb.qps[m]
    if m = 0 then (failEnd stPolicy 0x0002, s)
    else if q.state = .disabled ∨ q.stop ≠ none then (failEnd stState 0, s)
    else (.works, stopQp m (some (Entry.cid e)) s)

/-! ### RESET_REPORT (R105) -/

/-- The 64 bytes of the report. -/
def ResetReport.bytes (r : ResetReport) (kind : Nat) : List Byte :=
  [BitVec.ofNat 8 kind,
   BitVec.ofNat 8 (b2n r.durableValid + 2 * b2n r.closeResumed + 4 * b2n r.specAbandoned + 8 * b2n r.recountBalanced
     + 16 * b2n r.escalated), BitVec.ofNat 8 r.resumeStage, 0, 0, 0, 0, 0]
    ++ toBytes 8 (r.closingStep % 2 ^ 48) ++ toBytes 8 (r.lastDurable % 2 ^ 48) ++ toBytes 4 (satTo 32 r.launches)
    ++ toBytes 4 (satTo 32 r.threads) ++ toBytes 8 r.requeued ++ toBytes 8 r.discarded ++ toBytes 4 (satTo 32 r.quiesceNs)
    ++ List.replicate 12 0

/-- The LAST_RESET code of MB_STATUS. -/
def ResetKind.code : ResetKind → Nat
  | .powerOn => 0 | .modReset => 1 | .warmPin => 2 | .perst => 3 | .warmCmd => 4 | .flr => 5 | .escalated => 6

def cmdResetReport : CmdDef where
  op := 0x07
  buf := fun _ => .output 64
  run := fun _ e s => (okEnd 0 0, writeBuf e (ResetReport.bytes { s.rst.report with recountBalanced := s.rst.report.recountBalanced && s.rst.recountDone } s.rst.lastReset.code) s)

end Sys2Proof.Machine
end

