-- ==== Sys2Proof/Machine/Spaces.lean ====
section
/-! DEFINITION. Address-space and translation commands (08_command_catalogue.md R175–R177) with the Translation Hub's part of them:
invalidations and the pool's update (11_translation.md R241, R249–R255). -/

namespace Sys2Proof.Machine

open Sys2Proof

/-- The address space exists. -/
def spaceLive (tag : Nat) (s : State) : Bool := (kvGet s.tx.spaces tag).isSome

/-- Change the Translation Hub. -/
def modTx (f : TxUnit → TxUnit) (s : State) : State := { s with tx := f s.tx }

/-- `[a, a+n)` lies in tier T1, on a usable stack and outside the reservations (R175, R176); every stack ends in its
reservation, so no such range crosses stacks. -/
def t1Target (a n : Nat) (s : State) : Bool :=
  framePlace a s && framePlace (a + n - 1) s && decide (a / 2 ^ 36 = (a + n - 1) / 2 ^ 36)

/-! ### AS_CREATE and AS_DESTROY (R175, R241) -/

/-- The generation a tag has, or starts with. -/
def tagGen (tag : Nat) (s : State) : W32 := (kvGet s.tx.gens tag).getD 0

/-- Increment a tag's generation; older cached entries are discarded (R252). -/
def bumpGen (tag : Nat) (s : State) : State :=
  let g := tagGen tag s + 1
  modTx (fun x => { x with gens := kvSet x.gens tag g, spaces := kvMod x.spaces tag (fun sp => { sp with gen := g }),
                           cache := x.cache.filter (fun c => c.tag != tag) }) s

def cmdAsCreate : CmdDef where
  op := 0x10
  tag := true
  fields := [(16, 0, 64)]
  checks := fun e => [(16, efld e 16 8 % 65536 == 0)]
  run := fun _ e s =>
    let tag := Entry.tag e
    let root := efld e 16 8
    if !t1Target root 65536 s then (.fail stTranslation 0x0010 (BitVec.ofNat 64 root), s)
    else if spaceLive tag s then (failEnd stState 0, s)
    else
      let s := modTx (fun x => { x with spaces := kvSet x.spaces tag ⟨root, tagGen tag s⟩,
                                        gens := kvSet x.gens tag (tagGen tag s) }) s
      (okEnd 0 0, retryFaultIns (rereadPool tag 0 (2 ^ 52) s))

/-- Someone uses the address space: a live thread, a table descriptor, an active stream (R175). -/
def spaceUsed (tag : Nat) (s : State) : Bool :=
  s.th.threads.any (fun t => t.2.tag.toNat == tag) || s.tbl.tables.any (fun t => t.2.tag.toNat == tag)
    || s.tx.streams.any (fun x => x.tag == tag)

/-- An AS_DESTROY of the tag is under way. -/
def destroying (tag : Nat) (s : State) : Bool := s.tx.invals.any (fun i => i.destroy && i.tag == tag)

/-! ### The end of an invalidation (R253, R255) -/

/-- Remove an invalidation. -/
def dropInval (i : Inval) (s : State) : State := modTx (fun x => { x with invals := x.invals.erase i }) s

/-- Every engine has acknowledged: the pool is updated, and the command completes once the withdrawn frames are empty; until
then it waits for a pool frame (R255). -/
def invalProgress (s : State) (i : Inval) : State :=
  if i.waiting ≠ 0 then s
  else
    let s := emptyWithdrawn s
    let n := Fin.ofNat 64 i.qp
    if (withdrawnFrames s).isEmpty then
      let s := dropInval i s
      let s := if i.destroy then
          modTx (fun x => { x with spaces := kvErase x.spaces i.tag, cache := x.cache.filter (fun c => c.tag != i.tag) }) s
        else modTx (fun x => { x with owed := x.owed.filter (fun o =>
            !(o.1 == i.tag && decide (i.base ≤ o.2.1 ∧ o.2.1 + o.2.2 ≤ i.base + i.len))) }) s
      complete n i.cid stOK 0 0 0 (retryFaultIns s)
    else modCmd n i.cid (fun c => { c with wait := some resFrames }) s

def cmdAsDestroy : CmdDef where
  op := 0x11
  tag := true
  run := fun n e s =>
    let tag := Entry.tag e
    if !spaceLive tag s || spaceUsed tag s || destroying tag s then (failEnd stState 0, s)
    else
      let s := bumpGen tag s
      let s := modRes (fun r => { r with poolDecl := r.poolDecl.filter (fun d => d.1 != tag) }) s
      let i : Inval := ⟨n.val, Entry.cid e, tag, 0, 2 ^ 52, 0, true⟩
      (.works, invalProgress (modTx (fun x => { x with invals := x.invals ++ [i] }) s) i)

/-! ### PT_WRITE (R176) -/

/-- Write units in ascending order up to the first in a poisoned sector: units written, and that unit. -/
def ptUnits (a : Nat) : (bs : List Byte) → (k n : Nat) → State → (Nat × Option Nat) × State
  | bs, k, n + 1, s =>
    if poisoned (sectorOf a) s then ((k, some a), s)
    else ptUnits (a + 8) (bs.drop 8) (k + 1) n (t1Store a (bs.take 8) s)
  | _, k, 0, s => ((k, none), s)

/-- Read the buffer piece by piece and write each piece's units before the next is read. -/
def ptPieces (n : Fin 64) (src dst left k : Nat) : (fuel : Nat) → State → CmdEnd × State
  | 0, s => (okEnd k 0, s)
  | fuel + 1, s =>
    if left = 0 then (okEnd k 0, s)
    else
      let m := min left (4096 - src % 4096)
      if hostRefuses src m s then bufFault n src s
      else
        match ptUnits dst (cellsRead s.host src m) k (m / 8) s with
        | ((_, some a), s) => (.fail 0x22 0 (BitVec.ofNat 64 a), s)
        | ((k, none), s) => ptPieces n (src + m) (dst + m) (left - m) k fuel s

def cmdPtWrite : CmdDef where
  op := 0x12
  fields := [(16, 0, 64), (24, 0, 32)]
  buf := fun e => .input (efld e 24 4)
  checks := fun e => [(16, efld e 16 8 % 8 == 0),
    (24, decide (8 ≤ efld e 24 4 ∧ efld e 24 4 ≤ 65536) && efld e 24 4 % 8 == 0)]
  run := fun n e s =>
    let a := efld e 16 8
    let len := efld e 24 4
    if !t1Target a len s then (.fail stTranslation 0x0010 (BitVec.ofNat 64 a), s)
    else ptPieces n (Entry.dptr e) a len 0 18 s

/-! ### INVAL_TAG and INVAL_RANGE (R252–R255) -/

def cmdInvalTag : CmdDef where
  op := 0x13
  tag := true
  run := fun _ e s =>
    let tag := Entry.tag e
    if !spaceLive tag s then (failEnd stState 0, s)
    else let s := bumpGen tag s; (okEnd (tagGen tag s).toNat 0, s)

/-- Range invalidations that run (R253). -/
def rangeInvals (s : State) : Nat := (s.tx.invals.filter (fun i => !i.destroy)).length

def cmdInvalRange : CmdDef where
  op := 0x14
  tag := true
  fields := [(16, 0, 64), (24, 0, 64)]
  checks := fun e => [(16, efld e 16 8 % 2 ^ 21 == 0), (24, efld e 24 8 % 2 ^ 21 == 0 && efld e 24 8 != 0)]
  run := fun n e s =>
    let tag := Entry.tag e
    let lo := efld e 16 8
    let len := efld e 24 8
    if !spaceLive tag s then (failEnd stState 0, s)
    else if 4 ≤ rangeInvals s then (.waits resInvals, s)
    else
      let s := uncacheRange tag lo len s
      let i : Inval := ⟨n.val, Entry.cid e, tag, lo, len, BitVec.allOnes 58, false⟩
      (.works, modTx (fun x => { x with invals := x.invals ++ [i], ackExpected := x.ackExpected + 58 }) s)

/-- Engine `k` acknowledges the `i`-th invalidation under way (row INVAL_ACK, R253): 0–15 thread engines, 16–31 Hooks, 32–47
Purls, 48–56 Henur ports, 57 the aperture. After the last one the pool is updated (R255). -/
def invalAck (i : Nat) (k : Fin 58) (s : State) : State :=
  match s.tx.invals[i]? with
  | none => s
  | some x =>
    if !x.waiting.getLsbD k.val then s
    else
      let y := { x with waiting := x.waiting &&& ~~~ (BitVec.twoPow 58 k.val) }
      let s := modTx (fun t => { t with invals := t.invals.set i y, ackReceived := t.ackReceived + 1 }) s
      if y.waiting = 0 then invalProgress (rereadPool x.tag x.base (x.base + x.len) s) y else s

/-- Every invalidation whose acknowledgements are in goes on (R255). -/
def invalsProgress (s : State) : State := s.tx.invals.foldl invalProgress s

/-- A walk for `va` of `tag` ends (row WALK_COMPLETE, R236): a leaf is cached (R243). What an entry with V = 0 or a malformed one
brings is part of the access that met it. -/
def walkComplete (tag : BitVec 12) (va : BitVec 52) (s : State) : State :=
  if engines s then cacheLeaf tag.toNat va.toNat s else s

/-! ### The fault ring (R177, R249, R250) -/

def cmdFaultRingSet : CmdDef where
  op := 0x15
  fields := [(16, 0, 64)]
  checks := fun e => [(16, efld e 16 8 % 4096 == 0)]
  run := fun _ e s =>
    if s.tx.ringSet && !s.tx.faults.isEmpty then (failEnd stState 0, s)
    else
      (okEnd 0 0, modTx (fun x => { x with ringSet := true, ringBase := BitVec.ofNat 64 (efld e 16 8), frHead := 0, frTail := 0,
                                           frPhase := true, frCount := 0 }) s)

def cmdFaultResume : CmdDef where
  op := 0x16
  fields := [(16, 0, 64), (24, 0, 8)]
  checks := fun e => [(24, decide (efld e 24 1 ≤ 1))]
  run := fun _ e s =>
    match s.tx.faults.find? (fun f => f.id == efld e 16 8) with
    | none => (failEnd stState 0, s)
    | some f => (okEnd 0 0, endFault f (efld e 24 1 == 0) s)

end Sys2Proof.Machine
end

