-- ==== Sys2Proof/Machine/TableCommands.lean ====
section
/-! DEFINITION. Table, replica and hot-set commands (08_command_catalogue.md R172, R178, R179, R181) with the rules they carry out:
the directory check (R214), hot sets (R210–R212), replicas (R206). -/

namespace Sys2Proof.Machine

open Sys2Proof

/-- Change the tables. -/
def modTbl (f : TableUnit → TableUnit) (s : State) : State := { s with tbl := f s.tbl }

/-- The table id a command names in bytes 8–10. -/
def namedTable (e : Entry) : Nat := efld e 8 3 % 2 ^ 20

/-- R172: a table id with no descriptor. -/
def noTable (e : Entry) (s : State) : CmdEnd × State := (.fail stState 0 (BitVec.ofNat 64 (namedTable e)), s)

/-! ### TABLE_CREATE (R178, R196, R214) -/

/-- The first rule of R214 that a directory entry fails: status and SUBCODE. -/
def entryVerdict (x : Nat) (s : State) : Option (Nat × Nat) :=
  let d := DirEntry.parse x
  let bad : Bool := d.loc == 1 || d.home == 0 || (d.loc != 0 && d.home != d.loc) || (d.home == 2 && !d.t2valid)
    || (d.home == 3 && !d.t3valid) || bits x 4 7 != 0 || d.abset != 0 || d.version != 0 || d.frame != 0
    || (reservedByte x dirMask 32).isSome
  let v := s.res.drives[d.t3port]
  if bad then some (stMalformed, 0x8028)
  else if d.t2cxl && !granted 4 s then some (stFeature, 4)
  else if d.t3valid && !granted 3 s then some (stFeature, 3)
  else if d.t3valid && !(v.usable && decide (d.t3lba + 16 ≤ v.capacity - 256)) then some (stMalformed, 0x8028)
  else none

/-- The directory lies wholly in plain T1 pages. -/
def dirPlain (t : Table) (s : State) : Bool :=
  (List.range t.blocks).all (fun b => match plainPa t.tag.toNat (t.dirBase + 32 * b) s with
    | .bad => false
    | _ => true)

/-- The check of the directory's entries in ascending block order (R214): status, SUBCODE, RESULT0. -/
def dirVerdict (t : Table) (s : State) : Option (Nat × Nat × Nat) :=
  (List.range t.blocks).findSome? (fun b =>
    match dirPlace t b s with
    | .at pa => (entryVerdict (t1Nat pa 32 s) s).map (fun v => (v.1, v.2, 0))
    | .poison _ => some (0x22, 0, t.dirBase + 32 * b)
    | .bad => some (stMalformed, 0x8028, 0))

/-- Steps 4 and 5 of TABLE_CREATE: status, SUBCODE, RESULT0 of the first check that fails. -/
def createVerdict (d : Nat) (t : Table) (s : State) : Option (Nat × Nat × Nat) :=
  match descVerdict d t s with
  | some (_, .needs f) => some (stFeature, f, 0)
  | some (o, _) => some (stMalformed, 0x8000 + o, 0)
  | none =>
    if !dirPlain t s then some (stMalformed, 0x8028, 0)
    else match dirVerdict t s with
    | some v => some v
    | none => if (tableOf t.id.toNat s).isSome then some (stState, 0, 0) else compVerdict t s

def cmdTableCreate : CmdDef where
  op := 0x20
  buf := fun _ => .input 128
  run := fun n e s => readBuf n e 128 s fun bs s =>
    let d := ofBytes bs
    let t := Table.parse d
    match createVerdict d t s with
    | some (st, sub, r0) =>
      (.fail st sub (BitVec.ofNat 64 r0), if st = 0x22 then logErr .contained 0x36 .table t.tag.toNat t.id.toNat r0 s else s)
    | none => (okEnd 0 0, modTbl (fun x => { x with tables := kvSet x.tables t.id.toNat t }) s)

/-! ### Refresh entries of the schedule (R178, R212) -/

/-- A schedule entry that refreshes hot set `h`. -/
def refreshes (h : Nat) (e : SchedEntry) : Bool := e.kind == 8 && Entry.opcode e.cmd == 0x24 && e.tag.toNat == h

/-- Remove the refresh entries of hot set `h`, each with its log entry naming `obj` (R178, R212). -/
def dropRefreshes (h obj : Nat) (s : State) : State :=
  (s.gg.sched.filter (fun x => refreshes h x.2)).foldl (fun s x =>
    let s := { s with gg := { s.gg with sched := kvErase s.gg.sched x.1 } }
    abandonOwner (logErr .corrected 0x47 .table x.1 obj x.2.beat.toNat s) x.2) s

/-- Drop a hot set. -/
def dropHotSet (h : Nat) (s : State) : State :=
  modTbl (fun x => { x with hotSets := kvErase x.hotSets h, refreshing := x.refreshing.filter (· != h) }) s

/-! ### TABLE_DESTROY (R178) -/

/-- A fault-in of a destroyed table ends: its frame is freed and the engines replay. -/
def endTableFaultIn (s : State) (x : FaultIn) : State :=
  releaseStalls (.block x.table x.blk) .none
    (modRes (fun r => { r with faultIns := r.faultIns.filter (fun y => !(y.table == x.table && y.blk == x.blk)) }) s)

/-- The table leaves: its frames, transfers, hot sets, replicas and refresh entries go with it. -/
def destroyTable (id : Nat) (s : State) : State :=
  let hs := (s.tbl.hotSets.filter (fun h => h.2.table.toNat == id)).map (·.1)
  let s := hs.foldl (fun s h => dropHotSet h (dropRefreshes h id s)) s
  let fs := s.res.faultIns.filter (fun x => x.table == id)
  let s := modTbl (fun x => { x with tables := kvErase x.tables id, replicas := x.replicas.filter (fun r => r.table.toNat != id) }) s
  let s := modRes (fun r => { r with used := r.used.filter (fun u => u.2.1 != id),
                                     writeBacks := r.writeBacks.filter (fun w => w.table != id),
                                     faultIns := r.faultIns.map (fun f => if f.victim.any (fun v => v.1 == id)
                                       then { f with victim := none } else f) }) s
  retryFaultIns (fs.foldl endTableFaultIn s)

def cmdTableDestroy : CmdDef where
  op := 0x21
  fields := [(8, 0, 20)]
  run := fun _ e s =>
    let id := namedTable e
    match tableOf id s with
    | none => noTable e s
    | some t =>
      if !s.stp.live.isEmpty || s.tbl.tables.any (fun x => x.2.index == 2 && (x.2.compQ.toNat == id || x.2.compR.toNat == id))
          || s.ram.parked.any (fun r => r.table.toNat == id) then
        (failEnd stState 0, s)
      else (okEnd t.blocks 0, destroyTable id s)

/-! ### TABLE_QUERY (R215) -/

/-- Count the blocks of a table on tiers 1, 2 and 3; the first entry that cannot be read ends the count with its address and
status. -/
def countBlocks (t : Table) (s : State) : (Nat × Nat × Nat) ⊕ (Nat × Nat) :=
  (List.range t.blocks).foldl (fun acc b =>
    match acc with
    | .inr x => .inr x
    | .inl (a, c, d) =>
      match dirPlace t b s with
      | .at pa =>
        let x := DirEntry.parse (t1Nat pa 32 s)
        let tier := if x.loc = 0 then x.home else x.loc
        .inl (a + b2n (tier == 1), c + b2n (tier == 2), d + b2n (tier == 3))
      | .poison _ => .inr (0x22, t.dirBase + 32 * b)
      | .bad => .inr (stTranslation, t.dirBase + 32 * b)) (.inl (0, 0, 0))

def cmdTableQuery : CmdDef where
  op := 0x22
  fields := [(8, 0, 20)]
  buf := fun _ => .output 256
  run := fun _ e s =>
    match tableOf (namedTable e) s with
    | none => noTable e s
    | some t =>
      match countBlocks t s with
      | .inr (st, va) => (.fail st (if st = stTranslation then 0x0008 else 0) (BitVec.ofNat 64 va), s)
      | .inl (a, c, d) =>
        (okEnd a d, writeBuf e (toBytes 128 t.pack ++ toBytes 8 0 ++ toBytes 8 a ++ toBytes 8 c ++ toBytes 8 d
          ++ List.replicate 96 0) s)

/-! ### Space for copies (R206, R211) -/

/-- Bytes a copied row takes. -/
def copyBytes (id : Nat) (s : State) : Nat :=
  match tableOf id s with
  | some t => roundUp t.stride 32
  | none => 0

/-- Swatch bytes of a tile that hot sets and replicas use, hot set `but` left out. -/
def swatchUsed (tile : Nat) (but : Option Nat) (s : State) : Nat :=
  ((s.tbl.hotSets.filter (fun h => h.2.tiles.getLsbD tile && some h.1 != but)).map
      (fun h => h.2.rows.length * copyBytes h.2.table.toNat s)).sum
    + ((s.tbl.replicas.filter (fun r => r.tiles.getLsbD tile)).map (fun r => r.count * copyBytes r.table.toNat s)).sum

/-- Bytes of a stack's replica area in use. -/
def areaUsed (k : Nat) (s : State) : Nat :=
  ((s.tbl.replicas.filter (fun r => r.stackSet.getLsbD k)).map (fun r => r.count * copyBytes r.table.toNat s)).sum

/-- The size of a tile's Swatch and of a stack's replica area. -/
def copySpace : Nat := 2 ^ 24

/-! ### Loading copies -/

/-- How loading a list of copies goes on. -/
inductive LoadEnd where
  | loaded
  | waits (why : Stall)
  | fault (status va : Nat)
deriving DecidableEq, Repr

/-- Read the rows that are not loaded yet, in order, up to the first that waits or fails. A copy not loaded yet is stale. -/
def loadCopies (cls : Fin 4) (t : Table) : List RowCopy → State → (List RowCopy × LoadEnd) × State
  | [], s => (([], .loaded), s)
  | c :: cs, s =>
    if !c.data.isEmpty then
      let ((rs, x), s) := loadCopies cls t cs s
      ((c :: rs, x), s)
    else
      let slot := (t.slot c.row).getD 0
      let va := t.slotVa slot
      match xRead (convertWho cls) t.tag.toNat va t.rowBytes .read s with
      | (.data bs, s) =>
        let ((rs, x), s) := loadCopies cls t cs s
        ((⟨c.row, bs, (primaryVersion t slot s).getD 0, false⟩ :: rs, x), s)
      | (.stall w, s) => ((c :: cs, .waits w), s)
      | (.wait, s) => ((c :: cs, .waits .none), s)
      | (.fault st, s) => ((c :: cs, .fault st va), s)
      | (_, s) => ((c :: cs, .fault stTranslation va), s)

/-- The class of the queue pair whose command runs. -/
def cmdClass (n : Fin 64) (s : State) : Fin 4 := (s.mb.qps[n]).cls

/-- This device owns a row and holds it (R198, R434). -/
def ownsRow (id : Nat) (t : Table) (row : Nat) (s : State) : Bool := (t.slot row).isSome && ownerOf id row s == ownDev s

/-! ### HOTSET_LOAD, HOTSET_REFRESH and HOTSET_DROP (R179, R210–R212) -/

/-- The hot-set id of a command. -/
def namedHotSet (e : Entry) : Nat := efld e 12 2

/-- The tiles a mask names: 0 for every usable tile (R179, R182). -/
def maskTiles (m : Nat) (s : State) : BitVec 16 := if m = 0 then s.ram.tiles else BitVec.ofNat 16 m &&& s.ram.tiles

/-- The index words of a buffer. -/
def indexWords : (n : Nat) → List Byte → List W64
  | 0, _ => []
  | n + 1, bs => BitVec.ofNat 64 (ofBytes (bs.take 8)) :: indexWords n (bs.drop 8)

/-- A HOTSET_LOAD that has taken effect goes on: it completes once every row is copied (R179). -/
def hotLoadOn (n : Fin 64) (e : Entry) (s : State) : CmdEnd × State :=
  let h := namedHotSet e
  match kvGet s.tbl.hotSets h, tableOf (namedTable e) s with
  | some x, some t =>
    let ((rows, r), s) := loadCopies (cmdClass n s) t x.rows s
    let s := modTbl (fun u => { u with hotSets := kvMod u.hotSets h (fun y => { y with rows := rows }) }) s
    match r with
    | .loaded => (okEnd (rows.length * copyBytes (namedTable e) s) 0, s)
    | .waits w => (.works, modCmd n (Entry.cid e) (fun c => { c with stall := w }) s)
    | .fault st va => (.fail st 0 (BitVec.ofNat 64 va), dropHotSet h s)
  | _, _ => (failEnd stState 0, s)

def cmdHotsetLoad : CmdDef where
  op := 0x23
  fields := [(8, 0, 20), (12, 0, 16), (14, 0, 16), (16, 0, 32)]
  buf := fun e => .input (8 * efld e 16 4)
  run := fun n e s => readBuf n e (8 * efld e 16 4) s fun bs s =>
    let id := namedTable e
    let h := namedHotSet e
    match tableOf id s with
    | none => noTable e s
    | some t =>
      let xs := indexWords (efld e 16 4) bs
      let tiles := maskTiles (efld e 14 2) s
      let size := xs.length * roundUp t.stride 32
      match xs.find? (fun x => (t.rowOf x).isNone) with
      | some x => (.fail 0x23 0 x, s)
      | none =>
        let rows := xs.filterMap t.rowOf
        if rows.any (fun r => !ownsRow id t r s) then (failEnd stState 0, s)
        else if (kvGet s.tbl.hotSets h).isNone && decide (1024 ≤ s.tbl.hotSets.length) then (failEnd stCapacity resHotSets, s)
        else if (tilesOf tiles).any (fun k => decide (copySpace < swatchUsed k (some h) s + size)) then (failEnd stPolicy 0x0003, s)
        else
          let x : HotSet := ⟨BitVec.ofNat 20 id, tiles, rows.map (fun r => ⟨r, [], 0, true⟩)⟩
          hotLoadOn n e (modTbl (fun u => { u with hotSets := kvSet u.hotSets h x }) s)

def cmdHotsetRefresh : CmdDef where
  op := 0x24
  fields := [(12, 0, 16)]
  mark := .per
  run := fun n e s =>
    let h := namedHotSet e
    if (kvGet s.tbl.hotSets h).isNone then (.fail stState 0 (BitVec.ofNat 64 h), s)
    else schedule [ownEntry n e 8 h] s

def cmdHotsetDrop : CmdDef where
  op := 0x25
  fields := [(12, 0, 16)]
  run := fun _ e s =>
    let h := namedHotSet e
    if (kvGet s.tbl.hotSets h).isNone then (.fail stState 0 (BitVec.ofNat 64 h), s)
    else (okEnd 0 0, dropHotSet h (dropRefreshes h h s))

/-- A refresh of a hot set rewrites what is old; rows whose block is on its way keep it under way (R212). -/
def refreshHot (s : State) (h : Nat) : State :=
  match kvGet s.tbl.hotSets h with
  | none => modTbl (fun x => { x with refreshing := x.refreshing.filter (· != h) }) s
  | some x =>
    let ((rows, _, w), s) := refreshRows 3 x.table.toNat x.rows s
    modTbl (fun u => { u with hotSets := kvMod u.hotSets h (fun y => { y with rows := rows }),
                              refreshing := u.refreshing.filter (· != h) ++ (if w then [h] else []) }) s

/-! ### REPLICA_SET and REPLICA_DROP (R172, R181, R206) -/

/-- The range a replica command names. -/
def repFirst (e : Entry) : Nat := efld e 16 8
def repCount (e : Entry) : Nat := efld e 24 4

/-- Ones of a number's low 24 bits. -/
def ones24 (x : Nat) : Nat := ((List.range 24).filter (fun i => x.testBit i)).length

/-- The index of the range of a table with this first row and count. -/
def findReplica (id first count : Nat) (s : State) : Option Nat :=
  s.tbl.replicas.findIdx? (fun r => r.table.toNat == id && r.first == first && r.count == count)

/-- A REPLICA_SET that has taken effect goes on. -/
def replicaOn (n : Fin 64) (e : Entry) (s : State) : CmdEnd × State :=
  let id := namedTable e
  match findReplica id (repFirst e) (repCount e) s, tableOf id s with
  | some i, some t =>
    match s.tbl.replicas[i]? with
    | none => (failEnd stState 0, s)
    | some r =>
      let ((rows, x), s) := loadCopies (cmdClass n s) t r.rows s
      let s := modTbl (fun u => { u with replicas := u.replicas.set i { r with rows := rows } }) s
      match x with
      | .loaded => (okEnd 0 0, s)
      | .waits w => (.works, modCmd n (Entry.cid e) (fun c => { c with stall := w }) s)
      | .fault st va => (.fail st 0 (BitVec.ofNat 64 va), modTbl (fun u => { u with replicas := u.replicas.eraseIdx i }) s)
  | _, _ => (failEnd stState 0, s)

/-- The resource a REPLICA_SET lacks, if any (R206). -/
def replicaLack (id count : Nat) (tiles : BitVec 16) (stackSet : BitVec 8) (s : State) : Option Nat :=
  let size := count * copyBytes id s
  if (tilesOf tiles).any (fun k => decide (copySpace < swatchUsed k none s + size)) then some resSwatch
  else if (stacksOf stackSet).any (fun k => decide (copySpace < areaUsed k s + size)) then some resReplicaHbm
  else if 64 ≤ s.tbl.replicas.length then some resReplicas
  else none

def cmdReplicaSet : CmdDef where
  op := 0x28
  fields := [(8, 0, 20), (16, 0, 64), (24, 0, 32), (28, 0, 16), (30, 0, 8)]
  needs := fun _ => [10]
  checks := fun e => [(28, decide (1 ≤ ones24 (efld e 28 3) ∧ ones24 (efld e 28 3) ≤ 16))]
  run := fun n e s =>
    let id := namedTable e
    match tableOf id s with
    | none => noTable e s
    | some t =>
      let rows := (List.range (repCount e)).map (fun i => repFirst e + i)
      let tiles := BitVec.ofNat 16 (efld e 28 2) &&& s.ram.tiles
      let stackSet := BitVec.ofNat 8 (efld e 30 1) &&& s.ram.stackSet
      if rows.any (fun r => !ownsRow id t r s)
          || s.tbl.replicas.any (fun r => r.table.toNat == id && overlaps r.first r.count (repFirst e) (repCount e)) then
        (failEnd stState 0, s)
      else match replicaLack id (repCount e) tiles stackSet s with
      | some res => (failEnd stCapacity res, s)
      | none =>
        let r : Replica := ⟨BitVec.ofNat 20 id, repFirst e, repCount e, tiles, stackSet, rows.map (fun x => ⟨x, [], 0, true⟩)⟩
        replicaOn n e (modTbl (fun u => { u with replicas := u.replicas ++ [r] }) s)

def cmdReplicaDrop : CmdDef where
  op := 0x29
  fields := [(8, 0, 20), (16, 0, 64), (24, 0, 32)]
  needs := fun _ => [10]
  run := fun _ e s =>
    let id := namedTable e
    match tableOf id s with
    | none => noTable e s
    | some _ =>
      match findReplica id (repFirst e) (repCount e) s with
      | none => (failEnd stState 0, s)
      | some i => (okEnd 0 0, modTbl (fun u => { u with replicas := u.replicas.eraseIdx i }) s)

end Sys2Proof.Machine
end

