-- ==== Sys2Proof/Machine/TierCommands.lean ====
section
/-! DEFINITION. PREFETCH, ADVISE and DRIVE_UNFENCE (08_command_catalogue.md R180, 10_residency_and_flash_tail.md R231–R234). -/

namespace Sys2Proof.Machine

open Sys2Proof

/-! ### The range of a command (R232) -/

/-- What the 64 KiB at `va` are to PREFETCH and ADVISE: a plain page, a block, or a page that ends the command with a status. -/
inductive RangePart where
  | plain
  | block (id b : Nat)
  | bad (status : Nat)
deriving DecidableEq, Repr

def rangePart (tag va : Nat) (s : State) : RangePart :=
  if 2 ^ 52 ≤ va then .bad stTranslation
  else match lookup tag va s with
  | some (.leaf _ _ e) =>
    if leafKind e = 0 then .plain
    else if leafKind e = 2 then
      match tableOf (leafTable e) s with
      | none => .bad stTranslation
      | some t =>
        if t.shardKind = 0 ∨ t.tag.toNat ≠ tag ∨ va < t.vbase ∨ t.vbase + t.blocks * 65536 ≤ va then .bad stTranslation
        else .block (leafTable e) ((va - t.vbase) / 65536)
    else .bad stTranslation
  | some (.poison _) => .bad 0x22
  | _ => .bad stTranslation

/-- The 64 KiB pieces of the range of a PREFETCH or ADVISE. -/
def rangeVas (e : Entry) : List Nat := (List.range (efld e 24 8 / 65536)).map (fun i => efld e 16 8 + 65536 * i)

/-- The first piece that ends the command: its address and status. -/
def rangeBad (e : Entry) (s : State) : Option (Nat × Nat) :=
  (rangeVas e).findSome? (fun va => match rangePart (Entry.tag e) va s with
    | .bad st => some (va, st)
    | _ => none)

/-- The blocks of the range in ascending order: address, table, block. -/
def rangeBlocks (e : Entry) (s : State) : List (Nat × Nat × Nat) :=
  (rangeVas e).filterMap (fun va => match rangePart (Entry.tag e) va s with
    | .block id b => some (va, id, b)
    | _ => none)

/-- The SUBCODE of a fault at the virtual base: its offset for a translation fault (R161). -/
def baseSub (status : Nat) : Nat := if status = stTranslation then 0x0010 else 0

/-- The end of a command whose range does not translate. -/
def rangeFault (va status : Nat) (s : State) : CmdEnd × State :=
  (.done status (baseSub status) 0 (BitVec.ofNat 64 va), s)

/-- Base and length are multiples of 64 KiB (R232). -/
def rangeChecks (e : Entry) : List (Nat × Bool) := [(16, efld e 16 8 % 65536 == 0), (24, efld e 24 8 % 65536 == 0)]

/-! ### PREFETCH (R180, R233) -/

/-- How the move of one block goes on. -/
inductive MoveEnd where
  | moved
  | waits (why : Stall)
  | fault (status sub : Nat)
deriving DecidableEq, Repr

/-- Fault a block in for PREFETCH, HOT01 left as it is. -/
def fetchBlock (id b : Nat) (cls : Fin 4) (hot : Bool) (s : State) : MoveEnd × State :=
  match touchAway id b cls.val false s with
  | (.wait, s) => (.waits (.block id b), blockMod id b (fun d => { d with hot := hot }) s)
  | (.fail st, s) => (.fault st (baseSub st), blockMod id b (fun d => { d with hot := hot }) s)

/-- Bring one block to its tier (R233). -/
def moveToTier (tier id b : Nat) (cls : Fin 4) (s : State) : MoveEnd × State :=
  match blockDir id b s with
  | none => (.fault stTranslation 0x0010, s)
  | some d =>
    if tier = 1 then
      if d.loc = 1 then (.moved, s) else fetchBlock id b cls d.hot s
    else
      let slot := if tier = 2 then d.t2valid else d.t3valid && (s.res.drives[d.t3port]).usable
      if !slot || d.home == 1 then (.fault stTranslation 0x0008, s)
      else if d.busy then (.waits .none, s)
      else if d.loc = 0 then (.moved, blockMod id b (fun d => { d with home := tier }) s)
      else if d.loc = tier then (.moved, s)
      else if d.loc = 1 then
        if framePoisoned d.frame s then
          if d.dirty then (.fault 0x22 0, s) else (.waits .none, blockLeave id b s)
        else (.waits .none, wbStart id b tier true s)
      else fetchBlock id b cls d.hot s

/-- A PREFETCH that has taken effect goes on; `left` counts the blocks moved (R170, R233). -/
def prefetchOn (n : Fin 64) (e : Entry) : (fuel : Nat) → State → CmdEnd × State
  | 0, s => (.works, s)
  | fuel + 1, s =>
    match findCmd n (Entry.cid e) s with
    | none => (.works, s)
    | some c =>
      match (rangeBlocks e s)[c.left]? with
      | none => (okEnd c.left 0, s)
      | some (va, id, b) =>
        let fail (st sub : Nat) (s : State) : CmdEnd × State := (.done st sub (BitVec.ofNat 64 c.left) (BitVec.ofNat 64 va), s)
        match c.stall with
        | .failed st => fail st (baseSub st) s
        | _ =>
          match moveToTier (efld e 8 1) id b (cmdClass n s) s with
          | (.moved, s) => prefetchOn n e fuel (modCmd n (Entry.cid e) (fun c => { c with left := c.left + 1, stall := .none }) s)
          | (.waits w, s) => (.works, modCmd n (Entry.cid e) (fun c => { c with stall := w }) s)
          | (.fault st sub, s) => fail st sub s

/-- PREFETCH takes effect: the whole range is translated first (R232). -/
def prefetchStart (n : Fin 64) (e : Entry) (s : State) : CmdEnd × State :=
  match rangeBad e s with
  | some (va, st) => rangeFault va st s
  | none => prefetchOn n e (2 * (efld e 24 8 / 65536) + 2) s

def cmdPrefetch : CmdDef where
  op := 0x26
  tag := true
  fields := [(8, 0, 8), (16, 0, 64), (24, 0, 64)]
  mark := .opt
  needs := fun e => if efld e 8 1 = 3 then [3] else []
  checks := fun e => (8, decide (1 ≤ efld e 8 1 ∧ efld e 8 1 ≤ 3)) :: rangeChecks e
  run := fun n e s => if Entry.marked e then schedule [ownEntry n e 8 0] s else prefetchStart n e s

/-! ### ADVISE (R180, R234) -/

/-- HINT and VALUE are assigned (R180). -/
def adviseValueOk (e : Entry) : Bool :=
  let v := efld e 9 1
  match efld e 8 1 with
  | 0 => v == 1 || v == 2 || v == 3 || v == 6
  | _ => decide (v ≤ 1)

/-- Set HINT 0 on an entry: the entry after it and whether it is counted (R234). -/
def adviseTier (v : Nat) (s : State) (d : DirEntry) : DirEntry × Bool :=
  if v = 1 then ({ d with pref := 1 }, true)
  else if v = 3 then (if d.t3valid && !(s.res.drives[d.t3port]).fenced then ({ d with pref := 3 }, true) else ({ d with pref := 0 }, false))
  else if d.t2valid then ({ d with pref := 2, t2cxl := v == 6 }, true)
  else ({ d with pref := 0 }, false)

/-- Change the entries of the range with `f`: how many it counts. -/
def adviseAll (f : DirEntry → DirEntry × Bool) (blocks : List (Nat × Nat × Nat)) (s : State) : Nat × State :=
  blocks.foldl (fun acc x =>
    match blockDir x.2.1 x.2.2 acc.2 with
    | none => acc
    | some d => (acc.1 + b2n (f d).2, blockMod x.2.1 x.2.2 (fun d => (f d).1) acc.2)) (0, s)

/-- Every block of every table with its entry. -/
def allBlocks (s : State) : List DirEntry :=
  s.tbl.tables.flatMap (fun t => (List.range t.2.blocks).filterMap (fun b => blockDir t.1 b s))

/-- Pinned blocks and HOME-1 blocks (R234). -/
def pinnedBlocks (s : State) : Nat := ((allBlocks s).filter (fun d => d.pin || d.home == 1)).length

/-- Accessed-by sets that a block names (R234). -/
def liveAbsets (s : State) : List (Nat × BitVec 512) :=
  s.res.absets.filter (fun a => (allBlocks s).any (fun d => d.abset == a.1))

/-- Free the accessed-by sets that no block names. -/
def pruneAbsets (s : State) : State := modRes (fun r => { r with absets := liveAbsets s }) s

/-- ADVISE on the blocks of its range. -/
def adviseRun (e : Entry) (mask : BitVec 512) (s : State) : CmdEnd × State :=
  let v := efld e 9 1
  let bs := rangeBlocks e s
  match efld e 8 1 with
  | 0 =>
    let (k, s) := adviseAll (adviseTier v s) bs s
    (okEnd k 0, s)
  | 1 => let (k, s) := adviseAll (fun d => ({ d with readMostly := v == 1 }, true)) bs s; (okEnd k 0, s)
  | 2 =>
    if v = 0 then
      let (k, s) := adviseAll (fun d => ({ d with abset := 0 }, true)) bs s
      (okEnd k 0, pruneAbsets s)
    else
      match s.res.absets.find? (fun a => a.2 == mask) with
      | some a =>
        let (k, s) := adviseAll (fun d => ({ d with abset := a.1 }, true)) bs s
        (okEnd k 0, pruneAbsets s)
      | none =>
        match kvFree s.res.absets 1 63 with
        | none => (failEnd stCapacity resAbsets, s)
        | some i =>
          let s := modRes (fun r => { r with absets := kvSet r.absets i mask }) s
          let (k, s) := adviseAll (fun d => ({ d with abset := i }, true)) bs s
          (okEnd k 0, pruneAbsets s)
  | _ =>
    let new := (bs.filter (fun x => (blockDir x.2.1 x.2.2 s).any (fun d => !d.pin && d.home != 1))).length
    if v = 1 ∧ 7 * poolSize s < 8 * (pinnedBlocks s + new) then (failEnd stCapacity resFrames, s)
    else let (k, s) := adviseAll (fun d => ({ d with pin := v == 1 }, true)) bs s; (okEnd k 0, s)

def cmdAdvise : CmdDef where
  op := 0x27
  tag := true
  fields := [(8, 0, 8), (9, 0, 8), (16, 0, 64), (24, 0, 64)]
  buf := fun e => if efld e 8 1 = 2 then .input 64 else .none
  needs := fun e => if efld e 8 1 = 0 then (if efld e 9 1 = 3 then [3] else if efld e 9 1 = 6 then [4] else []) else []
  checks := fun e => [(8, decide (efld e 8 1 ≤ 3)), (9, adviseValueOk e)] ++ rangeChecks e
  run := fun n e s =>
    let go (mask : BitVec 512) (s : State) : CmdEnd × State :=
      match rangeBad e s with
      | some (va, st) => rangeFault va st s
      | none => adviseRun e mask s
    if efld e 8 1 = 2 then readBuf n e 64 s (fun bs s => go (BitVec.ofNat 512 (ofBytes bs)) s) else go 0 s

/-! ### DRIVE_UNFENCE (R231) -/

/-- The outstanding commands of a drive are abandoned (R113, R218, R223). -/
def abandonNvme (p : Fin 4) (s : State) : State :=
  let cs := (s.res.drives[p]).cmds
  let s := modDrive p (fun d => { d with cmds := [] }) s
  let s := cs.foldl (fun s c => nvmeFailed c.use 0x20 s) s
  (s.res.faultIns.filter (fun x => x.failed.isSome)).foldl (fun s x => faultInEnd x.table x.blk s) s

/-- Re-initialise NVMe port `p` with what the examination found (R113, R226, R231): true if the drive is usable. -/
def reinitDrive (p : Fin 4) (r : DriveReport) (s : State) : Bool × State :=
  let s := abandonNvme p s
  if r.failed = 0 ∧ r.fitted then (true, unfenceBlocks p (initDrive p r s))
  else (false, modDrive p (fun d => { d with fitted := r.fitted, nperst := !r.fitted, usable := false }) s)

def cmdDriveUnfence (r : DriveReport) : CmdDef where
  op := 0x2A
  fields := [(8, 0, 8)]
  needs := fun _ => [3]
  checks := fun e => [(8, decide (efld e 8 1 ≤ 3))]
  run := fun _ e s =>
    match reinitDrive (Fin.ofNat 4 (efld e 8 1)) r s with
    | (true, s) => (okEnd 0 0, s)
    | (false, s) => (failEnd stState 0, s)

end Sys2Proof.Machine
end

