-- ==== Sys2Proof/Machine/Launch.lean ====
section
/-! DEFINITION. Patterns, launches and tile resets (08_command_catalogue.md R182, 13_threads.md R278–R282, 05 R103, R112). -/

namespace Sys2Proof.Machine

open Sys2Proof

/-- Change the thread unit, and the tiles. -/
def modTh (f : ThreadUnit → ThreadUnit) (s : State) : State := { s with th := f s.th }
def modTl (f : TileUnit → TileUnit) (s : State) : State := { s with tl := f s.tl }

/-! ### PATTERN_LOAD and PATTERN_UNLOAD (R182) -/

def cmdPatternLoad : CmdDef where
  op := 0x30
  fields := [(8, 0, 8), (12, 0, 32)]
  buf := fun e => .input (efld e 12 4)
  needs := fun e => if efld e 8 1 = 1 then [13] else []
  checks := fun e => [(8, decide (efld e 8 1 ≤ 1)),
    (12, decide (2 ≤ efld e 12 4 ∧ efld e 12 4 ≤ 1048576) && efld e 12 4 % 2 == 0)]
  run := fun n e s => readBuf n e (efld e 12 4) s fun bs s =>
    match kvFree s.th.patterns 0 256 with
    | none => (failEnd stPolicy 0x0004, s)
    | some h => (okEnd h 0, modTh (fun x => { x with patterns := kvSet x.patterns h ⟨efld e 8 1 == 1, bs⟩ }) s)

/-- The handle of a pattern command. -/
def namedPattern (e : Entry) : Nat := efld e 8 2

def cmdPatternUnload : CmdDef where
  op := 0x31
  fields := [(8, 0, 16)]
  run := fun _ e s =>
    let h := namedPattern e
    if (patternOf h s).isNone || s.th.launches.any (fun l => l.pattern == h) then (failEnd stState 0, s)
    else (okEnd 0 0, modTh (fun x => { x with patterns := kvErase x.patterns h }) s)

/-! ### LAUNCH (R278, R279) -/

/-- Every byte of the launch block translates to a present page with R and W (R279). -/
def blockTranslates (tag block : Nat) (s : State) : Bool :=
  block % 64 == 0 && (accessPieces block 256).all (fun p =>
    let ok (acc : Access) : Bool := match resolve tag p.1 acc s with
      | .t1 _ _ => true
      | .host _ => true
      | .away _ _ => true
      | _ => false
    ok .read && ok .write)

/-- The bits of bytes 0–191 of the launch block that are not reserved outside the templates of SG1–SG6 (R278). -/
def blockMask : Nat := maskAt 0 1024 + maskAt 1024 64 + maskAt 1088 52 + maskAt 1152 32

/-- Template `k` of the launch block. -/
def template (b k : Nat) : Nat × Nat := (bytesAt b (16 * k) 8, bytesAt b (16 * k + 8) 8)

/-- The lowest offset in the launch block of a field found at fault (R279, R302). -/
def blockFault (b count : Nat) : Option Nat :=
  let segs := [1, 2, 3, 4, 5, 6].filterMap (fun k => (segFault (template b k).1 (template b k).2).map (fun o => 16 * k + o))
  let rsv := (reservedByte b blockMask 192).toList
  let base := if bits b 1088 52 % 4096 ≠ 0 then [136] else []
  let size := bytesAt b 144 4
  let bytes := if size < 256 ∨ 1048576 < size ∨ size % 256 ≠ 0 then [144] else []
  let all := segs ++ rsv ++ base ++ bytes
  match all with
  | [] => if 2 ^ 52 ≤ bits b 1088 52 + count * size then some 0x88 else none
  | o :: os => some (os.foldl min o)

/-- Contexts of the mask's usable tiles that are in use, over all classes. -/
def maskUsed (tiles : BitVec 16) (s : State) : Nat := ((tilesOf tiles).map (fun t => contextsUsed t s)).sum

/-- The launch a checked command starts (R278, R280). -/
def newLaunch (n : Fin 64) (e : Entry) (p : Pattern) (tiles : BitVec 16) (b : Nat) (s : State) : Launch :=
  { id := s.th.nextLaunch, qp := n.val, cid := Entry.cid e, pattern := namedPattern e, plain := p.plain, cls := cmdClass n s,
    tag := BitVec.ofNat 12 (Entry.tag e), mask := tiles, count := efld e 12 4, block := efld e 16 8,
    segs := Vector.ofFn (fun k => Seg.ofWords (template b k.val).1 (template b k.val).2),
    userArg := BitVec.ofNat 64 (bytesAt b 128 8), stackBase := bits b 1088 52, stackBytes := bytesAt b 144 4, next := 0,
    endedOk := 0, endedFault := 0, first := none, waitSum := 0, lost := 0 }

/-- The rest of LAUNCH once bytes 0–191 of the block have been read. -/
def launchRead (n : Fin 64) (e : Entry) (b : Nat) (s : State) : CmdEnd × State :=
  let tiles := maskTiles (efld e 24 2) s
  match blockFault b (efld e 12 4), patternOf (namedPattern e) s with
  | some o, _ => (failEnd stMalformed (0x8000 + o), s)
  | none, none => (failEnd stState 0, s)
  | none, some p =>
    if tiles = 0 then (failEnd stState 0, s)
    else if cmdClass n s = 2 ∧ 3 * 512 * (tilesOf tiles).length < 4 * maskUsed tiles s then (failEnd stCapacity resContexts, s)
    else
      (.waits resContexts, modTh (fun x => { x with launches := x.launches ++ [newLaunch n e p tiles b s],
                                                    nextLaunch := x.nextLaunch + 1 }) s)

/-- LAUNCH begins: the block is translated and read (R279); a block on its way into tier T1 lets it wait. -/
def launchOn (n : Fin 64) (e : Entry) (s : State) : CmdEnd × State :=
  let tag := Entry.tag e
  let a := efld e 16 8
  if !blockTranslates tag a s then (.fail stTranslation 0x0010 (BitVec.ofNat 64 a), s)
  else
    let who : Accessor := ⟨0, 16, (cmdClass n s).val, false, a⟩
    match xRead who tag a 192 .read s with
    | (.data bs, s) => launchRead n e (ofBytes bs) s
    | (.stall w, s) => (.works, modCmd n (Entry.cid e) (fun c => { c with stall := w }) s)
    | (.wait, s) => (.works, s)
    | (.fault st, s) => (.fail st (baseSub st) (BitVec.ofNat 64 a), s)
    | (.suppressed, s) => (failEnd stTranslation 0x0010, s)

def cmdLaunch : CmdDef where
  op := 0x32
  tag := true
  fields := [(8, 0, 16), (12, 0, 32), (16, 0, 64), (24, 0, 16)]
  checks := fun e => [(12, decide (1 ≤ efld e 12 4 ∧ efld e 12 4 ≤ 2 ^ 24))]
  run := launchOn

/-! ### Tile reset (R103, R112) -/

/-- Drain the tile's Purl: local updates go into the adders, remote ones to the retransmit store (R100, R112). An update that
stalls keeps its slot. -/
def drainPurl (tile : Nat) (s : State) : State :=
  let us := s.pu.slots.filter (fun u => u.tile == tile)
  storeSlots (us.foldl (fun s u => if u.dest = ownDev s then applyLocal { u with stall := .none }
    (modSlot u (fun x => { x with stall := .none }) s) else s) s)

/-- The threads of a tile end and their contexts are freed; each launch counts what it lost (R103). -/
def endThreads (tile : Nat) (s : State) : Nat × State :=
  let ts := s.th.threads.filter (fun t => keyTile t.1 == tile)
  let live := ts.filter (fun t => t.2.hold != .ended)
  let s := modTh (fun x => { x with
    threads := x.threads.filter (fun t => keyTile t.1 != tile),
    copies := x.copies.filter (fun c => keyTile c.thread != tile),
    claims := x.claims.filter (fun c => keyTile c.thread != tile) }) s
  let s := ts.foldl (fun s t =>
    modLaunch t.2.launch (fun l => if t.2.hold = .ended then l.account t.2 else { l with lost := l.lost + 1 }) s) s
  (live.length, s)

/-- Everything the tile holds is lost: Hook operations, held and retained, Matrix Unit work, staging, accumulators, streams,
Swatch copies (R99, R112, R413). -/
def clearTile (tile : Fin 16) (s : State) : State :=
  let bit : BitVec 16 := ~~~ (BitVec.twoPow 16 tile.val)
  let s := modTl (fun x => { x with
    hooks := x.hooks.filter (fun h => h.tile != tile), retained := x.retained.filter (fun h => h.tile != tile),
    mx := x.mx.filter (fun m => m.tile != tile), accs := x.accs.filter (fun a => a.1 / 2 ^ 18 != tile.val),
    staging := vset x.staging tile [], lfsr := vset x.lfsr tile (lfsrSeed tile.val),
    reqIssued := vset x.reqIssued tile 0, reqCommitted := vset x.reqCommitted tile 0 }) s
  let s := modPurl (fun p => { p with ops := p.ops.filter (fun o => o.tile != tile) }) s
  let s := modTx (fun x => { x with streams := x.streams.filter (fun y => y.tile != tile) }) s
  modTbl (fun x => { x with
    hotSets := x.hotSets.map (fun h => (h.1, { h.2 with tiles := h.2.tiles &&& bit })),
    replicas := x.replicas.map (fun r => { r with tiles := r.tiles &&& bit }) }) s

/-- A reset of one tile: how many threads it ended, and the state (R112). -/
def tileReset (tile : Fin 16) (s : State) : Nat × State :=
  let s := drainPurl tile.val s
  let (k, s) := endThreads tile.val s
  let s := sqFlushIds (sqTileIds tile.val) (clearTile tile s)
  (k, pruneFaults (dropHeld s))

def cmdTileReset : CmdDef where
  op := 0x39
  fields := [(8, 0, 8)]
  checks := fun e => [(8, decide (efld e 8 1 ≤ 15))]
  run := fun _ e s =>
    let t := Fin.ofNat 16 (efld e 8 1)
    if !s.ram.tiles.getLsbD t.val then (failEnd stState 0, s)
    else let (k, s) := tileReset t s; (okEnd k 0, s)

end Sys2Proof.Machine
end

