-- ==== Sys2Proof/Machine/StepCommands.lean ====
section
/-! DEFINITION. Step and speculation commands (08_command_catalogue.md R183–R186, R563) and their events at marks (R167). -/

namespace Sys2Proof.Machine

open Sys2Proof

/-- The step a command names. -/
def namedStep (e : Entry) : Nat := efld e 8 6

/-- The second mark of a command: deadline or flip, in bytes 16–25. -/
def secondBeat (e : Entry) : Nat := efld e 16 8
def secondPhase (e : Entry) : Nat := efld e 24 2
def secondPoint (e : Entry) : Nat := secondBeat e * 65536 + secondPhase e

/-- The TAG of a step's schedule entries. -/
def stepTag (e : Entry) : Nat := namedStep e % 65536

/-- The schedule entry of the second mark (R183). -/
def secondEntry (n : Fin 64) (e : Entry) (kind : Nat) (lock : Bool) : SchedEntry :=
  ⟨BitVec.ofNat 64 (secondBeat e), BitVec.ofNat 16 (secondPhase e), kind, lock, false, 0, BitVec.ofNat 16 (stepTag e),
    some (n.val, Entry.cid e), false, e⟩

/-- The point at which the command takes effect at the earliest: its mark, or its fetch (R183). -/
def effectPoint (n : Fin 64) (e : Entry) (s : State) : Nat :=
  if Entry.marked e then Entry.point e else match findCmd n (Entry.cid e) s with
    | some c => c.fetched
    | none => nowPoint s

/-- An earlier command of this kind for the same step has not completed (R185). -/
def stepPending (n : Fin 64) (e : Entry) (s : State) : Bool :=
  (List.finRange 64).any (fun m => (s.mb.qps[m]).cmds.any (fun c =>
    c.begun && Entry.opcode c.entry == Entry.opcode e && namedStep c.entry == namedStep e
      && !(m == n && Entry.cid c.entry == Entry.cid e)))

/-- The step is neither live nor past: it may still open (R563). -/
def stepFuture (k : Nat) (s : State) : Bool :=
  (stepOf k s).isNone && (match s.stp.last with
    | some l => decide (l < k)
    | none => true)

/-- A step in one of the phases `ok` accepts, or still to open (R563). -/
def stepReachable (k : Nat) (ok : StepPhase → Bool) (s : State) : Bool :=
  match stepOf k s with
  | some st => ok st.phase
  | none => stepFuture k s

/-- The schedule entries a command still owns belong to nothing that waits: its object keeps them. -/
def disown (n : Fin 64) (cid : Nat) (s : State) : State :=
  { s with gg := { s.gg with sched := s.gg.sched.map (fun x =>
    if x.2.owner = some (n.val, cid) then (x.1, { x.2 with owner := none }) else x) } }

/-! ### STEP_OPEN (R16, R183) -/

def cmdDlValid (e : Entry) : Bool := e.getLsbD (8 * 26)

/-- The refusal of a STEP_OPEN: RESULT0 gives the number expected where the number is out of order (R16). -/
def openRefusal (k : Nat) (s : State) : CmdEnd :=
  match expectedStep s with
  | some x => .fail stState 0 (if x = k ∨ 2 ^ 48 ≤ x then 0 else BitVec.ofNat 64 x)
  | none => failEnd stState 0

/-- The open takes effect: the deadline entry stays with the step. -/
def openEffect (n : Fin 64) (e : Entry) (s : State) : CmdEnd × State :=
  if !openOk (namedStep e) s then (openRefusal (namedStep e) s, s)
  else (okEnd 0 0, disown n (Entry.cid e) (openStep (namedStep e) s))

def cmdStepOpen : CmdDef where
  op := 0x33
  fields := [(8, 0, 48), (16, 0, 64), (24, 0, 16), (26, 0, 2)]
  mark := .opt
  timing := fun n e s => [(16, !(cmdDlValid e && decide (secondPoint e ≤ effectPoint n e s)))]
  run := fun n e s =>
    let k := namedStep e
    let dl := if cmdDlValid e then [secondEntry n e 3 (e.getLsbD (8 * 26 + 1))] else []
    if stepPending n e s then (failEnd stState 0, s)
    else if Entry.marked e then
      if s.stp.last.any (fun l => decide (k ≤ l)) then (openRefusal k s, s)
      else schedule (ownEntry n e 6 (stepTag e) :: dl) s
    else if !openOk k s then (openRefusal k s, s)
    else match schedRefusal dl s with
    | some (st, sub) => if dl.isEmpty then openEffect n e s else (failEnd st sub, s)
    | none => openEffect n e (dl.foldl schedPut s)

/-! ### STEP_CONFIRM (R23, R184) -/

/-- The confirm a command asks for. -/
def confirmOf' (n : Fin 64) (e : Entry) (late : Bool) : HeldConfirm :=
  ⟨namedStep e, e.getLsbD (8 * 14), (n.val, Entry.cid e), late⟩

def cmdStepConfirm : CmdDef where
  op := 0x34
  fields := [(8, 0, 48), (14, 0, 1)]
  mark := .opt
  needs := fun e => if e.getLsbD (8 * 14) then [1] else []
  run := fun n e s =>
    if stepPending n e s then (failEnd stState 0, s)
    else if Entry.marked e then
      if stepReachable (namedStep e) (fun p => p == .opened) s then schedule [ownEntry n e 1 (stepTag e)] s
      else (failEnd stState 0, s)
    else (.marked, confirmDue (confirmOf' n e false) s)

/-! ### STEP_CLOSE (R183, R391) -/

def cmdFlipValid (e : Entry) : Bool := e.getLsbD (8 * 26)

/-- The close takes effect. -/
def closeEffect (n : Fin 64) (e : Entry) (s : State) : CmdEnd × State :=
  if !closeOk (namedStep e) s then (failEnd stState 0, s)
  else (.works, closeStart (namedStep e) (n.val, Entry.cid e) s)

def cmdStepClose : CmdDef where
  op := 0x35
  fields := [(8, 0, 48), (16, 0, 64), (24, 0, 16), (26, 0, 2)]
  mark := .opt
  timing := fun n e s => [(16, !(cmdFlipValid e && decide (secondPoint e < effectPoint n e s)))]
  run := fun n e s =>
    let flip := if cmdFlipValid e then [secondEntry n e 5 (e.getLsbD (8 * 26 + 1))] else []
    if stepPending n e s then (failEnd stState 0, s)
    else if Entry.marked e then
      if stepReachable (namedStep e) (fun p => p == .opened || p == .confirm) s then
        schedule (ownEntry n e 4 (stepTag e) :: flip) s
      else (failEnd stState 0, s)
    else if !closeOk (namedStep e) s then (failEnd stState 0, s)
    else match schedRefusal flip s with
    | some (st, sub) => if flip.isEmpty then closeEffect n e s else (failEnd st sub, s)
    | none => closeEffect n e (flip.foldl schedPut s)

/-! ### SPEC_OPEN and SPEC_ABANDON (R183, R361, R376) -/

/-- The window's deadline lies after its own mark and not after the step's confirm deadline (R22, R183). -/
def windowMarksOk (e : Entry) (s : State) : Bool :=
  decide (Entry.point e < secondPoint e)
    && s.gg.sched.all (fun x => !(x.2.kind == 3 && namedStep x.2.cmd == namedStep e)
      || decide (secondPoint e ≤ x.2.beat.toNat * 65536 + x.2.phase.toNat))

/-- The window opens: its deadline entry stays with it. -/
def specOpenEffect (n : Fin 64) (e : Entry) (s : State) : CmdEnd × State :=
  if !windowOk (namedStep e) s then (failEnd stState 0, s)
  else (okEnd 0 0, disown n (Entry.cid e) (openWindow (namedStep e) s))

def cmdSpecOpen : CmdDef where
  op := 0x36
  fields := [(8, 0, 48), (16, 0, 64), (24, 0, 16), (26, 0, 1)]
  mark := .req
  needs := fun _ => [1]
  timing := fun _ e s => [(16, !Entry.marked e || windowMarksOk e s)]
  run := fun n e s =>
    if stepPending n e s || !stepReachable (namedStep e) (fun p => p == .opened) s then (failEnd stState 0, s)
    else schedule [ownEntry n e 7 (stepTag e), secondEntry n e 2 (e.getLsbD (8 * 26))] s

def cmdSpecAbandon : CmdDef where
  op := 0x37
  fields := [(8, 0, 48)]
  needs := fun _ => [1]
  run := fun _ e s =>
    if !windowOpen (namedStep e) s then (failEnd stState 0, s)
    else let (k, s) := abandonWindow s; (okEnd k 0, s)

/-! ### STEP_QUERY (R186) -/

/-- The phase code of a step. -/
def StepPhase.code : StepPhase → Nat
  | .opened => 1 | .confirm => 2 | .closing _ => 3

/-- Its close stage. -/
def StepPhase.stage : StepPhase → Nat
  | .closing k => k
  | _ => 0

/-- Held-packet occupancy: the row buffers of the window's operations for packets, accumulators and fetched rows (R366). -/
def packetsHeld (s : State) : Nat :=
  ((s.tl.hooks.filter (·.spec)).map (fun x => x.packetBufs + x.accBufs s + (x.fetched.map fetchedBufs).sum)).sum

/-- The STEP_QUERY buffer. -/
def stepPage (s : State) : List Byte :=
  let step (x : Option Step) : Nat × Nat × Nat := match x with
    | some y => (y.num, y.phase.code, y.phase.stage)
    | none => (0, 0, 0)
  let (n1, p1, k1) := step s.stp.live[0]?
  let (n2, p2, _) := step s.stp.live[1]?
  let pend := s.gg.sched.any (fun x => x.2.kind == 7)
  let w := s.stp.window.getD ⟨0, .closed, 0, 0, 0, 0, 0, 0⟩
  toBytes 6 n1 ++ [BitVec.ofNat 8 p1, BitVec.ofNat 8 k1] ++ toBytes 6 n2
    ++ [BitVec.ofNat 8 p2, BitVec.ofNat 8 (b2n (w.state == .opened) + 2 * b2n pend + 4 * b2n s.stp.lastAbandoned.isSome)]
    ++ toBytes 8 w.issued ++ toBytes 8 w.held ++ toBytes 8 w.reread ++ toBytes 8 w.suppressed ++ toBytes 4 (packetsHeld s)
    ++ List.replicate 12 0

def cmdStepQuery : CmdDef where
  op := 0x38
  buf := fun _ => .output 64
  run := fun _ e s => (okEnd 0 0, writeBuf e (stepPage s) s)

end Sys2Proof.Machine
end

