-- ==== Sys2Proof/Machine/FabricCommands.lean ====
section
/-! DEFINITION. The fabric commands FABRIC_ID, PORT_CONFIG, SHARDMAP_LOAD, PORT_RESET, PORT_UNFENCE and FABRIC_STATUS
(08_command_catalogue.md R187, R188; 20_henur_fabric.md R433, R439, R442; 05_cast_on_and_reset.md R113). -/

namespace Sys2Proof.Machine

open Sys2Proof

/-! ### FABRIC_ID (R187) -/

def cmdFabricId : CmdDef where
  op := 0x40
  fields := [(8, 0, 9)]
  run := fun _ e s =>
    if s.fab.ports.any (fun p => p.state == .joined) then (failEnd stState 0, s)
    else (okEnd 0 0, modFab (fun f => { f with id := some (efld e 8 2 % 512) }) s)

/-! ### PORT_CONFIG (R187, R429) -/

/-- The port a command names. -/
def namedPort (e : Entry) : Fin 9 := Fin.ofNat 9 (efld e 8 1)

/-- The command waits for the port's join, behind those that already do. -/
def waitJoin (p : Fin 9) (n : Fin 64) (e : Entry) (s : State) : CmdEnd × State :=
  (.works, modPort p (fun x => { x with waiters := x.waiters ++ [(n.val, Entry.cid e)] }) s)

/-- EN 0: the port is disabled, and commands that wait for its join fail; a fenced port stays fenced (R439). -/
def portDisable (p : Fin 9) (s : State) : State :=
  let off := modPort p (fun x => { x with enabled := false }) s
  answerWaiter p stState 0 (if (s.fab.ports[p]).state = .fenced then off else portResetBye p off)

/-- EN 1 on a port that has not joined: it trains, unless it is fenced. -/
def portEnable (p : Fin 9) (n : Fin 64) (e : Entry) (s : State) : CmdEnd × State :=
  match (s.fab.ports[p]).state with
  | .fenced => (.fail stState 0 (BitVec.ofNat 64 (s.fab.ports[p]).peer), s)
  | .training => waitJoin p n e s
  | _ => waitJoin p n e (modPort p (fun x => { x.cleared with state := .training }) s)

def cmdPortConfig : CmdDef where
  op := 0x41
  fields := [(8, 0, 8), (9, 0, 1), (10, 0, 16), (12, 0, 9)]
  checks := fun e => [(8, decide (efld e 8 1 ≤ 8))]
  run := fun n e s =>
    let p := namedPort e
    if !e.getLsbD (8 * 9) then (okEnd 0 0, portDisable p s)
    else if s.fab.id.isNone then (failEnd stState 0, s)
    else
      let want := if efld e 12 2 = 0x1FF then none else some (efld e 12 2)
      let lim := if efld e 10 2 = 0 then 64 else efld e 10 2
      let s := modPort p (fun x => { x with enabled := true, expected := want, violLimit := lim }) s
      let x := s.fab.ports[p]
      if x.state = .joined then
        if want.isSome ∧ want ≠ some x.peer then
          (.fail stState 0 (BitVec.ofNat 64 x.peer), modPort p (fun y => { y with state := .down }) (portResetBye p s))
        else (okEnd x.peer 0, s)
      else portEnable p n e s

/-! ### SHARDMAP_LOAD (R188, R433) -/

/-- A shard-directory entry from its 16 bytes. -/
def shardOf (bs : List Byte) : ShardEntry :=
  ⟨mfld bs 0 3 % 2 ^ 20, mfld bs 3 1 % 4, mfld bs 4 2 % 512, mfld bs 6 2 % 1024, mfld bs 8 6 % 2 ^ 41⟩

/-- The bits of an entry that its fields cover. -/
def shardMask : Nat := maskAt 0 20 + maskAt 24 2 + maskAt 32 9 + maskAt 48 10 + maskAt 64 41

/-- The first rule an entry breaks, as an offset in it; `earlier` are the entries of the load before it, newest first, and `rows`
gives the row count of a table that exists, at which its last range ends. -/
def shardFault (rows : Nat → Option Nat) (bs : List Byte) (earlier : List ShardEntry) : Option Nat :=
  let x := shardOf bs
  let mine := earlier.takeWhile (fun y => y.table == x.table)
  let split := mine.isEmpty && earlier.any (fun y => y.table == x.table)
  let modBad := if x.kind = 2 then decide (x.modulus < 2 ∨ 512 < x.modulus) || mine.any (fun y => y.modulus != x.modulus)
    else decide (x.modulus ≠ 0)
  let firstBad := if x.kind = 0 then decide (x.first ≠ 0)
    else if x.kind = 1 then (match mine with
      | y :: _ => decide (x.first ≤ y.first)
      | [] => decide (x.first ≠ 0)) || (rows x.table).any (fun r => decide (r ≤ x.first))
    else decide (x.modulus ≤ x.first) || mine.any (fun y => y.first == x.first)
  let bad := [(0, split || (x.kind == 0 && mine.any (fun y => y.kind == 0))), (3, decide (2 < x.kind) || mine.any (fun y => y.kind != x.kind)),
    (6, modBad), (8, firstBad)]
  let offs := (bad.filter (fun b => b.2)).map (fun b => b.1)
  let offs := match reservedByte (ofBytes bs) shardMask 16 with
    | some o => o :: offs
    | none => offs
  offs.foldl (fun m o => some (match m with | some y => min y o | none => o)) none

/-- Every residue of a modulus is named: as many entries as its MOD. -/
def residuesAll (es : List ShardEntry) : Bool :=
  es.all (fun x => x.kind != 2 || decide ((es.filter (fun y => y.table == x.table)).length = x.modulus))

/-- Read a map of `k` entries: the offset that breaks a rule, or the entries in order. -/
def shardParse (rows : Nat → Option Nat) : (k : Nat) → List Byte → List ShardEntry → Except Nat (List ShardEntry)
  | 0, _, acc => if residuesAll acc then .ok acc.reverse else .error 8
  | k + 1, bs, acc =>
    match shardFault rows (bs.take 16) acc with
    | some o => .error o
    | none => shardParse rows k (bs.drop 16) (shardOf (bs.take 16) :: acc)

/-- The map takes effect in one step: what waited for its generation goes on (R188, R437). RESULT0 is the previous GEN. -/
def loadMap (gen : Nat) (es : List ShardEntry) (s : State) : CmdEnd × State :=
  if gen ≤ s.fab.gen then (failEnd stState 0, s)
  else (okEnd s.fab.gen 0, releaseGen (modFab (fun f => { f with gen := gen, shards := es }) s))

/-- A SHARDMAP_LOAD, at once or waiting for the close that runs (R188). -/
def loadRun (n : Fin 64) (e : Entry) (s : State) : CmdEnd × State :=
  readBuf n e (16 * efld e 12 4) s (fun bs s =>
    match shardParse (fun id => (tableOf id s).map (·.rows)) (efld e 12 4) bs [] with
    | .error o => (failEnd stMalformed (0x8000 + o), s)
    | .ok es =>
      if efld e 8 4 ≤ s.fab.gen then (failEnd stState 0, s)
      else if (closingOf s).isSome then
        (.waits 0x0101, modFab (fun f => { f with loads := f.loads ++ [⟨(n.val, Entry.cid e), efld e 8 4, es⟩] }) s)
      else loadMap (efld e 8 4) es s)

/-- The loads that waited for a close take effect after it, oldest first (R188). -/
def releaseLoads (s : State) : State :=
  if (closingOf s).isSome then s
  else s.fab.loads.foldl (fun s x => settleCmd (Fin.ofNat 64 x.owner.1) x.owner.2 (loadMap x.gen x.shards s))
    (modFab (fun f => { f with loads := [] }) s)

def cmdShardmapLoad : CmdDef where
  op := 0x42
  fields := [(8, 0, 32), (12, 0, 32)]
  buf := fun e => .input (16 * efld e 12 4)
  checks := fun e => [(12, decide (1 ≤ efld e 12 4 ∧ efld e 12 4 ≤ 65536))]
  run := loadRun

/-! ### PORT_RESET, PORT_UNFENCE, FABRIC_STATUS -/

/-- PORT_RESET (R113); of an NVMe port, `r` is what the drive's examination finds (R226). -/
def cmdPortReset (r : DriveReport) : CmdDef where
  op := 0x43
  fields := [(8, 0, 4), (9, 0, 8)]
  checks := fun e => [(8, decide (efld e 8 1 ≤ (if efld e 9 1 = 1 then 3 else 8))), (9, decide (efld e 9 1 ≤ 1))]
  run := fun n e s =>
    if efld e 9 1 = 1 then
      let p : Fin 4 := Fin.ofNat 4 (efld e 8 1)
      match reinitDrive p r (sqFlushIds (sqNvmeIds p.val) s) with
      | (true, s) => (okEnd 0 0, s)
      | (false, s) => (failEnd stState 0, s)
    else if !(s.fab.ports[namedPort e]).enabled then (failEnd stState 0, s)
    else waitJoin (namedPort e) n e (portResetBye (namedPort e) s)

def cmdPortUnfence : CmdDef where
  op := 0x44
  fields := [(8, 0, 8)]
  checks := fun e => [(8, decide (efld e 8 1 ≤ 8))]
  run := fun n e s =>
    let p := namedPort e
    if (s.fab.ports[p]).state ≠ .fenced then (failEnd stState 0, s)
    else waitJoin p n e (portReset p (modPort p (fun x => { x with violations := 0, inSecond := 0 }) s))

/-- STATE of a status record (R442). -/
def PortState.code : PortState → Nat
  | .down => 0 | .training => 1 | .joined => 2 | .fenced => 3 | .disabled => 4

/-- The 32-byte status record of a port (R442). -/
def Port.record (x : Port) : List Byte :=
  [BitVec.ofNat 8 x.state.code, x.plies] ++ toBytes 2 x.peer ++ toBytes 4 x.rtt ++ toBytes 4 x.violations ++ toBytes 4 x.replayed
    ++ toBytes 4 x.fecCorrected ++ toBytes 4 x.fecFailed ++ [BitVec.ofNat 8 x.lastCause, BitVec.ofNat 8 x.gaugeIgnored]
    ++ toBytes 4 x.dropped ++ [0, 0]

/-- The FEC codewords that a joined port has corrected or failed to correct since it last reported them: the plies decide them, so
they are free values, and the counts saturate (R9, R442). -/
def countFec (s : State) (p : Fin 9) : State :=
  if (s.fab.ports[p]).state = .joined then
    let (v, s) := drawFree s
    modPort p (fun x => { x with
      fecCorrected := satTo 32 (x.fecCorrected + v.toNat % 2 ^ 32), fecFailed := satTo 32 (x.fecFailed + v.toNat / 2 ^ 32) }) s
  else s

/-- The FEC counts of every port brought up to date. -/
def countAllFec (s : State) : State := (List.finRange 9).foldl countFec s

def cmdFabricStatus : CmdDef where
  op := 0x45
  buf := fun _ => .output 288
  run := fun _ e s =>
    let s := countAllFec s
    (okEnd s.fab.gen 0, writeBuf e (s.fab.ports.toList.flatMap Port.record) s)

end Sys2Proof.Machine
end

