-- ==== Sys2Proof/Machine/Scrub.lean ====
section
/-! DEFINITION. The Scrubber (12_memory_and_scrubbing.md R268, R275, R276) and SCRUB_SLOT (08; 12, R275). -/

namespace Sys2Proof.Machine

open Sys2Proof

/-- A sector of a stack's reservation was found uncorrectable (R268): parking records in it are lost; a sector of the firmware's own
ranges is rewritten where its state can be rebuilt, which the spec leaves open, and is fatal otherwise; the exact-add region keeps
its poison (R390). -/
def reservedLoss (sec : Nat) (s : State) : State :=
  let off := sec % 2 ^ 36 - (2 ^ 36 - 2 ^ 28)
  let k := stackOf sec
  if off < 0x04000000 then s
  else if off < 0x04100000 then
    let hit (r : ParkRec) : Bool := r.area == k && r.place == (off - 0x04000000) / 128
    let n := (s.ram.parked.filter hit).length
    if n = 0 then s
    else logErr .contained 0x38 .step k.val n sec { s with ram := { s.ram with parked := s.ram.parked.filter (fun r => !hit r) } }
  else
    let (v, s) := drawFree s
    if v.getLsbD 0 then { s with ram := { s.ram with poison := s.ram.poison.filter (fun a => a != sec) } }
    else logErr .fatal 0x37 .device k.val 0 sec s

/-- The Scrubber runs: HBM is up and the device is not in the fatal state. -/
def scrubUp (s : State) : Bool :=
  decide (s.rst.phase = .up) && decide (3 ≤ s.rst.stage) && !s.er.fatal && !s.rst.recovery && !s.rst.held

/-- Bytes a stack may scrub in a slot: what fits at 15,625 bytes per µs, and a periodic entry's quota (R275). -/
def ScrubSlot.limit (x : ScrubSlot) : Nat :=
  if x.periodic then min x.quota (15625 * x.slotUs) else 15625 * x.slotUs

/-- Stack `k` may scrub a sector now (R275). -/
def mayScrub (k : Fin 8) (s : State) : Bool :=
  scrubUp s && stackUsable k.val s && (match s.ram.slot with
    | none => true
    | some x => x.active && decide ((s.ram.stack[k]).scrubbed + 32 ≤ x.limit))

/-- The Scrubber goes on to the next sector; a pass ends at the top of the stack (R275), where the stack's on-die error-check count
is read and added to ONDIE_CORRECTED (R260). What the HBM dies counted is a free value. -/
def scrubNext (k : Fin 8) (s : State) : State :=
  let u := s.ram.stack[k]
  if 2 ^ 36 ≤ u.position + 32 then
    let (v, s) := drawFree s
    modStack k (fun x => { x with
      scrubbed := x.scrubbed + 32, position := 0, passes := x.passes + 1, late := false,
      ondie := satAdd x.ondie (v.toNat % 65536) }) s
  else modStack k (fun x => { x with scrubbed := x.scrubbed + 32, position := x.position + 32 }) s

/-- Row SCRUB_READ: stack `k`'s next sector, which decodes as `ecc` (R276). -/
def scrubRead (k : Fin 8) (ecc : Ecc) (s : State) : State :=
  if !mayScrub k s then s
  else
    let sec := stackBase k.val + (s.ram.stack[k]).position
    let filling := s.res.faultIns.any (fun x => x.frame == some (frameOf sec))
    let s' := scrubNext k s
    if filling then s'
    else if poisoned sec s then repairStart sec s'
    else
      let s := eccRead sec ecc s'
      if poisoned sec s && reserved sec then reservedLoss sec s else s

/-- Row SCRUB_SLOT_END: the slot's length runs out (R275). A stack whose quota did not fit is late, logged once a pass. -/
def scrubSlotEnd (s : State) : State :=
  match s.ram.slot with
  | none => s
  | some x =>
    if !x.active then s
    else
      let late (s : State) (k : Fin 8) : State :=
        let u := s.ram.stack[k]
        if x.periodic ∧ stackUsable k.val s ∧ u.scrubbed < x.quota ∧ !u.late then
          logErr .corrected 0x3A .none k.val 0 u.passes.toNat (modStack k (fun u => { u with late := true }) s)
        else s
      let s := (List.finRange 8).foldl late s
      { s with ram := { s.ram with slot := if x.periodic then some { x with active := false } else none } }

/-- A slot begins at a firing of its entry (R275). -/
def scrubSlotBegin (s : State) : State :=
  match s.ram.slot with
  | none => s
  | some x =>
    { s with ram := { s.ram with slot := some { x with active := true },
                                  stack := s.ram.stack.map (fun u => { u with scrubbed := 0 }) } }

/-- A scrub-slot entry that has left the schedule returns the Scrubber to background mode, unless its one-shot slot runs (R275). -/
def scrubCheck (s : State) : State :=
  match s.ram.slot with
  | none => s
  | some x =>
    let there := match kvGet s.gg.sched x.entry with
      | some e => e.kind == 9
      | none => false
    if there || (!x.periodic && x.active) then s else { s with ram := { s.ram with slot := none } }

/-- The quota per stack and slot (R275): 64 GiB × PERIOD beats over the pass period, in whole sectors. -/
def scrubQuota (period rate hours : Nat) : Nat := 32 * ceilDiv (2 ^ 36 * period) (rate * (hours * 3600) * 32)

def cmdScrubSlot : CmdDef where
  op := 0x54
  fields := [(8, 0, 32), (12, 0, 32)]
  mark := .per
  checks := fun e => [(8, decide (1 ≤ efld e 8 4 ∧ efld e 8 4 ≤ 10000)), (12, decide (1 ≤ efld e 12 4 ∧ efld e 12 4 ≤ 8760))]
  run := fun n e s =>
    if s.ram.slot.isSome ∨ s.gg.sched.any (fun x => x.2.kind == 9) then (failEnd stState 0, s)
    else
      let i := (kvFree s.gg.sched 0 256).getD 0
      let per := Entry.periodic e
      let quota := if per then scrubQuota (Entry.period e).toNat s.gg.cfg.rate (efld e 12 4) else 0
      match schedule [ownEntry n e 9 0] s with
      | (.fail st sub r0, s) => (.fail st sub r0, s)
      | (r, s) => (r, { s with ram := { s.ram with slot := some ⟨i, per, efld e 8 4, quota, false⟩ } })

end Sys2Proof.Machine
end

