-- ==== Sys2Proof/Machine/Control.lean ====
section
/-! DEFINITION. The gauge, tension, monitor, log and tally commands, WARM_RESET and BIND_OFF (08_command_catalogue.md R174, R189,
R190; 04_gauge.md R77, R79, R87; 23, R471, R473; 22, R460, R464; 21, R453–R455; 05, R96). -/

namespace Sys2Proof.Machine

open Sys2Proof

/-! ### The gauge and its schedule -/

/-- The settings a GAUGE_CONFIG carries. -/
def gaugeConfigOf (e : Entry) : GaugeConfig where
  rate := efld e 8 4
  source := efld e 12 1 % 4
  primary := efld e 12 1 / 4 % 2
  upstream := efld e 13 1
  downMask := BitVec.ofNat 9 (efld e 14 2)
  cableDelay := BitVec.ofNat 16 (efld e 16 2)

/-- The settings use in-band gauge (R79). -/
def GaugeConfig.inbandUsed (c : GaugeConfig) : Bool := c.source != 0 || c.upstream != 0xFF || c.downMask != 0

def cmdGaugeConfig : CmdDef where
  op := 0x50
  fields := [(8, 0, 32), (12, 0, 3), (13, 0, 8), (14, 0, 9), (16, 0, 16)]
  needs := fun e => if (gaugeConfigOf e).inbandUsed then [8] else []
  checks := fun e =>
    let c := gaugeConfigOf e
    [(8, decide (1000 ≤ c.rate ∧ c.rate ≤ 100000)), (12, decide (c.source ≤ 2)), (13, decide (c.upstream ≤ 8 ∨ c.upstream = 0xFF))]
  run := fun _ e s =>
    if !s.gg.sched.isEmpty then (failEnd stState 0, s)
    else (okEnd 0 0, { s with gg := { s.gg with cfg := gaugeConfigOf e } })

/-- The commands that a list of schedule entries makes wait. -/
def waitingOwners (l : List (Nat × SchedEntry)) (s : State) : List (Nat × Nat) :=
  ((l.filterMap (fun x => x.2.owner)).eraseDups).filter (fun w =>
    (findCmd (Fin.ofNat 64 w.1) w.2 s).any (fun c => !c.effective))

def cmdGaugeRebase : CmdDef where
  op := 0x51
  run := fun _ _ s =>
    let k := (waitingOwners s.gg.sched s).length
    let s := cancelSchedule s
    let s := if windowLive s && (s.stp.window.any (fun w => w.state == .opened)) then (abandonWindow s).2 else s
    (okEnd k 0, { s with gg := { s.gg with rebase := true, rejected := 0, resume := none } })

/-- The 16 bytes at an index of the schedule, zero where it is unused (R74). -/
def schedSlot (i : Nat) (s : State) : List Byte :=
  match kvGet s.gg.sched i with
  | some e => e.bytes
  | none => List.replicate 16 0

/-- A bitmap of 256 entries. -/
def schedMap (p : SchedEntry → Bool) (s : State) : List Byte :=
  toBytes 32 ((s.gg.sched.filter (fun x => p x.2)).map (fun x => 2 ^ (x.1 % 256))).sum

/-- The 4,160 bytes of SCHED_READ. -/
def schedPage (s : State) : List Byte :=
  (List.range 256).flatMap (fun i => schedSlot i s) ++ schedMap (fun _ => true) s ++ schedMap (fun e => e.deferred) s

def cmdSchedRead : CmdDef where
  op := 0x52
  buf := fun _ => .output 4160
  run := fun _ e s =>
    (okEnd s.gg.sched.length (s.gg.sched.filter (fun x => x.2.deferred)).length, writeBuf e (schedPage s) s)

/-- Remove an entry, with the other entry of a command that made two (R189). -/
def schedRemove (i : Nat) (x : SchedEntry) (s : State) : State :=
  let twin (y : Nat × SchedEntry) : Bool := y.1 == i || (y.2.cmd == x.cmd && y.2.owner == x.owner)
  let gone := s.gg.sched.filter twin
  gone.foldl (fun s y => abandonOwner s y.2) { s with gg := { s.gg with sched := s.gg.sched.filter (fun y => !twin y) } }

def cmdSchedCancel : CmdDef where
  op := 0x53
  fields := [(8, 0, 8), (9, 0, 8), (16, 0, 64)]
  checks := fun e => [(9, decide (1 ≤ efld e 9 1 ∧ efld e 9 1 ≤ 0x0B))]
  run := fun _ e s =>
    match kvGet s.gg.sched (efld e 8 1) with
    | some x =>
      if x.kind = efld e 9 1 ∧ x.beat.toNat = efld e 16 8 then (okEnd 0 0, schedRemove (efld e 8 1) x s) else (failEnd stState 0, s)
    | none => (failEnd stState 0, s)

/-! ### Tension and monitors -/

def cmdTensionSlot : CmdDef where
  op := 0x55
  mark := .per
  needs := fun _ => [9]
  run := fun n e s => schedule [ownEntry n e 0x0A 0] s

/-- The effective cap has reached what the grant and the ceiling allow (R190). -/
def capReached (s : State) : Bool := decide (s.pm.cap = capTarget s)

/-- POWER_CAP completes once its ceiling is in force (R190). -/
def cmdPowerCap : CmdDef where
  op := 0x56
  fields := [(8, 0, 16)]
  checks := fun e => [(8, decide (450 ≤ efld e 8 2 ∧ efld e 8 2 ≤ 1150))]
  run := fun _ e s =>
    let s := setHostCap (efld e 8 2) s
    if capReached s then (okEnd (capNow s) 0, s) else (.works, s)

/-- Readings of every monitor in order; each AGE is an open value (R471). -/
def monPage : List (Fin 88) → State → List Byte × State
  | [], s => ([], s)
  | m :: ms, s =>
    let (a, s) := drawFree s
    let bs := monitorReading m a s
    let (rest, s) := monPage ms s
    (bs ++ rest, s)

/-- RESULT0 of MON_READ; with no valid reading it is an open value. -/
def hottestResult (s : State) : W64 × State :=
  match hottest s with
  | some v => (BitVec.ofInt 64 v, s)
  | none => drawFree s

def cmdMonRead : CmdDef where
  op := 0x57
  buf := fun _ => .output 704
  run := fun _ e s =>
    let (bs, s) := monPage (List.finRange 88) s
    let (h, s) := hottestResult s
    (.done stOK 0 h 0, writeBuf e bs s)

def cmdThermLimit : CmdDef where
  op := 0x58
  fields := [(8, 0, 8), (10, 0, 16)]
  checks := fun e => [(8, decide (efld e 8 1 ≤ 47)), (10, decide ((efld e 10 2 : Int) ≤ tripThreshold (efld e 8 1)))]
  run := fun _ e s => (okEnd 0 0, modMonitor (Fin.ofNat 88 (efld e 8 1)) (fun x => { x with limit := BitVec.ofNat 16 (efld e 10 2) }) s)

/-! ### Logs and the tally -/

/-- RESULT0 of LOG_READ: the index of the newest entry; with an empty log it is an open value. -/
def newestIndex (s : State) : W64 × State :=
  match s.er.ring with
  | x :: _ => (BitVec.ofNat 64 x.slot, s)
  | [] => drawFree s

def cmdLogRead : CmdDef where
  op := 0x60
  fields := [(8, 0, 16), (10, 0, 16)]
  buf := fun e => .output (32 * efld e 10 2)
  checks := fun e => [(8, decide (efld e 8 2 ≤ 4095)), (10, decide (1 ≤ efld e 10 2 ∧ efld e 10 2 ≤ 128))]
  run := fun _ e s =>
    let (k, s) := newestIndex s
    (.done stOK 0 k 0, writeBuf e ((List.range (efld e 10 2)).flatMap (fun i => logAt ((efld e 8 2 + i) % 4096) s)) s)

def cmdLogMirrorSet : CmdDef where
  op := 0x61
  fields := [(8, 0, 1), (16, 0, 64)]
  checks := fun e => [(16, efld e 16 8 % 4096 == 0)]
  run := fun _ e s =>
    (okEnd 0 0, { s with er := { s.er with mirrorEn := e.getLsbD 64, mirrorBase := BitVec.ofNat 64 (efld e 16 8) } })

/-- The audit of a command whose check has ended: its report, its completion, and the alarms (R453, R454, R456). -/
def auditEnd (c : Check) (qp cid : Nat) (s : State) : State :=
  let s := c.outSorted.foldl raiseAlarm { s with ty := { s.ty with check := none } }
  match findCmd (Fin.ofNat 64 qp) cid s with
  | some x =>
    complete (Fin.ofNat 64 qp) cid stOK 0 (BitVec.ofNat 64 c.compared) (BitVec.ofNat 64 c.outOf.length) (writeBuf x.entry c.report s)
  | none => s

/-- TALLY_AUDIT; audits run one at a time, and another check lets it wait in its slot (R453). -/
def cmdTallyAudit : CmdDef where
  op := 0x62
  buf := fun _ => .output 4096
  needs := fun _ => [15]
  run := fun n e s => if s.ty.check.isSome then (.marked, s) else (.works, checkBegin (.audit n.val (Entry.cid e)) s)

def cmdTallyRead : CmdDef where
  op := 0x63
  fields := [(8, 0, 16)]
  buf := fun _ => .output 64
  run := fun _ e s =>
    match tallyRecord (efld e 8 2) s with
    | some bs => (okEnd 0 0, writeBuf e bs s)
    | none => (failEnd stMalformed 8, s)

/-! ### WARM_RESET (R174) -/

/-- WARM_RESET completes first; the reset begins once the completion is in host memory. -/
def cmdWarmReset : CmdDef where
  op := 0x06
  run := fun n _ s => (okEnd 0 0, { s with rst := { s.rst with warmAsked := some n.val } })

/-! ### BIND_OFF (R96) -/

def modBind (f : BindOff → BindOff) (s : State) : State := { s with rst := { s.rst with bindOff := s.rst.bindOff.map f } }

/-- Every dirty block of T1 with a home on a lower tier: table, block, entry. -/
def dirtyBlocks (s : State) : List (Nat × Nat × DirEntry) :=
  s.tbl.tables.flatMap (fun x => (List.range x.2.blocks).filterMap (fun b =>
    match blockDir x.1 b s with
    | some d => if d.dirty && d.loc == 1 && d.home != 1 && !d.noHome then some (x.1, b, d) else none
    | none => none))

/-- A write-back that BIND_OFF started has ended: its bytes count if the block is clean. -/
def bindCount (s : State) : State :=
  match s.rst.bindOff with
  | none => s
  | some o =>
    let (run, done) := o.started.partition (fun x => s.res.writeBacks.any (fun w => w.table == x.1 && w.blk == x.2))
    let clean := (done.filter (fun x => (blockDir x.1 x.2 s).any (fun d => !d.dirty))).length
    modBind (fun o => { o with started := run, bytes := o.bytes + 65536 * clean }) s

/-- Start the write-back of a dirty block, or skip a poisoned one, which is logged once (R273). -/
def bindWrite (s : State) (x : Nat × Nat × DirEntry) : State :=
  let k := (x.1, x.2.1)
  if framePoisoned x.2.2.frame s then
    if s.rst.bindOff.any (fun o => o.skipped.contains k) then s
    else modBind (fun o => { o with skipped := o.skipped ++ [k] }) (logErr .deferred 0x3B .table 0 x.1 x.2.1 s)
  else if x.2.2.busy then s
  else modBind (fun o => { o with started := o.started ++ [k] }) (wbStart x.1 x.2.1 x.2.2.home false s)

/-- A command of a kind is outstanding on some drive. -/
def nvmeAny (p : NvmeUse → Bool) (s : State) : Bool := s.res.drives.any (fun d => d.cmds.any (fun c => p c.use))

def NvmeUse.isFlush : NvmeUse → Bool
  | .flush => true
  | _ => false

def NvmeUse.isRecord : NvmeUse → Bool
  | .stepRecord _ => true
  | _ => false

/-- Steps 5 to 7 of R96: the orderly leave, BOUND, and the completion; RESULT1, the elapsed time, is an open value. -/
def bindFinish (o : BindOff) (s : State) : State :=
  let s := (List.finRange 9).foldl (fun s p =>
    if (s.fab.ports[p]).state = .joined then modPort p (fun x => { x.cleared with state := .down }) (sendLeave p 0 s) else s) s
  let s := { s with rst := { s.rst with bound := true, bindOff := none } }
  let (t, s) := drawFree s
  complete (Fin.ofNat 64 o.qp) o.cid stOK 0 (BitVec.ofNat 64 o.bytes) t s

/-- BIND_OFF goes on as far as it can; `fuel` bounds its steps. -/
def bindRun : (fuel : Nat) → State → State
  | 0, s => s
  | fuel + 1, s =>
    match s.rst.bindOff with
    | none => s
    | some o =>
      if o.stage = 0 then
        if (closingOf s).isSome then s
        else if !s.stp.live.isEmpty then
          complete (Fin.ofNat 64 o.qp) o.cid stState 0 0 0 { s with rst := { s.rst with bindOff := none } }
        else bindRun fuel (modCmd (Fin.ofNat 64 o.qp) o.cid (fun c => { c with wait := none, effective := true })
          (modBind (fun o => { o with stage := 1 }) s))
      else if o.stage = 1 then
        let s := bindCount s
        let s := (dirtyBlocks s).foldl bindWrite s
        if (dirtyBlocks s).any (fun x => !framePoisoned x.2.2.frame s) || s.rst.bindOff.any (fun o => !o.started.isEmpty) then s
        else
          let s := (List.finRange 4).foldl (fun s p => if (s.res.drives[p]).usable then nvmeIssue p .flush s else s) s
          bindRun fuel (modBind (fun o => { o with stage := 2 }) s)
      else if o.stage = 2 then
        if nvmeAny NvmeUse.isFlush s then s
        else bindRun fuel (modBind (fun o => { o with stage := 3 })
          (if s.stp.closed = 0 then s else (writeStepRecord s.stp.closed s).2))
      else if nvmeAny NvmeUse.isRecord s then s
      else bindFinish o s

def cmdBindOff : CmdDef where
  op := 0x05
  run := fun n e s =>
    if s.rst.bindOff.isSome || s.stp.live.any (fun x => x.phase == .opened || x.phase == .confirm) then (failEnd stState 0, s)
    else
      let s := { s with rst := { s.rst with bindOff := some ⟨n.val, Entry.cid e, 0, 0, [], []⟩ } }
      if (closingOf s).isSome then (.waits 0x0101, s) else (.works, s)

end Sys2Proof.Machine
end

