-- ==== Sys2Proof/Machine/Registers.lean ====
section
/-! DEFINITION. BAR0 as a whole (06_host_link R124–R126, 26_register_map R526–R535): which register answers at an offset, its
value, what a read clears, what a write does, and how 4-byte and 8-byte accesses combine. -/

namespace Sys2Proof.Machine

open Sys2Proof

/-- The registers of BAR0 (R530). The MSI-X table and PBA are taken as 32-bit registers (R535). -/
inductive Reg where
  | hlLink | hlViol | hlRefused | slice (k : Fin 8)
  | mbStatus | qp0Ctrl | qp0SqBase | qp0CqBase | qp0Stat | qpEnabled | qpQuarantined
  | sqTail (n : Fin 64) | cqHead (n : Fin 64)
  | ggStatus | ggBeat | ggPhase
  | erSummary | erMask | erLogHead | erFatal | erCount (k : Fin 5)
  | erMemSel | erMemCount | erMemStack | erMemPoison | erScrubStat
  | pmStatus | pmEvent | pmEventMask | pmTileK | pmThrottle
  | idPci | idRev | idHwtype | idSerialLo | idSerialHi | idKey
  | fwState | tyAlarm | txHead | txStat | txAge
  | sqSel | sqInfo | sqCount
  | msix (v : Fin 128) (word : Fin 4)
  | pba (word : Fin 4)
deriving DecidableEq, Repr

/-- The register at a 4-byte-aligned offset, and whether the offset is its upper half (R530). -/
def regAt (off : Nat) : Option (Reg × Bool) :=
  if off = 0x0 then some (.hlLink, false)
  else if off = 0x8 then some (.hlViol, false)
  else if off = 0xC then some (.hlRefused, false)
  else if 0x100 ≤ off ∧ off < 0x140 then some (.slice (Fin.ofNat 8 ((off - 0x100) / 8)), decide (off % 8 = 4))
  else if off = 0x10000 then some (.mbStatus, false)
  else if off = 0x10008 then some (.qp0Ctrl, false) else if off = 0x1000C then some (.qp0Ctrl, true)
  else if off = 0x10010 then some (.qp0SqBase, false) else if off = 0x10014 then some (.qp0SqBase, true)
  else if off = 0x10018 then some (.qp0CqBase, false) else if off = 0x1001C then some (.qp0CqBase, true)
  else if off = 0x10020 then some (.qp0Stat, false)
  else if off = 0x10028 then some (.qpEnabled, false) else if off = 0x1002C then some (.qpEnabled, true)
  else if off = 0x10030 then some (.qpQuarantined, false) else if off = 0x10034 then some (.qpQuarantined, true)
  else if 0x20000 ≤ off ∧ off < 0x20200 then
    let n := Fin.ofNat 64 ((off - 0x20000) / 8)
    some (if off % 8 = 0 then .sqTail n else .cqHead n, false)
  else if off = 0x30000 then some (.ggStatus, false) else if off = 0x30004 then some (.ggStatus, true)
  else if off = 0x30008 then some (.ggBeat, false) else if off = 0x3000C then some (.ggBeat, true)
  else if off = 0x30010 then some (.ggPhase, false)
  else if off = 0x40000 then some (.erSummary, false)
  else if off = 0x40004 then some (.erMask, false)
  else if off = 0x40008 then some (.erLogHead, false)
  else if off = 0x40010 then some (.erFatal, false) else if off = 0x40014 then some (.erFatal, true)
  else if 0x40020 ≤ off ∧ off < 0x40034 then some (.erCount (Fin.ofNat 5 ((off - 0x40020) / 4)), false)
  else if off = 0x40100 then some (.erMemSel, false)
  else if off = 0x40108 then some (.erMemCount, false) else if off = 0x4010C then some (.erMemCount, true)
  else if off = 0x40110 then some (.erMemStack, false) else if off = 0x40114 then some (.erMemStack, true)
  else if off = 0x40118 then some (.erMemPoison, false) else if off = 0x4011C then some (.erMemPoison, true)
  else if off = 0x40120 then some (.erScrubStat, false) else if off = 0x40124 then some (.erScrubStat, true)
  else if off = 0x50000 then some (.pmStatus, false) else if off = 0x50004 then some (.pmStatus, true)
  else if off = 0x50008 then some (.pmEvent, false)
  else if off = 0x5000C then some (.pmEventMask, false)
  else if off = 0x50010 then some (.pmTileK, false) else if off = 0x50014 then some (.pmTileK, true)
  else if off = 0x50018 then some (.pmThrottle, false)
  else if off = 0x60000 then some (.idPci, false)
  else if off = 0x60004 then some (.idRev, false)
  else if off = 0x60008 then some (.idHwtype, false)
  else if off = 0x60010 then some (.idSerialLo, false) else if off = 0x60014 then some (.idSerialLo, true)
  else if off = 0x60018 then some (.idSerialHi, false) else if off = 0x6001C then some (.idSerialHi, true)
  else if off = 0x60020 then some (.idKey, false) else if off = 0x60024 then some (.idKey, true)
  else if off = 0x70000 then some (.fwState, false)
  else if off = 0x80000 then some (.tyAlarm, false) else if off = 0x80004 then some (.tyAlarm, true)
  else if off = 0x90000 then some (.txHead, false)
  else if off = 0x90008 then some (.txStat, false) else if off = 0x9000C then some (.txStat, true)
  else if off = 0x90010 then some (.txAge, false)
  else if off = 0xA0000 then some (.sqSel, false)
  else if off = 0xA0008 then some (.sqInfo, false) else if off = 0xA000C then some (.sqInfo, true)
  else if off = 0xA0010 then some (.sqCount, false) else if off = 0xA0014 then some (.sqCount, true)
  else if 0xF00000 ≤ off ∧ off < 0xF00800 then
    some (.msix (Fin.ofNat 128 ((off - 0xF00000) / 16)) (Fin.ofNat 4 (off % 16 / 4)), false)
  else if 0xF08000 ≤ off ∧ off < 0xF08010 then some (.pba (Fin.ofNat 4 ((off - 0xF08000) / 4)), false)
  else none

/-- The base offset of a register's region decides whether it answers before S4 ends: HL_, MB_, ER_ and ID_ do (R91, R529). -/
def earlyRegion (off : Nat) : Bool :=
  let r := off / 0x10000
  decide (r < 3 ∨ r = 4 ∨ r = 6)

/-- A 64-bit register. -/
def Reg.wide : Reg → Bool
  | .slice _ | .qp0Ctrl | .qp0SqBase | .qp0CqBase | .qpEnabled | .qpQuarantined | .ggStatus | .ggBeat | .erFatal
  | .erMemCount | .erMemStack | .erMemPoison | .erScrubStat | .pmStatus | .pmTileK | .idSerialLo | .idSerialHi | .idKey
  | .tyAlarm | .txStat | .sqInfo | .sqCount => true
  | _ => false

/-- HL_LINK (R531). -/
def hlLinkReg (s : State) : Nat :=
  s.hl.rate + 8 * s.hl.width + 256 * b2n s.hl.flit + 512 * b2n s.hl.cxl + 1024 * b2n s.hl.up

/-- HL_AP_SLICE[k] as a word (R127). -/
def sliceWord (x : Slice) : Nat :=
  b2n x.en + 2 * b2n x.wrEn + 4 * x.cls.val + 16 * x.tag.toNat + 2 ^ 30 * x.vbase.toNat

/-- The slice a word names (R127). -/
def sliceOf (v : Nat) : Slice :=
  ⟨v.testBit 0, v.testBit 1, Fin.ofNat 4 (bits v 2 2), BitVec.ofNat 12 (bits v 4 12), BitVec.ofNat 22 (bits v 30 22)⟩

/-- MB_STATUS (R94). -/
def mbStatusReg (s : State) : Nat :=
  let r := s.rst
  r.stage + 8 * b2n r.ready + 16 * b2n s.mb.negotiated + 32 * b2n r.recovery + 64 * b2n r.bound + 128 * b2n r.degraded
    + 256 * r.lastReset.code + 2048 * b2n r.closePending + 4096 * b2n r.recountDone + 65536 * r.failCode

/-- The code of a queue pair's state (R142). -/
def QpState.code : QpState → Nat
  | .disabled => 0 | .enabled => 1 | .quarantined => 2

/-- MB_QP0_STAT (R142). -/
def qp0StatReg (s : State) : Nat :=
  let q := s.mb.qps[(0 : Fin 64)]
  q.state.code + 256 * q.cause + 65536 * q.sqHead

/-- One bit per queue pair in state `st` (R532). -/
def qpMask (st : QpState) (s : State) : Nat :=
  (List.finRange 64).foldl (fun acc n => acc + (if (s.mb.qps[n]).state = st then 2 ^ n.val else 0)) 0

/-- The receiver's state code (04, Model). -/
def GState.code : GState → Nat
  | .unlocked => 0 | .locking => 1 | .locked => 2 | .holdover => 3 | .freeRun => 4

/-- GG_STATUS (04, Status). -/
def ggStatusReg (s : State) : Nat :=
  let g := s.gg
  g.state.code + 8 * g.selected + 16 * b2n (altGood g)
    + 2 ^ 16 * (if g.state = .locked then 0 else g.holdBeats.toNat) + 2 ^ 32 * g.sched.length
    + 2 ^ 48 * (g.sched.filter (fun e => e.2.deferred)).length

/-- ER_SUMMARY (R465). -/
def erSummaryReg (s : State) : Nat := s.er.pendingBits.toNat + 32 * b2n s.er.fatal

/-- The value a register reads (R526–R535, and the chapters it names). -/
def Reg.value (r : Reg) (s : State) : Nat :=
  match r with
  | .hlLink => hlLinkReg s
  | .hlViol => s.hl.violCount.toNat
  | .hlRefused => s.hl.apRefused.toNat
  | .slice k => sliceWord s.hl.slices[k]
  | .mbStatus => mbStatusReg s
  | .qp0Ctrl => s.mb.ctrl.toNat
  | .qp0SqBase => s.mb.sqBaseReg.toNat
  | .qp0CqBase => s.mb.cqBaseReg.toNat
  | .qp0Stat => qp0StatReg s
  | .qpEnabled => qpMask .enabled s
  | .qpQuarantined => qpMask .quarantined s
  | .sqTail n => doorbellRead false n s
  | .cqHead n => doorbellRead true n s
  | .ggStatus => if s.rst.recovery then 0 else ggStatusReg s
  | .ggBeat => if s.gg.state = .unlocked ∨ s.rst.recovery then 0 else s.gg.beat.toNat
  | .ggPhase =>
    if s.gg.state = .unlocked ∨ s.rst.recovery then 0
    else match s.gg.phaseLatch with
      | some p => p.toNat
      | none => s.gg.phase.toNat
  | .erSummary => erSummaryReg s
  | .erMask => s.er.mask.toNat
  | .erLogHead => (logHead s).toNat
  | .erFatal => s.er.fatalSeq.toNat + 2 ^ 32 * s.er.fatalCause.toNat
  | .erCount k => (s.er.count[k]).toNat
  | .erMemSel => s.ram.memSel.toNat
  | .erMemCount => memCountReg s
  | .erMemStack => memStackReg s
  | .erMemPoison => memPoisonReg s
  | .erScrubStat => scrubStatReg s
  | .pmStatus => pmStatusReg s
  | .pmEvent => s.pm.event.toNat
  | .pmEventMask => s.pm.eventMask.toNat
  | .pmTileK => if s.rst.recovery then 2 ^ 64 - 1 else tileKReg s
  | .pmThrottle => s.pm.throttleUs.toNat
  | .idPci => 0x08161F4E
  | .idRev => 0xB0 + 256 * s.pm.speedBin.toNat + 2048 * b2n s.fw.calDefault
  | .idHwtype => 0x00B00816
  | .idSerialLo => Config.serial.toNat % 2 ^ 64
  | .idSerialHi => Config.serial.toNat / 2 ^ 64
  | .idKey => idKeyReg s
  | .fwState => fwStateReg s
  | .tyAlarm => tyAlarmReg s
  | .txHead => s.tx.frHead
  | .txStat => if s.rst.recovery then 0x1000 else txStatReg s
  | .txAge => txAgeReg s
  | .sqSel => s.sq.sel.toNat
  | .sqInfo => sqInfoReg s
  | .sqCount => sqCountReg s
  | .msix v w =>
    let e := s.hl.msix[v]
    match w.val with
    | 0 => e.addr.toNat % 2 ^ 32
    | 1 => e.addr.toNat / 2 ^ 32
    | 2 => e.data.toNat
    | _ => b2n e.mask
  | .pba w => bits s.hl.pba.toNat (32 * w.val) 32

/-- The indivisible clear of a register's RC fields by a read (R8, R527), and the phase latch of GG_BEAT (R534). -/
def Reg.onRead (r : Reg) (s : State) : State :=
  match r with
  | .hlViol => { s with hl := { s.hl with violCount := 0 } }
  | .hlRefused => { s with hl := { s.hl with apRefused := 0 } }
  | .ggBeat => { s with gg := { s.gg with phaseLatch := some (if s.gg.state = .unlocked then 0 else s.gg.phase) } }
  | .ggPhase => { s with gg := { s.gg with phaseLatch := none } }
  | .erCount k => { s with er := { s.er with count := vset s.er.count k 0 } }
  | .erMemCount => clearMemCount s
  | .erMemStack => clearMemStack s
  | .erMemPoison => clearRepaired s
  | .pmThrottle => { s with pm := { s.pm with throttleUs := 0 } }
  | .fwState => (drawFree s).2
  | .txAge => (drawFree s).2
  | .sqInfo => clearHighWater s
  | .sqCount => clearSqCount s
  | _ => s

/-- The part of a 64-bit register that an upper-half write with no held lower half takes as bytes 0–3: the current value of RW
fields, 0 for W1C and W1S fields (R527). -/
def Reg.keepLow (r : Reg) (s : State) : Nat :=
  match r with
  | .tyAlarm => 0
  | .qp0Ctrl => (s.mb.ctrl &&& ~~~ (2 : W64)).toNat % 2 ^ 32
  | _ => r.value s % 2 ^ 32

/-- A partner violation for a value with no assigned meaning (R7, cause 0x10). -/
def badField (off v : Nat) (s : State) : State := logErr .partner 0x10 .none 0 off v s

/-- Write an MSI-X table word; clearing a mask sends a pending message (R135, R136, R535). -/
def writeMsix (v : Fin 128) (w : Fin 4) (x : Nat) (s : State) : State :=
  let e := s.hl.msix[v]
  let e := match w.val with
    | 0 => { e with addr := BitVec.ofNat 64 (e.addr.toNat / 2 ^ 32 * 2 ^ 32 + x % 2 ^ 32 / 4 * 4) }
    | 1 => { e with addr := BitVec.ofNat 64 (e.addr.toNat % 2 ^ 32 + x % 2 ^ 32 * 2 ^ 32) }
    | 2 => { e with data := BitVec.ofNat 32 x }
    | _ => { e with mask := x.testBit 0 }
  sendPending { s with hl := { s.hl with msix := vset s.hl.msix v e } } v

/-- A write of the whole register (R8, R529). Read-only registers ignore it. -/
def Reg.write (r : Reg) (v : Nat) (s : State) : State :=
  match r with
  | .slice k => { s with hl := { s.hl with slices := vset s.hl.slices k (sliceOf v) } }
  | .qp0Ctrl => writeCtrl (BitVec.ofNat 64 v) s
  | .qp0SqBase => { s with mb := { s.mb with sqBaseReg := BitVec.ofNat 64 (v / 4096 * 4096) } }
  | .qp0CqBase => { s with mb := { s.mb with cqBaseReg := BitVec.ofNat 64 (v / 4096 * 4096) } }
  | .sqTail n => doorbell false n (BitVec.ofNat 32 v) s
  | .cqHead n => doorbell true n (BitVec.ofNat 32 v) s
  | .erSummary => { s with er := { s.er with pendingBits := s.er.pendingBits &&& ~~~ (BitVec.ofNat 5 v) } }
  | .erMask => { s with er := { s.er with mask := BitVec.ofNat 5 v } }
  | .erMemSel => writeMemSel v s
  | .pmEvent => { s with pm := { s.pm with event := s.pm.event &&& ~~~ (BitVec.ofNat 32 v) } }
  | .pmEventMask => { s with pm := { s.pm with eventMask := BitVec.ofNat 32 v &&& pmEventBits } }
  | .tyAlarm => { s with ty := { s.ty with alarm := s.ty.alarm && v % 2 == 0 } }
  | .txHead => writeFrHead v s
  | .sqSel => writeSqSel v s
  | .msix e w => writeMsix e w v s
  | _ => s

/-- How BAR0 answers a host request (R91, R120, R121, R125, R529). -/
inductive BarMode where
  /-- no function answers: before S1, or in D3hot, or with Memory Space Enable 0 -/
  | unsupported
  /-- only the regions decoded from stage S1 -/
  | early
  | full
deriving DecidableEq, Repr

/-- How BAR0 answers now. -/
def barMode (s : State) : BarMode :=
  if s.hl.d3hot || !s.hl.mse || decide (s.rst.phase = .off ∨ s.rst.phase = .pinWait ∨ s.rst.stage = 0) then .unsupported
  else if s.rst.hostOn then .full else .early

/-- Read 4 bytes at an aligned offset: the value, with the register's read effect and latches (R125, R527). -/
def read4 (off : Nat) (s : State) : Nat × State :=
  match regAt off with
  | none => (0, s)
  | some (r, false) =>
    let v := r.value s
    let s := r.onRead s
    if r.wide then (v % 2 ^ 32, { s with hl := { s.hl with latch := kvSet s.hl.latch (off + 4) (BitVec.ofNat 32 (v / 2 ^ 32)) } })
    else (v, s)
  | some (r, true) =>
    match kvGet s.hl.latch off with
    | some x => (x.toNat, { s with hl := { s.hl with latch := kvErase s.hl.latch off } })
    | none => (r.value s / 2 ^ 32, s)

/-- Read 8 bytes at an 8-byte-aligned offset: one 64-bit register, or two 32-bit registers, lower offset first (R528). -/
def read8 (off : Nat) (s : State) : Nat × State :=
  match regAt off with
  | some (r, _) =>
    if r.wide then (r.value s, r.onRead s)
    else
      let (a, s) := read4 off s
      let (b, s) := read4 (off + 4) s
      (a + 2 ^ 32 * b, s)
  | none =>
    let (b, s) := read4 (off + 4) s
    (2 ^ 32 * b, s)

/-- Write 4 bytes at an aligned offset (R124, R125, R527). -/
def write4 (off v : Nat) (s : State) : State :=
  match regAt off with
  | none => violation 0x06 0 off 0 s
  | some (r, false) =>
    if r.wide then { s with hl := { s.hl with low := kvSet s.hl.low off (BitVec.ofNat 32 v) } } else r.write (v % 2 ^ 32) s
  | some (r, true) =>
    let base := off - 4
    let lo := match kvGet s.hl.low base with
      | some x => x.toNat
      | none => r.keepLow s
    r.write (lo + 2 ^ 32 * (v % 2 ^ 32)) { s with hl := { s.hl with low := kvErase s.hl.low base } }

/-- Write 8 bytes at an 8-byte-aligned offset (R528). -/
def write8 (off v : Nat) (s : State) : State :=
  match regAt off with
  | some (r, _) =>
    if r.wide then r.write v { s with hl := { s.hl with low := kvErase s.hl.low off } }
    else write4 (off + 4) (v / 2 ^ 32) (write4 off (v % 2 ^ 32) s)
  | none =>
    match regAt (off + 4) with
    | some _ => write4 (off + 4) (v / 2 ^ 32) (violation 0x06 0 off 0 s)
    | none => violation 0x06 0 off 0 s

/-- The access falls on a region that does not answer before stage S4 ends (R91, R138). -/
def tooEarly (off : Nat) (s : State) : Bool := decide (barMode s = .early) && !earlyRegion off

/-- A size and alignment that BAR0 takes (R125). -/
def barAligned (off size : Nat) : Bool := decide ((size = 4 ∧ off % 4 = 0) ∨ (size = 8 ∧ off % 8 = 0))

/-- A host read of BAR0 (R91, R120, R121, R125). -/
def barRead (off size : Nat) (s : State) : State :=
  if barMode s = .unsupported then emit .unsupported s
  else if barAligned off size && tooEarly off s then emit (.regData off size 0) (violation 0x04 0 off 0 s)
  else if size = 4 ∧ off % 4 = 0 then
    let (v, s) := read4 off s
    emit (.regData off size v) s
  else if size = 8 ∧ off % 8 = 0 then
    let (v, s) := read8 off s
    emit (.regData off size v) s
  else emit (.regData off size 0) (violation 0x05 0 off 0 s)

/-- A host write of BAR0 (R91, R120, R121, R125). -/
def barWrite (off size v : Nat) (s : State) : State :=
  if barMode s = .unsupported then s
  else if barAligned off size && tooEarly off s then violation 0x04 0 off 0 s
  else if size = 4 ∧ off % 4 = 0 then write4 off (v % 2 ^ 32) s
  else if size = 8 ∧ off % 8 = 0 then write8 off (v % 2 ^ 64) s
  else violation 0x05 0 off 0 s

/-- Which part of a 64-bit register an access covers. -/
def partRead (off : Nat) (p : RegPart) (s : State) : State :=
  match p with
  | .full => barRead off 8 s
  | .low => barRead off 4 s
  | .high => barRead (off + 4) 4 s

/-- A write of a 64-bit register, whole or by halves. -/
def partWrite (off : Nat) (p : RegPart) (v : W64) (s : State) : State :=
  match p with
  | .full => barWrite off 8 v.toNat s
  | .low => barWrite off 4 (v.toNat % 2 ^ 32) s
  | .high => barWrite (off + 4) 4 (v.toNat % 2 ^ 32) s

/-- Clear the MSI-X mask of a vector, or the function mask, and send what is pending (R136). -/
def unmask (v : Option (Fin 128)) (s : State) : State :=
  match v with
  | some v => writeMsix v 3 0 s
  | none => sendAllPending { s with hl := { s.hl with funcMask := false } }

end Sys2Proof.Machine
end

