-- ==== Sys2Proof/Machine/HostLink.lean ====
section
/-! DEFINITION. The BAR2 aperture, the link and its power states (06_host_link.md R119–R122, R127–R131, R134, R138). -/

namespace Sys2Proof.Machine

open Sys2Proof

/-! ### The aperture (R127–R131) -/

/-- The accessor of the aperture: SOURCE and UNIT name no engine of R248, because the aperture writes no fault record (R128). -/
def apWho (x : Slice) (va : Nat) : Accessor := ⟨0, 0, x.cls.val, false, va⟩

/-- A write right is what is missing: a PLAIN or TABLE page without W, or a directory page of a live table (R128, R215). -/
def apNoWrite (tag va : Nat) (s : State) : Bool :=
  match lookup tag va s with
  | some (.leaf _ _ e) => (leafKind e == 0 || leafKind e == 2) && (!leafGrants e .write || inDirectory tag va s)
  | _ => false

/-- The cause for which the aperture refuses one piece of an access, if any (R128). -/
def apPiece (tag va : Nat) (wr : Bool) (s : State) : Option Nat :=
  match resolve tag va (if wr then .write else .read) s with
  | .t1 _ _ => none
  | .away _ _ => some 0x0A
  | .refused => some (if wr && apNoWrite tag va s then 0x08 else 0x09)
  | _ => some 0x09

/-- The Hub's own entry for a piece that it cannot resolve follows the partner violation (R128, R238, R242, R268, R461). -/
def apOwnLog (tag va : Nat) (wr : Bool) (s : State) : State :=
  match resolve tag va (if wr then .write else .read) s with
  | .malformed level ea => logErr .partner 0x44 .addressSpace tag level ea s
  | .badTable id => logErr .contained 0x45 .table tag id va s
  | .poison t a => logErr .contained 0x36 (if t.isSome then .table else .addressSpace) tag (t.getD 0) a s
  | _ => s

/-- The first check of R128 that an access of `n` bytes at `va` through a slice fails: its cause, and the piece that fails it. -/
def apCheck (x : Slice) (va n : Nat) (wr : Bool) (s : State) : Option (Nat × Option Nat) :=
  if !x.en then some (0x07, none)
  else if wr && !x.wrEn then some (0x08, none)
  else if 2 ^ 52 < va + n then some (0x09, none)
  else (accessPieces va n).findSome? (fun p => (apPiece x.tag.toNat p.1 wr s).map (fun c => (c, some p.1)))

/-- Refuse an access: one partner violation with the slice and the virtual address, counted, then the Hub's own entry (R128, R138). -/
def apRefuse (k : Fin 8) (cause va : Nat) (piece : Option Nat) (wr : Bool) (s : State) : State :=
  let tag := (s.hl.slices[k]).tag.toNat
  let t := violation cause k.val 0 va { s with hl := { s.hl with apRefused := satInc s.hl.apRefused } }
  match piece with
  | some p => apOwnLog tag p wr t
  | none => t

/-- The slice, virtual address and check of an access; one that crosses a slice end is refused whole with the cause that applies at
the start of the following slice, 0x09 where none does (R127). -/
def apAccess (off n : Nat) (wr : Bool) (s : State) : Fin 8 × Nat × Option (Nat × Option Nat) :=
  let k := Fin.ofNat 8 (off / 2 ^ 33)
  let o := off % 2 ^ 33
  let va (k : Fin 8) (o : Nat) : Nat := (s.hl.slices[k]).vbase.toNat * 2 ^ 30 + o
  if 2 ^ 33 < o + n then
    let k' := Fin.ofNat 8 (off / 2 ^ 33 + 1)
    (k', va k' 0, some ((apCheck s.hl.slices[k'] (va k' 0) (o + n - 2 ^ 33) wr s).getD (0x09, none)))
  else (k, va k o, apCheck s.hl.slices[k] (va k o) n wr s)

/-- The T1 bytes of a served access: (address, length) pieces. -/
def apPlaces (tag va n : Nat) (wr : Bool) (s : State) : List (Nat × Nat) :=
  (accessPieces va n).filterMap (fun p => match resolve tag p.1 (if wr then .write else .read) s with
    | .t1 pa _ => some (pa, p.2)
    | _ => none)

/-- The effects of translating a served access: cached leaves and touched blocks, as for a tile's access (R127, R242). -/
def apTouch (x : Slice) (va n : Nat) (wr : Bool) (s : State) : State :=
  (accessPieces va n).foldl (fun s p => (xlateOne (apWho x va) x.tag.toNat p.1 (if wr then .write else .read) s).2) s

/-- Row BAR2_READ (R128): `ecc` is how the first sector it reads decodes. -/
def bar2Read (off n : Nat) (ecc : Ecc) (s : State) : State :=
  if n = 0 then s
  else if barMode s = .unsupported ∨ 2 ^ 36 < off + n then emit .unsupported s
  else if barMode s = .early then emit .completerAbort (violation 0x04 0 off 0 s)
  else
    let (k, va, verdict) := apAccess off n false s
    match verdict with
    | some (cause, piece) => emit .completerAbort (apRefuse k cause va piece false s)
    | none =>
      let x := s.hl.slices[k]
      let ps := apPlaces x.tag.toNat va n false s
      let s := apTouch x va n false s
      let s := match ps with
        | p :: _ => eccRead (sectorOf p.1) ecc s
        | [] => s
      let bad := ps.any (fun p => (firstPoison p.1 p.2 s).isSome)
      let bs := ps.flatMap (fun p => t1Read p.1 p.2 s)
      emit (.apData bs bad) (if bad then logErr .deferred 0x34 .data k.val 0 va s else s)

/-- Runs of enabled bytes of a write: offset and bytes. -/
def enabledRuns : List (Option Byte) → (o : Nat) → List (Nat × List Byte)
  | [], _ => []
  | none :: bs, o => enabledRuns bs (o + 1)
  | some b :: bs, o =>
    match enabledRuns bs (o + 1) with
    | (p, r) :: rest => if p = o + 1 then (o, b :: r) :: rest else (o, [b]) :: (p, r) :: rest
    | [] => [(o, [b])]

/-- Cut bytes at the lengths of consecutive pieces: a T1 address and the bytes for it. -/
def cutPieces : List (Nat × Nat) → List Byte → List (Nat × List Byte)
  | [], _ => []
  | (pa, k) :: ps, bs => (pa, bs.take k) :: cutPieces ps (bs.drop k)

/-- Row BAR2_WRITE (R128, R131, R267): `none` is a byte whose enable is 0. -/
def bar2Write (off : Nat) (data : List (Option Byte)) (s : State) : State :=
  let n := data.length
  if n = 0 ∨ barMode s = .unsupported ∨ 2 ^ 36 < off + n then s
  else if barMode s = .early then violation 0x04 0 off 0 s
  else
    let (k, va, verdict) := apAccess off n true s
    match verdict with
    | some (cause, piece) => apRefuse k cause va piece true s
    | none =>
      let x := s.hl.slices[k]
      let stores := (enabledRuns data 0).flatMap (fun r => cutPieces (apPlaces x.tag.toNat (va + r.1) r.2.length true s) r.2)
      if stores.any (fun p => (partialPoison p.1 p.2.length s).isSome) then
        logErr .deferred 0x35 .data k.val 0 va (apTouch x va n true s)
      else stores.foldl (fun s p => t1Store p.1 p.2 s) (apTouch x va n true s)

/-! ### Violations and refused reads (R134, R138) -/

/-- Row HOST_TLP_VIOLATION: a malformed TLP, a request type not implemented, or an unexpected completion (R138). -/
def tlpViolation (kind : TlpKind) (addr : W64) (s : State) : State :=
  if !s.hl.up then s
  else match kind with
  | .malformed => violation 0x01 0 0 addr.toNat s
  | .unsupported => emit .unsupported (violation 0x02 0 0 addr.toNat s)
  | .unexpected => violation 0x03 0 0 addr.toNat s

/-- Row DEVICE_READ_REFUSED (R134): the ring entry, the T2 row block, or anything else that a device read of `addr` was for. -/
def readRefused (r : RefusedRead) (s : State) : State :=
  match r with
  | .ring n => if mayFetch n s then quarantine n 0x0C (violation 0x0C n.val 0 0 s) else s
  | .block table blk =>
    match faultInOf table.toNat blk.toNat s, blockDir table.toNat blk.toNat s with
    | some x, some d =>
      if x.frame.isSome && x.failed.isNone && d.loc == 2 && t2Reach d.t2cxl s then
        faultInFail table.toNat blk.toNat stTranslation (logReadRefused 0 d.t2addr s)
      else s
    | _, _ => s
  | .other unit addr => if hostReach s then logReadRefused unit.val addr.toNat s else s

/-! ### Power states and Bus Master Enable (R120, R121) -/

/-- Row D3HOT_ENTRY. -/
def d3Enter (s : State) : State := if s.hl.up then { s with hl := { s.hl with d3hot := true } } else s

/-- Row D0_RETURN: the waiting requests proceed in their order, then pending messages. -/
def d0Return (s : State) : State := if s.hl.d3hot then releaseHeld { s with hl := { s.hl with d3hot := false } } else s

/-- Row BUS_MASTER_ENABLE_CLEAR. -/
def bmeClear (s : State) : State := { s with hl := { s.hl with bme := false } }

/-- Row BUS_MASTER_ENABLE_SET. -/
def bmeSet (s : State) : State := if s.hl.up then releaseHeld { s with hl := { s.hl with bme := true, bmeArmed := true } } else s

/-! ### Link training (R91, R119, R122) -/

/-- The rate of a RATE code in GT/s; 2.5 GT/s has no whole number, and what the entry shows for it is open. -/
def rateGts (code : Nat) (s : State) : Nat × State :=
  if code = 1 then let (v, s) := drawFree s; (v.toNat, s)
  else (if code = 2 then 5 else 2 ^ code, s)

/-- Row LINK_TRAINING_COMPLETE: the link is up at a width and rate. Below ×16 or 64 GT/s it is logged (R119); a link that has left
the CXL mode it was cast on with is logged (06, Corners). -/
def linkTrained (width rate : Nat) (flit cxl : Bool) (s : State) : State :=
  if s.pins.perst || s.rst.stage == 0 || decide (s.rst.phase = .off ∨ s.rst.phase = .pinWait) then s
  else
    let first := !s.rst.hostOn
    let leaves := s.hl.cxl && !cxl
    let cxl := cxl && flit
    let s := { s with hl := { s.hl with
      up := true, width := width, rate := rate, flit := flit, cxl := cxl
      cxlAtCastOn := if first then cxl else s.hl.cxlAtCastOn } }
    let (g, s) := rateGts rate s
    let s := if width < 16 ∨ rate < 6 then logErr .corrected 0x15 .none 0 width g s else s
    let s := if leaves then logErr .contained 0x14 .none 0 width g s else s
    releaseHeld s

end Sys2Proof.Machine
end

