-- ==== Sys2Proof/Machine/Schedule.lean ====
section
/-! DEFINITION. The gauge receiver's events and the marks of the schedule (04_gauge.md R78–R88; 08, R167, R168). -/

namespace Sys2Proof.Machine

open Sys2Proof

/-! ### Firing an entry (R75, R167, R168) -/

/-- The queue pair and CID of the command that owns an entry. -/
def SchedEntry.holder (e : SchedEntry) : Option (Fin 64 × Nat) := e.owner.map (fun o => (Fin.ofNat 64 o.1, o.2))

/-- The owner's event takes effect, after its mark if `late` (R149, R167). -/
def noteLate (e : SchedEntry) (late : Bool) (s : State) : State :=
  match e.holder with
  | some (n, cid) => modCmd n cid (fun c => { c with late := late, wait := none }) s
  | none => s

/-- Run a command's effect at its mark, and carry out its end. -/
def runOwner (e : SchedEntry) (run : Fin 64 → Entry → State → CmdEnd × State) (s : State) : State :=
  match e.holder with
  | some (n, cid) => settleCmd n cid (run n e.cmd s)
  | none => s

/-- An event without a condition: it happens, and a one-shot command completes (R167). -/
def fireSimple (e : SchedEntry) (f : State → State) (s : State) : State :=
  match e.holder with
  | some (n, cid) => settleCmd n cid (okEnd 0 0, f s)
  | none => f s

/-- The window deadline abandons an unconfirmed window (R361). -/
def fireWindowDeadline (e : SchedEntry) (s : State) : State :=
  if windowOpen (namedStep e.cmd) s then (abandonWindow s).2 else s

/-- The confirm deadline abandons the window of a step that is still open, which is logged (R21). -/
def fireConfirmDeadline (e : SchedEntry) (s : State) : State :=
  let k := namedStep e.cmd
  if (stepOf k s).any (fun x => x.phase == .opened) && windowOpen k s then
    logErr .corrected 0x55 .step 0 0 k (abandonWindow s).2
  else s

/-- The hot set a HOTSET_REFRESH names (R212). -/
def refreshNamed (e : SchedEntry) (s : State) : State := refreshHot s e.tag.toNat

/-- The event of an entry (R75). -/
def fireEntry (e : SchedEntry) (late : Bool) (s : State) : State :=
  let s := noteLate e late s
  match e.kind with
  | 1 => runOwner e (fun n c s => (.marked, confirmDue (confirmOf' n c late) s)) s
  | 2 => fireWindowDeadline e s
  | 3 => fireConfirmDeadline e s
  | 4 => runOwner e closeEffect s
  | 5 => modStep (namedStep e.cmd) (fun x => { x with flipReady := true }) s
  | 6 => runOwner e openEffect s
  | 7 => runOwner e specOpenEffect s
  | 8 => if Entry.opcode e.cmd = 0x26 then runOwner e prefetchStart s else fireSimple e (refreshNamed e) s
  | 9 => fireSimple e scrubSlotBegin s
  | 10 => fireSimple e tensionFires s
  | 11 =>
    match e.holder with
    | some (n, cid) => activate n cid late s
    | none => s
  | _ => s

/-- A deferred entry's command waits for gauge lock (R157). -/
def noteWait (e : SchedEntry) (s : State) : State :=
  match e.holder with
  | some (n, cid) => modCmd n cid (fun c => if c.effective then c else { c with wait := some 0x0100 }) s
  | none => s

/-- The mark of entry `i`, if it is of this kind, is reached. -/
def markRow (kind : Nat) (i : Fin 256) (s : State) : State :=
  if s.er.fatal then s
  else match atMark kind i.val s with
  | .nothing => s
  | .deferred t => match kvGet s.gg.sched i.val with
    | some e => noteWait e t
    | none => t
  | .fire e late s => fireEntry e late s

/-! ### Deferred and jumped-over events (R83, R84, R86) -/

/-- An entry runs late: it is consumed, then its event takes effect. -/
def runLate (s : State) (x : Nat × SchedEntry) : State :=
  match kvGet s.gg.sched x.1 with
  | some e => fireEntry e true (consumeLate x.1 e s)
  | none => s

/-- Row RESUME_MARK: the deferred events run in the order of their marks (R83). -/
def resumeMark (s : State) : State :=
  match s.gg.resume with
  | none => s
  | some r =>
    let before (x : Nat × SchedEntry) : Bool := !x.2.deferred && decide (x.2.beat.toNat < r.toNat)
    if s.gg.state ≠ .locked ∨ s.gg.beat.toNat < r.toNat ∨ s.er.fatal ∨ s.gg.sched.any before then s
    else
      (schedSorted (s.gg.sched.filter (fun x => x.2.deferred))).foldl runLate { s with gg := { s.gg with resume := none } }

/-- An entry whose mark was jumped over: it runs now, logged as late, or joins the deferred set (R84, R86). -/
def runJumped (s : State) (x : Nat × SchedEntry) : State :=
  match kvGet s.gg.sched x.1 with
  | none => s
  | some e =>
    if e.needsLock || ((e.kind == 2 || e.kind == 3) && confirmDeferred e.tag s) then noteWait e (deferEntry x.1 e s)
    else runLate (logErr .corrected 0x54 .none x.1 e.kind (e.beat.toNat) s) x

/-! ### The receiver (R78–R88) -/

/-- Row GWORD_FRAME: a beat edge on the connector with its frame; `since` is the time since the last good edge and `off` the
distance from the local mark, in ps. -/
def gwordFrame (frame : BitVec 80) (since : W64) (off : Int) (s : State) : State :=
  gaugeEdge 0 (frameOk frame) (frameBeat frame) since.toNat off s

/-- The beat after lock: the source's number; a source one behind the local count repeats no number (R78, R86, R87). -/
def lockedBeat (num : W64) (s : State) : W64 :=
  if gaugeLost s && decide (num.toNat + 1 = s.gg.beat.toNat) then s.gg.beat else num

/-- Row GAUGE_LOCK: after 16 good beats the receiver locks; jumped-over entries run or join the deferred set (R78, R83, R86). -/
def gaugeLock (s : State) : State :=
  if s.gg.state ≠ .locking then s
  else match lockSource s.gg with
  | none => s
  | some i =>
    let num := lockedBeat (s.gg.src i).num s
    let jumped := decide (gaugeLost s = true ∧ s.gg.beat.toNat + 1 < num.toNat)
    let resume := BitVec.ofNat 64 ((num.toNat / 256 + 1) * 256)
    let over_ := schedSorted (s.gg.sched.filter (fun x => jumped && !x.2.deferred && decide (x.2.beat.toNat < num.toNat)))
    let s := setGState .locked { s with gg := { s.gg with
      beat := num, phase := 0, selected := i, lost := false, everLocked := true, rebase := false, rejected := 0, holdBeats := 0
      resume := some resume } }
    if s.er.fatal then s else over_.foldl runJumped s

/-- Row MISSING_EDGE: a beat of a source does not arrive (R78, R88). A source that GAUGE_CONFIG no longer names and that is still
selected brings no more beats, and is lost in the same way. -/
def missingEdge (i : Fin 2) (s : State) : State :=
  if !operational s then s
  else if s.gg.state = .locked ∧ i.val = s.gg.selected then misbehave 2 s
  else if sourceUsed s.gg.cfg i.val then { s with gg := s.gg.setSrc i.val (s.gg.src i.val).bad }
  else s

/-- Row LOCAL_BEAT (R81). -/
def localBeatRow (s : State) : State := if operational s then localBeat s else s

/-- The deferred step confirms, each with its entry. -/
def deferredConfirms (s : State) : List (Nat × SchedEntry) := s.gg.sched.filter (fun x => x.2.kind == 1 && x.2.deferred)

/-- Row HOLDOVER_BEAT_1000: HOLDOVER becomes FREE_RUN; a deferred step confirm and its step's window are abandoned (R81, R84). -/
def holdover1000 (s : State) : State :=
  if !gaugeLost s ∨ s.gg.holdBeats.toNat < 1000 then s
  else
    let cs := deferredConfirms s
    let s := if s.gg.state = .holdover then setGState .freeRun s else s
    if s.er.fatal then s
    else
      let s := cs.foldl (fun s x =>
        let s := if windowOpen (namedStep x.2.cmd) s then (abandonWindow s).2 else s
        abandonOwner { s with gg := { s.gg with sched := kvErase s.gg.sched x.1 } } x.2) s
      s

end Sys2Proof.Machine
end

