-- ==== Sys2Proof/Machine/Reset.lean ====
section
/-! DEFINITION. Reset triggers, the quiesce, and what each kind of reset keeps (05_cast_on_and_reset.md R98–R115, R536, R541–R548). -/

namespace Sys2Proof.Machine

open Sys2Proof

/-- Change the reset unit. -/
def modRst (f : ResetUnit → ResetUnit) (s : State) : State := { s with rst := f s.rst }

/-! ### What is lost -/

/-- Configuration space at its defaults (R99). -/
def configReset (s : State) : State :=
  { s with hl := { s.hl with bme := false, bmeArmed := false, d3hot := false, mse := true, funcMask := false } }

/-- What a PERST# reset and an FLR drop beyond a warm reset (R99, R464, R536): the queue pairs with their commands, the fault ring, the
log mirror, and the registers that return to their reset values. The device never writes through them again. -/
def dropHost (s : State) : State :=
  { s with
    mb := {}
    hl := { up := s.hl.up, width := s.hl.width, rate := s.hl.rate, flit := s.hl.flit, cxl := s.hl.cxl, cxlAtCastOn := s.hl.cxlAtCastOn
            violCount := s.hl.violCount, apRefused := s.hl.apRefused }
    er := { s.er with mask := 0, mirrorEn := false, mirrorBase := 0 }
    ram := { s.ram with memSel := 0 }
    sq := { s.sq with sel := 0 }
    tx := { s.tx with ringSet := false, ringBase := 0, frHead := 0, frTail := 0, frPhase := true, frCount := 0 }
    fw := { s.fw with applying := s.fw.applying.map (fun a => { a with owner := none }) }
    stp := { s.stp with live := s.stp.live.map (fun x => { x with closer := none }) } }

/-- The link goes down with PERST# (R99). -/
def linkDrop (s : State) : State := { s with hl := { s.hl with up := false, width := 0, rate := 0, flit := false, cxl := false } }

/-! ### Cold reset (R98, R99, R108) -/

/-- The drives' contents, which no reset of the module touches. -/
def driveOnly (d : Drive) : Drive := { data := d.data }

/-- The state a cold reset leaves: module flash, the drives with their step records, host memory, the pins, and nothing else (R99,
R108, R541). -/
def coldState (kind : ResetKind) (phase : Phase) (s : State) : State :=
  let watched (m : Fin 88) (p : PowerUnit) : PowerUnit :=
    { p with monitors := vmod p.monitors m (fun x => { x with value := s.pm.monitors[m].value }) }
  { (default0 : State) with
    pending := s.pending, out := s.out, freeCtr := s.freeCtr, host := s.host, hostBad := s.hostBad
    pins := s.pins
    res := { drives := s.res.drives.map driveOnly }
    stp := { durable := s.stp.durable }
    fw := { banks := s.fw.banks, running := s.fw.running, slots := s.fw.slots, tags := s.fw.tags, tagCounts := s.fw.tagCounts }
    pm := watched 46 (watched 47 { brake := s.pins.pwrBrake })
    rst := { phase := phase, lastReset := kind
             report := { durableValid := granted 3 s, escalated := decide (kind = .escalated) } } }
where
  /-- every field at the value of a power-on reset -/
  default0 : State := {}

/-- A cold reset of the powered module (R547, R548): the trip latch clears. -/
def coldReset (kind : ResetKind) (s : State) : State :=
  let s := coldState kind .pinWait s
  { s with pins := { s.pins with thermTrip := false } }

/-- Power good is lost (R541, R544): everything but module flash goes; the trip latch holds with the auxiliary input (R548). -/
def powerOff (s : State) : State :=
  let s := coldState .powerOn .off s
  { s with pins := { s.pins with mainValid := false, powerGood := false } }

/-- Row POWER_GOOD (R89 S0, R540, R542): both inputs are valid, and neither monitor 46 nor 47 stands at its trip threshold. Whether
FLASH_TIER was granted before the power went is what R108 asks. -/
def powerGood (s : State) : State :=
  let hot (m : Fin 88) : Bool := decide (tripThreshold m.val ≤ (s.pm.monitors[m]).value.toInt)
  if s.rst.phase ≠ .off ∨ hot 46 ∨ hot 47 then s
  else
    let before := s.rst.report.durableValid
    let s := modRst (fun r => { r with report := { r.report with durableValid := before } }) (coldReset .powerOn s)
    { s with pins := { s.pins with mainValid := true, auxValid := true, powerGood := true } }

/-- Row INPUT_VOLTAGE_EXCURSION, with the main input in mV (R541). -/
def inputExcursion (mv : BitVec 32) (s : State) : State :=
  if s.rst.phase ≠ .off ∧ (mv.toNat < 38000 ∨ 62000 < mv.toNat) then powerOff s else s

/-- Row RAIL_EXCURSION, with the voltage monitor 2–23 and its rail in mV (R544). -/
def railExcursion (i : Fin 24) (mv : BitVec 32) (s : State) : State :=
  if s.rst.phase ≠ .off ∧ 2 ≤ i.val ∧ railOutside i.val s.pm.speedBin.toNat 2 mv.toNat = true then powerOff s else s

/-- Row AUX_INPUT_REMOVED (R548): the trip latch and its driver lose power. -/
def auxRemoved (s : State) : State := { s with pins := { s.pins with auxValid := false, thermTrip := false } }

/-! ### Triggers (R98, R100, R547) -/

/-- A cold bring-up is in progress. -/
def coldBusy (s : State) : Bool :=
  !s.rst.warm && !s.rst.held && (decide (s.rst.phase = .pinWait) || (decide (s.rst.phase = .up) && !s.rst.ready))

/-- A reset of any kind is in progress. -/
def resetBusy (s : State) : Bool :=
  decide (s.rst.phase = .quiesce) || decide (s.rst.phase = .pinWait) || (decide (s.rst.phase = .up) && !s.rst.ready)

/-- A cold trigger: it merges into a cold reset in progress, and replaces a narrower one (R98). -/
def coldTrigger (kind : ResetKind) (s : State) : State :=
  if s.rst.phase = .off ∨ coldBusy s = true then s else coldReset kind s

/-- The quiesce begins (R100): no new command is taken. -/
def quiesceStart (kind : ResetKind) (s : State) : State :=
  modRst (fun r => { r with ready := false, phase := .quiesce, lastReset := kind, warm := true, warmAsked := none,
                            report := { durableValid := granted 3 s } }) s

/-- A warm trigger or FLR (R98, R475): not acted on without power, in a held stage or while THERM_TRIP# is latched; merged into a reset in
progress, of which LAST_RESET keeps the cause. `drop`: it drops the queue pairs and the fault ring. -/
def warmTrigger (kind : ResetKind) (drop : Bool) (s : State) : State :=
  if s.rst.phase = .off ∨ s.rst.held = true ∨ s.pins.thermTrip = true then s
  else
    let s' := if drop && !coldBusy s then dropHost s else s
    if resetBusy s then s' else quiesceStart kind { s' with mb := { s'.mb with negotiated := s.mb.negotiated, features := s.mb.features } }

/-- Row MOD_RESET_ASSERT: low for 10 µs (R547). -/
def modResetAssert (s : State) : State := coldTrigger .modReset { s with pins := { s.pins with modReset := true } }

/-- Row MOD_RESET_DEASSERT (R548). -/
def modResetDeassert (s : State) : State := { s with pins := { s.pins with modReset := false } }

/-- Row WARM_RESET_ASSERT: low for 1 µs (R547). -/
def warmResetAssert (s : State) : State := warmTrigger .warmPin false { s with pins := { s.pins with warmReset := true } }

/-- Row WARM_RESET_DEASSERT (R548). -/
def warmResetDeassert (s : State) : State := { s with pins := { s.pins with warmReset := false } }

/-- Row PERST_ASSERT: the link and configuration space are reset, and a warm reset drops the queue pairs (R99). -/
def perstAssert (s : State) : State :=
  warmTrigger .perst true (configReset (linkDrop { s with pins := { s.pins with perst := true } }))

/-- The link begins to train: from stage S1 on with PERST# high (R91). -/
def linkStart (s : State) : State :=
  if s.rst.phase = .up ∧ s.pins.perst = false ∧ s.hl.up = false then emit .linkTraining s else s

/-- Row PERST_DEASSERT (R91). -/
def perstDeassert (s : State) : State := linkStart { s with pins := { s.pins with perst := false } }

/-- Row FLR (R99, R101): it arrives over the link. -/
def flrReset (s : State) : State := if s.hl.up then warmTrigger .flr true (configReset s) else s

/-! ### The end of the quiesce (R99–R104, R109, R114) -/

/-- Every fault-in ends: its frame is free and the block stays on its home (R109). -/
def cancelFaultIns (s : State) : State :=
  let s := s.res.faultIns.foldl (fun s x =>
    let s := match x.frame with
      | some f => modRes (fun r => { r with used := kvErase r.used f }) s
      | none => s
    blockMod x.table x.blk (fun d => { d with busy := false, frame := 0 }) s) s
  modRes (fun r => { r with faultIns := [] }) s

/-- Every write-back ends and its block stays resident and dirty (R109, R223); outstanding NVMe commands are abandoned (R100), and
NPERST# goes low (R554). -/
def cancelTransfers (s : State) : State :=
  let s := s.res.writeBacks.foldl (fun s w => wbCancel w.table w.blk s) (cancelFaultIns s)
  modRes (fun r => { r with drives := r.drives.map (fun d => { d with cmds := [], nperst := true }) }) s

/-- The pool updates a reset interrupts: an INVAL_RANGE that has its acknowledgements, an AS_DESTROY whose frames were being withdrawn
(R562). -/
def owedUpdate (i : Inval) : Option (Nat × Nat × Nat) :=
  if i.destroy then some (i.tag, 0, 2 ^ 52) else if i.waiting = 0 then some (i.tag, i.base, i.len) else none

/-- The Translation Hub after a warm reset (R109, R248, R536, R562). -/
def txReset (s : State) : State :=
  modTx (fun x => { x with
    faults := [], replayed := [], streams := [], cache := [], invals := [], owed := x.owed ++ x.invals.filterMap owedUpdate
    nextFault := 1, frAge := 0, ackExpected := 0, ackReceived := 0 }) s

/-- Every launch ends ABANDONED with the threads it lost (R103). -/
def endLaunches (s : State) : State :=
  let lives (l : Launch) : Nat := (s.th.threads.filter (fun t => t.2.launch == l.id && t.2.hold != .ended)).length
  let n := (s.th.launches.map lives).sum
  let s := s.th.launches.foldl (fun s l =>
    modCmd (Fin.ofNat 64 l.qp) l.cid (fun c => { c with r0 := BitVec.ofNat 64 (l.lost + lives l) }) s) s
  let k := s.th.launches.length
  modRst (fun r => { r with report := { r.report with launches := k, threads := n } })
    (modTh (fun t => { t with threads := [], launches := [], copies := [], claims := [], pools := [] }) s)

/-- What the tiles hold beside the threads is lost: operations, staging, accumulators, hot sets and the tiles' copies (R99, R413). -/
def endTiles (s : State) : State :=
  let s := modPurl (fun p => { p with ops := [] }) { s with tl := {} }
  modTbl (fun x => { x with hotSets := [], refreshing := [], replicas := x.replicas.map (fun r => { r with tiles := 0 }) }) s

/-- Steps, window and confirms across the reset (R77, R104, R106). -/
def stepsReset (held : Nat) (s : State) : State :=
  let ab := s.stp.window.any (fun w => w.state == .opened)
  let s := modStp (fun x => { x with
    lastAbandoned := match x.window with
      | some w => if w.state = .opened then some w.step else if w.state = .validating then none else x.lastAbandoned
      | none => x.lastAbandoned
    window := x.window.map (fun w =>
      if w.state = .opened then { w with state := .abandoned, frogged := held }
      else if w.state = .validating then { w with state := .closed } else w)
    heldConfirm := none, validating := none
    live := x.live.map (fun y => { y with flipReady := true }) }) s
  { s with ram := { s.ram with slot := none, windowOpen := false, repairs := [] }
           gg := { cfg := s.gg.cfg }
           rst := { s.rst with report := { s.rst.report with specAbandoned := ab } } }

/-- The fabric across the reset (R99, R114): every port is down, what had arrived and was not answered is discarded, and the ledgers
count what survives. -/
def fabricReset (s : State) : State :=
  let s := (List.finRange 9).foldl (fun s p => dropArrivals p s) s
  let s := (s.fab.gets.filter (fun g => g.result.isNone)).foldl (fun s g => modCount g.dest (fun c => { c with gets := c.gets - 1 }) s) s
  let s := modPurl (fun q => { q with store := q.store.map (fun r => if r.wait = .lag then { r with wait := .answer } else r) }) s
  modFab (fun f => { f with
    gets := [], services := [], loads := [], links := [], routes := []
    ports := f.ports.map (fun x => { x.cleared with
      state := if x.enabled then .down else .disabled, plies := 0, peer := 0, rtt := 0, delay := 0, waiters := [], periods := 0, inSecond := 0 }) }) s

/-- A queue pair across a warm reset: only a disable of queue pair 0 goes on being stopped (R99, R102). -/
def QueuePair.survive (q : QueuePair) : QueuePair :=
  match q.stop with
  | some (some _) => { q with stop := none }
  | _ => q

/-- The mailbox keeps its queue pairs and their commands (R99, R102); a QP_DELETE under way ends with its command, a disable of queue pair 0
goes on. -/
def mailboxReset (s : State) : State :=
  let s := { s with mb := { s.mb with
    negotiated := false, features := 0, qps := s.mb.qps.map QueuePair.survive } }
  { s with hl := { s.hl with low := [], latch := [] } }

/-- A trial that a reset ends counts as failed (R520 step 1, R521); at FALLBACKS 2 the device restarts in ROM recovery mode. -/
def trialReset (s : State) : State :=
  let s := if inTrial s then
      let s := trialFail s
      if 2 ≤ (runBank s).fallbacks then modRst (fun r => { r with recovery := true }) s else s
    else s
  modFw (fun f => { f with chainUp := 0xFF, chainMask := 0 }) s

/-- The quiesce drains the tiles' Purls: local updates are applied or parked, remote ones go to the retransmit store (R100). -/
def quiesceDrain (s : State) : State :=
  (List.range 16).foldl (fun s t => drainPurl t s) { s with tl := { s.tl with hooks := [], retained := [] } }

/-- Row QUIESCE_COMPLETE after `ns`: the quiesce has ended once every accepted update is applied, parked or in the retransmit store
(R100); the reset then takes what it takes (R99). -/
def quiesceComplete (ns : W32) (s : State) : State :=
  if s.rst.phase ≠ .quiesce then s
  else
    let held := (s.tl.hooks.filter (fun x => x.spec)).length
    let d := quiesceDrain s
    if !d.pu.slots.isEmpty then s
    else
      let gone := sqDiscards d
      let s := sqFlushAll (mailboxReset (trialReset (fabricReset (stepsReset held (txReset (cancelTransfers (endTiles (endLaunches d))))))))
      let s := powerReset false s
      let s := { s with
        er := { s.er with fatal := false, fatalSeq := 0, fatalCause := 0, todo := [] }
        ty := { s.ty with check := none }
        sb := { s.sb with spdm := .initial } }
      modRst (fun r => { r with
        phase := .pinWait, bound := false, closePending := false, recountDone := false, hostOn := false, degraded := false, failCode := 0
        bindOff := none, resumeAt := 0
        report := { r.report with requeued := s.pu.store.length, discarded := gone, quiesceNs := ns.toNat } }) s

/-- Row QUIESCE_TIMEOUT: the quiesce has not ended within 1 ms; it is logged, and the reset completes as a cold reset (R100). -/
def quiesceTimeout (ns : W32) (s : State) : State :=
  if s.rst.phase ≠ .quiesce then s
  else coldReset .escalated (logErr .fatal 0x67 .device 0 0 ns.toNat s)

/-- Row TRIAL_WINDOW_EXPIRY (R520): the trial has failed and a warm reset restores the previous image; the entry follows after READY. -/
def trialExpiry (s : State) : State :=
  if running s && inTrial s then
    let b := s.fw.running
    let v := (runBank s).version
    let s := trialFail s
    let s := modFw (fun f => { f with fallback := some (b.val, v) }) s
    let s := if 2 ≤ (runBank s).fallbacks then modRst (fun r => { r with recovery := true }) s else s
    quiesceStart .warmCmd s
  else s

end Sys2Proof.Machine
end

