-- ==== Sys2Proof/Machine/CastOn.lean ====
section
/-! DEFINITION. The cast-on stages (05_cast_on_and_reset.md R89–R95, R102–R108, R114; 25, R513, R520, R523; 27, R548). -/

namespace Sys2Proof.Machine

open Sys2Proof

/-- A stage fails or exceeds its time (R95): FAIL_CODE, the log entry, and the device is held in the stage. -/
def stageFail (code : Nat) (s : State) : State :=
  logErr .fatal 0x66 .device s.rst.stage code 0 (modRst (fun r => { r with failCode := code, held := true }) s)

/-- ROM recovery mode is entered (R90, R523). -/
def recoveryEnter (code : Nat) (s : State) : State := modRst (fun r => { r with recovery := true, failCode := code }) s

/-! ### S1 and S2 -/

/-- Damaged banks and slots count as not valid (R90, R513). -/
def markDamage (b : BootReport) (s : State) : State :=
  modFw (fun f => { f with
    banks := f.banks.zipWith (fun (x : Bank) (bad : Bool) => if bad then { x with state := 0 } else x) #v[b.badBanks.getLsbD 0, b.badBanks.getLsbD 1]
    slots := f.slots.zipWith (fun (x : KeySlot) (bad : Bool) => if bad then { x with valid := false } else x)
      #v[b.badSlots.getLsbD 0, b.badSlots.getLsbD 1]
    calDefault := !b.idOk }) s

/-- Neither owner key slot is valid. -/
def noKey (s : State) : Bool := !(s.fw.slots[(0 : Fin 2)]).valid && !(s.fw.slots[(1 : Fin 2)]).valid

/-- Stage S1 of a cold reset (R90, R499, R513, R523). -/
def bootCold (b : BootReport) (s : State) : State :=
  if !b.fuseOk then stageFail 4 s
  else
    let s := markDamage b { s with pins := { s.pins with recovery := b.strap } }
    let s := modFw (fun f => { f with key := keyAtBoot s }) s
    if noKey s then recoveryEnter 5 s
    else if b.strap then recoveryEnter 0 s
    else match bootOrder s with
      | (none, s) => recoveryEnter 0 s
      | (some [], s) => recoveryEnter 1 s
      | (some (_ :: _), s) => s

/-- Row CAST_ON_S1: it waits for MOD_RESET#, and after a quiesce for every reset pin (R89, R548). A warm reset checks the image that stands in
Pyrat-M SRAM. -/
def castOnS1 (b : BootReport) (s : State) : State :=
  if s.rst.phase ≠ .pinWait ∨ s.pins.modReset = true ∨ (s.rst.warm = true ∧ (s.pins.warmReset = true ∨ s.pins.perst = true)) then s
  else
    let s := linkStart (modRst (fun r => { r with phase := .up, stage := 1 }) s)
    if s.rst.warm then s else bootCold b s

/-- A bring-up stage `k` may follow stage `j` now. -/
def stageAfter (j : Nat) (s : State) : Bool := decide (s.rst.phase = .up) && decide (s.rst.stage = j) && !s.rst.ready && !s.rst.held

/-- Row CAST_ON_S2: the first candidate whose image passes its checks runs (R513 step 3); a warm reset skips the stage (R89). -/
def castOnS2 (s : State) : State :=
  if !stageAfter 1 s || s.rst.warm || s.rst.recovery then s
  else
    let s := modRst (fun r => { r with stage := 2 }) s
    match ((bootOrder s).1.getD []).find? (fun i => bankBoots s.fw.banks[i] s) with
    | some i => modFw (fun f => { f with running := i }) s
    | none => recoveryEnter 1 s

/-! ### S3 -/

/-- An excluded stack is logged and the device goes on degraded (R95; 02, Corners). -/
def excludeStack (m : BitVec 8) (s : State) (k : Nat) : State :=
  if m.getLsbD k then s else logErr .contained 0x68 .none k 0 0 s

/-- The drives are initialised (R226, R554). -/
def initDrives (h : HardwareReport) (s : State) : State :=
  initDrive 3 h.drive3 (initDrive 2 h.drive2 (initDrive 1 h.drive1 (initDrive 0 h.drive0 s)))

/-- Stage S3 of a cold reset: HBM training, the speed bin, the exponents of R62, and the last durable step where FLASH_TIER was granted and a
record is valid (R62, R89, R108, R472). -/
def trainCold (h : HardwareReport) (s : State) : State :=
  if h.stackSet = 0 then stageFail 2 s
  else
    let (v, s) := drawFree s
    let s := { s with
      ram := { s.ram with stackSet := h.stackSet, tiles := h.tiles }
      fab := { s.fab with usable := h.ports }
      pm := { s.pm with speedBin := BitVec.ofNat 8 (v.toNat % 8) }
      sq := { s.sq with expSet := true }
      rst := { s.rst with degraded := decide (h.stackSet ≠ 0xFF ∨ h.tiles ≠ 0xFFFF ∨ h.ports ≠ 0x1FF) } }
    let s := initDrives h ((List.range 8).foldl (excludeStack h.stackSet) s)
    let ok := s.rst.report.durableValid && decide (s.stp.durable ≠ 0) && s.res.drives.toList.any (fun d => d.usable)
    raise 75 (modRst (fun r => { r with recountDone := true, report := { r.report with
      durableValid := ok, lastDurable := if ok then s.stp.durable else 0, recountBalanced := true } }) s)

/-- The ledgers the firmware recounts at S3 (R114); those of the fabric, kinds 0x4 to 0x7, follow when the ports join. -/
def localLedger (id : Nat) : Bool := [1, 2, 3, 8, 9, 10].contains (id / 4096)

/-- A recount of ledgers: each that shows a deficit raises the dropped-stitch alarm (R114); RECOUNT_BALANCED says that none did. -/
def recount (which : Nat → Bool) (s : State) : State :=
  let bad := ((ledgerIds s).filter (fun i => which i && decide (0 < deficit i s))).map (fun i => (i, deficit i s))
  let s := bad.foldl raiseAlarm s
  modRst (fun r => { r with report := { r.report with recountBalanced := r.report.recountBalanced && bad.isEmpty } }) s

/-- The interrupted close, from the step journal (R106): the step and its stage, which resumes unless stage 6 was complete. -/
def journalReplay (s : State) : State :=
  match closingOf s with
  | some (st, k) =>
    if k < 7 then modRst (fun r => { r with resumeAt := k, closePending := true, report := { r.report with
      closeResumed := true, resumeStage := k, closingStep := st.num } }) s
    else modRst (fun r => { r with report := { r.report with closingStep := st.num } }) s
  | none => s

/-- Stage S3 of a warm reset: the drives, the owed pool updates, the journal and the local recount (R106, R108, R114, R562). -/
def trainWarm (h : HardwareReport) (s : State) : State :=
  let deg := decide (s.ram.stackSet ≠ 0xFF ∨ s.ram.tiles ≠ 0xFFFF ∨ s.fab.usable ≠ 0x1FF)
  let s := initDrives h (modRst (fun r => { r with degraded := deg }) s)
  let s := s.tx.owed.foldl (fun s o => rereadPool o.1 o.2.1 (o.2.1 + o.2.2) s) s
  let s := emptyWithdrawn (modTx (fun x => { x with owed := [] }) s)
  let ok := s.rst.report.durableValid && decide (s.stp.durable ≠ 0) && s.res.drives.toList.any (fun d => d.usable)
  let s := modRst (fun r => { r with report := { r.report with
    durableValid := ok, lastDurable := if ok then s.stp.durable else 0, recountBalanced := true } }) s
  recount localLedger (journalReplay s)

/-- Row CAST_ON_S3. -/
def castOnS3 (h : HardwareReport) (s : State) : State :=
  if s.rst.recovery || !stageAfter (if s.rst.warm then 1 else 2) s then s
  else
    let s := modRst (fun r => { r with stage := 3 }) s
    if s.rst.warm then trainWarm h s else trainCold h s

/-! ### S4, S5, S7 -/

/-- Row CAST_ON_S4: the host link function is enabled; what waited for it goes on (R91). ROM recovery mode runs it after S1 (R523). -/
def castOnS4 (s : State) : State :=
  if (if s.rst.recovery then stageAfter 1 s || stageAfter 2 s else stageAfter 3 s) then
    releaseHeld (modRst (fun r => { r with stage := 4, hostOn := true }) s)
  else s

/-- A command that its resumed work completes after the reset: a STEP_CLOSE that reached stage 1, an FW_STAGE whose apply runs (R102). -/
def resumes (n : Nat) (c : Cmd) (s : State) : Bool :=
  s.stp.live.any (fun x => x.closer == some (n, Entry.cid c.entry) && (match x.phase with
    | .closing _ => true
    | _ => false))
    || s.fw.applying.any (fun a => a.owner == some (n, Entry.cid c.entry))

/-- Complete the accepted commands of a queue pair with ABANDONED (R102, R103). -/
def abandonCmds (s : State) (n : Fin 64) : State :=
  let gone := (s.mb.qps[n]).cmds.filter (fun c => !resumes n.val c s)
  gone.foldl (fun s c => complete n (Entry.cid c.entry) stAbandoned 0
    (if Entry.opcode c.entry = 0x32 then c.r0 else 0) 0 s) s

/-- The enable of queue pair 0, or its disable, written before READY (R533). -/
def applyEnable (s : State) : State :=
  let st := (s.mb.qps[(0 : Fin 64)]).state
  if s.mb.ctrl.getLsbD 0 ∧ st = .disabled then enableQp0 s
  else if !s.mb.ctrl.getLsbD 0 ∧ st = .enabled then disableQp0 s
  else s

/-- The interim of a STEP_CLOSE that resumes at stage 2 (R560). -/
def closeInterim (s : State) : State :=
  if s.rst.resumeAt ≠ 2 then s
  else match (closingOf s).bind (fun x => x.1.closer) with
    | some (n, cid) =>
      let n := Fin.ofNat 64 n
      match findCmd n cid s with
      | some c =>
        let d := (s.mb.qps[n]).deferAfter
        if c.interim || d == 0 then s
        else post n ⟨0, 0, c.sqHead, cid, stDeferred, true, false, 0x0011, d, Entry.noIrq c.entry⟩
          (modCmd n cid (fun c => { c with interim := true }) s)
      | none => s
    | none => s

/-- The failed trial is logged after READY (R520). -/
def logFallback (s : State) : State :=
  match s.fw.fallback with
  | some (b, v) => raise 74 (logErr .contained 0x59 .bank b v 0 (modFw (fun f => { f with fallback := none }) s))
  | none => s

/-- A close whose stage 6 was complete at the reset ends (R106). -/
def finishClose (s : State) : State :=
  match closingOf s with
  | some (_, 7) => closeStage7 s
  | _ => s

/-- Row CAST_ON_S5: READY is set and queue pair 0 is serviced (R92, R102, R533, R560). -/
def castOnS5 (s : State) : State :=
  if !stageAfter 4 s then s
  else
    let s := modRst (fun r => { r with stage := 5, ready := true }) s
    let s := if s.rst.warm then (List.finRange 64).foldl abandonCmds s else s
    finishClose (logFallback (standaloneCheck (closeInterim (releaseDoorbells (applyEnable s)))))

/-- A port trains once its stage has come. -/
def portStart (s : State) (p : Fin 9) : State :=
  let x := s.fab.ports[p]
  if x.enabled && s.fab.usable.getLsbD p.val && x.state == .down then modPort p (fun x => { x.cleared with state := .training }) s else s

/-- Row CAST_ON_S7: the device is operational; the Henur ports train, and a standalone device takes its grant (R93, R481). -/
def castOnS7 (s : State) : State :=
  if running s && decide (s.rst.stage = 6) && s.mb.negotiated && !s.rst.recovery then
    (List.finRange 9).foldl portStart (grantAtS7 (modRst (fun r => { r with stage := 7 }) s))
  else s

/-- Row STAGE_TIME_EXCEEDED: the stage under way has passed its maximum (R95). -/
def stageTime (s : State) : State :=
  if s.rst.phase = .up ∧ 1 ≤ s.rst.stage ∧ s.rst.ready = false ∧ s.rst.held = false then stageFail 3 s else s

/-- Row CLOSE_RESUME: after S5 the interrupted stage restarts from its beginning (R106). -/
def closeResume (s : State) : State :=
  match closingOf s with
  | some (st, _) =>
    if running s && decide (s.rst.resumeAt ≠ 0) then stageBegin st.num s.rst.resumeAt (modRst (fun r => { r with resumeAt := 0 }) s) else s
  | none => s

/-- The close goes on: the firmware runs, no fatal state, and nothing waits for CLOSE_RESUME (R106, R467). -/
def closeRuns (s : State) : Bool := running s && !s.er.fatal && decide (s.rst.resumeAt = 0)

/-- RECOUNT_DONE once every port has joined or been fenced (R114); the reset report is then complete (R105). -/
def recountCheck (s : State) : State :=
  if operational s && !s.rst.recountDone && portsSettled s then
    raise 75 (modRst (fun r => { r with recountDone := true }) (recount (fun i => !localLedger i) s))
  else s

end Sys2Proof.Machine
end

