-- ==== Sys2Proof/Machine/Settle.lean ====
section
/-! DEFINITION. What follows an event without another command: containment of logged errors (22, R466, R467), and the work of the firmware
and the engines that an event has made possible. Every row ends with `settle`. -/

namespace Sys2Proof.Machine

open Sys2Proof

/-! ### Containment (R466, R467) -/

/-- The unit of a contained entry: word errors name a stitch-queue instance, whose unit R45 gives. -/
def Containment.place (c : Containment) : Nat :=
  if c.cause = 0x61 ∨ c.cause = 0x62 then
    match c.scope with
    | .tile => c.unit / 16
    | .henurPort => (c.unit - 0x200) / 16
    | .nvmePort => (c.unit - 0x400) / 64
    | .queuePair => ((Config.sqMailboxQp c.unit).map (·.val)).getD 0
    | _ => c.unit
  else c.unit

/-- A port leaves with reason 2 and goes down, and does not train again before a reset (R467). -/
def portFatal (s : State) (p : Fin 9) : State :=
  let x := s.fab.ports[p]
  if x.state = .disabled then s
  else modPort p (fun x => { x.cleared with state := .down, plies := 0, peer := 0 }) (dropArrivals p (sendLeave p 2 s))

/-- The fatal state (R467): the draw goes to the bottom of the ladder. -/
def fatalEnter (s : State) : State :=
  let enter (s : State) : State := { s with er := { s.er with fatal := true } }
  (List.finRange 9).foldl portFatal (withLadder (fun s => modPm (fun p => { p with cap := 450, ramping := false, ladder := 44 }) (enter s)) s)

/-- Every step that is open, confirming or closing is damaged (R456, R466). -/
def damageSteps (s : State) : State := modStp (fun p => { p with live := p.live.map (fun y => { y with damaged := true }) }) s

/-- The action of one contained or fatal entry. A stage failure holds the device instead of entering the fatal state; drives and banks have had
theirs from the rule that logged. -/
def containOne (s : State) (c : Containment) : State :=
  if c.cls = .fatal then (if c.cause = 0x66 ∨ c.cause = 0x67 then s else fatalEnter s)
  else
    match c.scope with
    | .tile => if c.place < 16 ∧ s.ram.tiles.getLsbD c.place then (tileReset (Fin.ofNat 16 c.place) s).2 else s
    | .henurPort =>
      let p : Fin 9 := Fin.ofNat 9 c.place
      if (c.cause = 0x61 ∨ c.cause = 0x62) ∧ ((s.fab.ports[p]).state = .joined ∨ (s.fab.ports[p]).state = .training) then portReset p s
      else s
    | .nvmePort =>
      let p : Fin 4 := Fin.ofNat 4 c.place
      if (s.res.drives[p]).usable then fenceDrive p s else s
    | .queuePair => quarantine (Fin.ofNat 64 c.place) c.cause s
    | .step => if c.cause = 0x38 then damageSteps s else s
    | _ => s

/-- Take the actions of the entries just written, in order; an action's own entry only records it. -/
def contain (s : State) : State :=
  let todo := s.er.todo
  todo.foldl containOne { s with er := { s.er with todo := [] } }

/-! ### Poison that has cleared (R266, R271) -/

/-- Contexts that stalled on a sector under repair go on, and its parked records are applied. -/
def clearedSectors (s : State) : State :=
  if s.ram.cleared.isEmpty then s
  else releaseCleared (s.ram.cleared.foldl (fun s x => releaseStalls (.repair x) .none s) s)

/-! ### Threads and launches (R250, R284–R291) -/

/-- A context whose wait has ended: a failed stall is delivered as its fault, a satisfied WAITC or fence goes on. -/
def wakeThread (s : State) (x : Nat × Thread) : State :=
  let key := x.1
  match threadAt key s with
  | none => s
  | some t =>
    match t.hold with
    | .stall (.failed st) xf => threadFault key st none (xf ||| BitVec.ofNat 64 st) t.rep s
    | .waitc k n => if (t.cc[k]).out ≤ n then reissue key (modThread key (fun t => { t with hold := .ready }) s) else s
    | .fence f => if fenceClear key f t s then reissue key (modThread key (fun t => { t with hold := .ready }) s) else s
    | _ => s

/-- The context of an ended thread is released once its asynchronous operations have completed; its retained operations and stream descriptors
go with it (R245, R284, R358). -/
def releaseThread (s : State) (x : Nat × Thread) : State :=
  let key := x.1
  match threadAt key s with
  | none => s
  | some t =>
    if t.hold = .ended ∧ t.busy = false then
      let s := [0, 1, 2, 3].foldl (fun s k => dropRetained key k s) (freeContext key s)
      pruneFaults (modTx (fun y => { y with streams := y.streams.filter (fun z => z.thread != key) }) s)
    else s

/-- Every context goes on where it can; ended launches complete. -/
def threadsOn (s : State) : State :=
  if !engines s then s
  else
    let s := s.th.threads.foldl wakeThread s
    let s := s.th.threads.foldl releaseThread s
    s.th.launches.foldl launchEnd s

/-! ### Commands that run their own work (R157, R170) -/

/-- The opcodes the catalogue assigns (R165). -/
def assignedOps : List Nat :=
  [0x01, 0x02, 0x03, 0x04, 0x05, 0x06, 0x07, 0x10, 0x11, 0x12, 0x13, 0x14, 0x15, 0x16, 0x20, 0x21, 0x22, 0x23, 0x24, 0x25, 0x26, 0x27, 0x28, 0x29,
   0x2A, 0x30, 0x31, 0x32, 0x33, 0x34, 0x35, 0x36, 0x37, 0x38, 0x39]
    ++ [0x40, 0x41, 0x42, 0x43, 0x44, 0x45, 0x50, 0x51, 0x52, 0x53, 0x54, 0x55, 0x56, 0x57, 0x58, 0x60, 0x61, 0x62, 0x63, 0x70, 0x71, 0x72, 0x73, 0x74,
        0x75, 0x76, 0x77, 0x78, 0x79]

/-- A front command whose opcode is not assigned begins and completes with ERR_MALFORMED, SUBCODE 0 (R165). -/
def unassignedFront (s : State) (n : Fin 64) : State :=
  match frontCmd n s with
  | some (c, earlier) =>
    if !assignedOps.contains (Entry.opcode c.entry) && mayBegin n c earlier s then
      complete n (Entry.cid c.entry) (if gateShut (Entry.opcode c.entry) s then stState else stMalformed) 0 0 0 s
    else s
  | none => s

/-- The address of the first row of a list of copies that is not loaded. -/
def firstUnloaded (id : Nat) (rows : List RowCopy) (s : State) : Nat :=
  match tableOf id s, rows.find? (fun r => r.data.isEmpty) with
  | some t, some r => t.slotVa ((t.slot r.row).getD 0)
  | _, _ => 0

/-- A HOTSET_LOAD goes on, or ends with a fill that failed (R179). -/
def hotProgress (n : Fin 64) (c : Cmd) (s : State) : State :=
  let h := namedHotSet c.entry
  match c.stall with
  | .none => settleCmd n (Entry.cid c.entry) (hotLoadOn n c.entry s)
  | .failed st =>
    let va := firstUnloaded (namedTable c.entry) (((kvGet s.tbl.hotSets h).map (·.rows)).getD []) s
    settleCmd n (Entry.cid c.entry) (.fail st 0 (BitVec.ofNat 64 va), dropHotSet h s)
  | _ => s

/-- A REPLICA_SET goes on, or ends with a fill that failed (R181). -/
def replicaProgress (n : Fin 64) (c : Cmd) (s : State) : State :=
  let id := namedTable c.entry
  match c.stall with
  | .none => settleCmd n (Entry.cid c.entry) (replicaOn n c.entry s)
  | .failed st =>
    match findReplica id (repFirst c.entry) (repCount c.entry) s with
    | some i =>
      let va := firstUnloaded id (((s.tbl.replicas[i]?).map (·.rows)).getD []) s
      settleCmd n (Entry.cid c.entry) (.fail st 0 (BitVec.ofNat 64 va), modTbl (fun u => { u with replicas := u.replicas.eraseIdx i }) s)
    | none => s
  | _ => s

/-- A LAUNCH whose block is being read goes on (R279). -/
def launchProgress (n : Fin 64) (c : Cmd) (s : State) : State :=
  let cid := Entry.cid c.entry
  if s.th.launches.any (fun l => l.qp == n.val && l.cid == cid) then s
  else match c.stall with
  | .none => settleCmd n cid (launchOn n c.entry s)
  | .failed st => settleCmd n cid (.fail st (baseSub st) (BitVec.ofNat 64 (efld c.entry 16 8)), s)
  | _ => s

/-- A begun command's own work goes on as far as it can. -/
def progressCmd (n : Fin 64) (s : State) (c0 : Cmd) : State :=
  let cid := Entry.cid c0.entry
  match findCmd n cid s with
  | none => s
  | some c =>
    let op := Entry.opcode c.entry
    if !c.begun then s
    else if op = 0x23 then (if c.effective then hotProgress n c s else s)
    else if op = 0x28 then (if c.effective then replicaProgress n c s else s)
    else if op = 0x26 then
      (if c.effective && (c.stall == .none || (match c.stall with
          | .failed _ => true
          | _ => false)) then
        settleCmd n cid (prefetchOn n c.entry (2 * (efld c.entry 24 8 / 65536) + 2) s) else s)
    else if op = 0x32 then launchProgress n c s
    else if op = 0x14 then (if c.wait = some resInvals then settleCmd n cid (cmdInvalRange.run n c.entry s) else s)
    else if op = 0x62 then (if !c.effective && s.ty.check.isNone then settleCmd n cid (cmdTallyAudit.run n c.entry s) else s)
    else if op = 0x56 then (if capReached s then settleCmd n cid (okEnd (capNow s) 0, s) else s)
    else s

/-- The commands of the queue pairs of one class. -/
def progressClass (s : State) (k : Nat) : State :=
  (List.finRange 64).foldl (fun s n =>
    let q := s.mb.qps[n]
    if q.cls.val = k then q.cmds.foldl (progressCmd n) s else s) s

/-- Commands go on in class order (R444); in the fatal state they stay pending (R467). -/
def commandsOn (s : State) : State :=
  if !running s || s.er.fatal || s.mb.qps.toList.all (fun q => q.cmds.isEmpty) then s
  else [0, 1, 2, 3].foldl progressClass ((List.finRange 64).foldl unassignedFront s)

/-! ### The firmware's other work -/

/-- A check of ledgers with nothing left to re-read ends (R453). -/
def checkEnd (s : State) : State :=
  match s.ty.check with
  | some c =>
    if c.rereads.isEmpty then
      match c.purpose with
      | .audit n cid => auditEnd c n cid s
      | .close n => closeBalanced c n s
    else s
  | none => s

/-- A WARM_RESET begins its reset once its completion stands in host memory (R174). -/
def warmCheck (s : State) : State :=
  match s.rst.warmAsked with
  | some n => if s.hl.held.isEmpty && (s.mb.qps[(Fin.ofNat 64 n : Fin 64)]).waiting.isEmpty then warmTrigger .warmCmd false s else s
  | none => s

/-- The engines' and the firmware's work, each part as far as it can go now. -/
def engineWork (s : State) : State :=
  if !engines s then s
  else
    let s := s.pu.ops.foldl rowAddResume s
    let s := storeSlots s
    let s := runServices s
    let s := retryFaultIns s
    let s := s.tbl.refreshing.foldl refreshHot s
    finishValidation s

/-- The firmware's work. -/
def firmwareWork (s : State) : State :=
  if !running s || s.er.fatal then s
  else
    let s := if closeRuns s then drainProgress s else s
    bindRun 8 (releaseLoads (invalsProgress (emptyWithdrawn s)))

/-! ### Settling -/

/-- Requests that need the host are due: held writes, a ring entry to fetch, a T2 row block to read or write (R120). -/
def hostDue (s : State) : Bool :=
  let near := { s with hl := { s.hl with up := true, bme := true, d3hot := false } }
  !s.hl.held.isEmpty || (List.finRange 64).any (fun n => mayFetch n near) || s.res.writeBacks.any (fun w => w.tier == 2)
    || s.res.faultIns.any (fun x => x.frame.isSome && x.failed.isNone && (blockDir x.table x.blk s).any (fun d => d.loc == 2))
    || s.ram.repairs.any (fun r => r.source == 2 && !r.failed)

/-- The first hold since Bus Master Enable was 1 is still to be logged (R121). -/
def holdDue (s : State) : Bool := s.hl.bmeArmed && !s.hl.bme && hostDue s

/-- The first hold since Bus Master Enable was 1 is logged (R121, R138). -/
def holdCheck (s : State) : State :=
  if holdDue s then logFull .partner 0x0B .none 0 0 0 none (countViol { s with hl := { s.hl with bmeArmed := false } }) else s

/-- Nothing follows: no containment, cleared sector, command, thread, operation, transfer or check is left that an event could have moved on. -/
def quiet (s : State) : Bool :=
  s.er.todo.isEmpty && s.ram.cleared.isEmpty && s.mb.qps.toList.all (fun q => q.cmds.isEmpty) && s.th.threads.isEmpty
    && s.th.launches.isEmpty && s.pu.ops.isEmpty && s.pu.slots.isEmpty && (closingOf s).isNone && s.stp.validating.isNone
    && s.fab.services.isEmpty && s.res.faultIns.isEmpty && s.fab.loads.isEmpty && s.rst.bindOff.isNone && s.tx.invals.isEmpty
    && (withdrawnFrames s).isEmpty && s.rst.warmAsked.isNone && s.ty.check.isNone && s.tbl.refreshing.isEmpty && s.ram.slot.isNone
    && (s.rst.recountDone || !operational s) && decide (powerState s = s.sb.lastState) && !holdDue s

/-- One round of what follows. -/
def settleRound (s : State) : State :=
  let s := clearedSectors (contain s)
  let s := engineWork (threadsOn s)
  let s := firmwareWork (checkEnd (commandsOn s))
  warmCheck (holdCheck (sensorCheck (scrubCheck (recountCheck s))))

/-- What follows an event: rounds of background work; what a round makes possible the next one does, and what is left the next event takes up. -/
def settle (s : State) : State :=
  if quiet s then s
  else
    let s := settleRound s
    if quiet s then s else settleRound (settleRound s)

/-! ### Rows -/

/-- The module is powered and out of its pin reset: its units take events. -/
def awake (s : State) : Bool := decide (s.rst.phase = .up ∨ s.rst.phase = .quiesce)

/-- A row's meaning: its effect and what follows. It always answers a next state. A module without power or held in reset takes no event but
those of its inputs and of cast-on. -/
def act (f : State → State) (s : State) : Host.Outcome State Fault Refusal := .next (if awake s then settle (f s) else s)

/-- A row of the inputs and of cast-on, which acts in every phase. -/
def actAny (f : State → State) (s : State) : Host.Outcome State Fault Refusal := .next (settle (f s))

/-- A close stage's row acts while the close goes on. -/
def closeRow (f : State → State) (s : State) : State := if closeRuns s then f s else s

/-- CSTS.CFS of a drive becomes 1: the drive is fenced at once (R229). -/
def controllerFatal (p : Fin 4) (s : State) : State := if (s.res.drives[p]).usable then fenceDrive p s else s

/-- A drive's link goes down: the drive is fenced at once (R229). -/
def nvmeLinkDown (p : Fin 4) (s : State) : State := if (s.res.drives[p]).usable then fenceDrive p s else s

/-- A die-to-die link error has survived its retries (R41). -/
def d2dExhausted (link : Fin 4) (s : State) : State := logErr .fatal 0x64 .device link.val 0 0 s

/-- The merge window of a cause and unit ends (R462). -/
def rateFlush (cause : Byte) (unit : BitVec 16) (s : State) : State :=
  match s.er.limits.find? (fun l => l.cause == cause.toNat && l.unit == unit.toNat) with
  | some l => flushLimit l s
  | none => s

/-- A sideband request answered from the present state. -/
def answerWith (f : State → SbReply) (s : State) : State := sbAnswer (f s) s

end Sys2Proof.Machine
end

