-- ==== Sys2Proof/Machine/EngineRows.lean ====
section
/-! DEFINITION. Hook, Matrix Unit, adders and the stages of step close (16 to 19). One meaning per row. -/

namespace Sys2Proof.Machine

open Sys2Proof

/-- HOOK_ELEMENT_RETURN: A fetched row arrives and elements commit in order, finishing bags and the operation. (R349) -/
def execHookElementReturn (tile : Fin 16) (id elem : Nat) (ecc : Ecc) (s : State) : Host.Outcome State Fault Refusal :=
  act (hookReturn tile id elem ecc) s

/-- OPERATION_VALIDATION: At confirm a held speculative operation is validated, re-read and written out. (R372) -/
def execOperationValidation (tile : Fin 16) (id : Nat) (s : State) : Host.Outcome State Fault Refusal := act (validateOp tile id) s

/-- LOAD: The Matrix Unit copies rows from memory to staging with conversion or expansion. (R404) -/
def execLoad (tile : Fin 16) (s : State) : Host.Outcome State Fault Refusal := act (mxRun 0 (fun x => mxRows loadStep (x.m + 1) x) tile) s

/-- STORE: The Matrix Unit writes staged rows to memory with conversion. (R415) -/
def execStore (tile : Fin 16) (s : State) : Host.Outcome State Fault Refusal := act (mxRun 1 (fun x => mxRows storeStep (x.m + 1) x) tile) s

/-- MATMUL: The Matrix Unit multiplies staged matrices into its accumulators and may drain them. (R408) -/
def execMatmul (tile : Fin 16) (s : State) : Host.Outcome State Fault Refusal := act (mxRun 2 matmulRun tile) s

/-- ELEMWISE: The Matrix Unit applies an elementwise operation to staged FP32 data. (R414) -/
def execElemwise (tile : Fin 16) (s : State) : Host.Outcome State Fault Refusal := act (mxRun 3 elemRun tile) s

/-- SEED: The Matrix Unit sets the tile LFSR state. (R413) -/
def execSeed (tile : Fin 16) (s : State) : Host.Outcome State Fault Refusal := act (mxRun 4 seedRun tile) s

/-- MATRIX_OPERATION_COMPLETE: A Matrix Unit operation finishes, writes its result record and decrements its counter. (R416) -/
def execMatrixOperationComplete (tile : Fin 16) (s : State) : Host.Outcome State Fault Refusal := act (mxComplete tile) s

/-- FLOAT_ADD: An HBM adder applies one float-add update to its target row. (R385) -/
def execFloatAdd (src : Fin 17) (i : Nat) (s : State) : Host.Outcome State Fault Refusal := act (adderRun false src i) s

/-- EXACT_ADD: An HBM adder adds one update into the row's exact-add accumulator. (R387) -/
def execExactAdd (src : Fin 17) (i : Nat) (s : State) : Host.Outcome State Fault Refusal := act (adderRun true src i) s

/-- CLOSE_STAGE_1: Drain local ends once step gathers have completed and Purl slots of the step are empty. (R19) -/
def execCloseStage1 (s : State) : Host.Outcome State Fault Refusal := act (closeRow closeStage1) s

/-- CLOSE_STAGE_2: Drain fabric ends once own updates are acknowledged and DRAIN has arrived from every peer. (R392) -/
def execCloseStage2 (s : State) : Host.Outcome State Fault Refusal := act (closeRow closeStage2) s

/-- CLOSE_STAGE_3: Balance compares the update ledgers of the step. (R453) -/
def execCloseStage3 (s : State) : Host.Outcome State Fault Refusal := act (closeRow closeStage3) s

/-- CLOSE_STAGE_4: Convert writes every exact-add target from its accumulator and releases it. (R388) -/
def execCloseStage4 (s : State) : Host.Outcome State Fault Refusal := act (closeRow closeStage4) s

/-- CLOSE_STAGE_5: Refresh rewrites stale replicas from their primaries. (R209) -/
def execCloseStage5 (s : State) : Host.Outcome State Fault Refusal := act (closeRow closeStage5) s

/-- CLOSE_STAGE_6: Flip sets the closed step and applies updates of n+1 held under R20. (R391) -/
def execCloseStage6 (s : State) : Host.Outcome State Fault Refusal := act (closeRow closeStage6) s

/-- CLOSE_STAGE_7: Release clears HOT01, queues write-backs, writes the step record and completes STEP_CLOSE. (R391) -/
def execCloseStage7 (s : State) : Host.Outcome State Fault Refusal := act (closeRow closeStage7) s

end Sys2Proof.Machine
end

