-- ==== Sys2Proof/Machine/FabricRows.lean ====
section
/-! DEFINITION. The Henur fabric (20). One meaning per row. -/

namespace Sys2Proof.Machine

open Sys2Proof

/-- PORT_TRAINED: All 8 plies of a Henur port train and the round trip is measured before join. (R420) -/
def execPortTrained (port : Fin 9) (now : W64) (s : State) : Host.Outcome State Fault Refusal := act (portTrained port now) s

/-- PLY_FAILURE: A failing ply takes its port down and the port is reset. (R420) -/
def execPlyFailure (port : Fin 9) (ply : Fin 8) (s : State) : Host.Outcome State Fault Refusal := act (plyFailure port ply) s

/-- LINK_CONTROL_FLIT: A received ACK or NAK releases replay-buffer flits or starts a replay. (R422) -/
def execLinkControlFlit (port : Fin 9) (ack : Fin 1024) (valid nak : Bool) (s : State) : Host.Outcome State Fault Refusal :=
  act (linkControl port ack valid nak) s

/-- REPLAY_TIMEOUT: ACK has not advanced for 4 µs and the sender replays. (R422) -/
def execReplayTimeout (port : Fin 9) (s : State) : Host.Outcome State Fault Refusal := act (replayTimeout port) s

/-- ACK_TIMER: 1 µs after accepting a flit the receiver sends an ACK. (R422) -/
def execAckTimer (port : Fin 9) (s : State) : Host.Outcome State Fault Refusal := act (ackTimer port) s

/-- CREDIT_RETURN_TIMER: 1 µs after freeing credits the receiver sends a CREDIT message. (R425) -/
def execCreditReturnTimer (port : Fin 9) (s : State) : Host.Outcome State Fault Refusal := act (creditTimer port) s

/-- ROW_GET: An owner receives a ROW_GET and serves the row or a ROW_NAK. (R435) -/
def execRowGet (port : Fin 9) (vc : Fin 5) (m : List Byte) (s : State) : Host.Outcome State Fault Refusal := act (rowGetArrives port vc m) s

/-- ROW_DATA: A requester receives ROW_DATA for an outstanding request or validation. (R427) -/
def execRowData (port : Fin 9) (vc : Fin 5) (m : List Byte) (s : State) : Host.Outcome State Fault Refusal :=
  act (rowDataArrives port vc m) s

/-- ROW_ADD_RECEIVED: A receiver applies, parks or deduplicates a ROW_ADD and acknowledges it. (R382) -/
def execRowAddReceived (port : Fin 9) (vc : Fin 5) (m : List Byte) (s : State) : Host.Outcome State Fault Refusal :=
  act (rowAddArrives port vc m) s

/-- ROW_ACK: A ROW_ACK removes its update from the retransmit store. (R380) -/
def execRowAck (port : Fin 9) (vc : Fin 5) (m : List Byte) (s : State) : Host.Outcome State Fault Refusal := act (rowAckArrives port vc m) s

/-- ROW_NAK: A ROW_NAK makes the requester fault, reroute, wait or refuse the update. (R436) -/
def execRowNak (port : Fin 9) (vc : Fin 5) (m : List Byte) (s : State) : Host.Outcome State Fault Refusal := act (rowNakArrives port vc m) s

/-- CREDIT: A CREDIT message returns flit credits on each VC. (R425) -/
def execCredit (port : Fin 9) (m : List Byte) (s : State) : Host.Outcome State Fault Refusal := act (creditArrives port m) s

/-- GAUGE: An in-band GAUGE message is accepted as a beat or ignored, and forwarded downstream. (R71) -/
def execGauge (port : Fin 9) (m : List Byte) (since : W64) (off : Int) (s : State) : Host.Outcome State Fault Refusal :=
  act (gaugeArrives port m since.toNat off) s

/-- FW_CHUNK: A firmware chunk from upstream is stored and forwarded, or dropped. (R516) -/
def execFwChunk (port : Fin 9) (m : List Byte) (s : State) : Host.Outcome State Fault Refusal := act (chunkArrives port m) s

/-- HELLO: A peer's HELLO decides whether the port joins. (R429) -/
def execHello (port : Fin 9) (m : List Byte) (s : State) : Host.Outcome State Fault Refusal := act (helloArrives port m) s

/-- ECHO_REQ: A CTRL echo request is answered with ECHO_RSP. (R70) -/
def execEchoReq (port : Fin 9) (m : List Byte) (hold : W64) (s : State) : Host.Outcome State Fault Refusal :=
  act (echoReqArrives port m hold) s

/-- ECHO_RSP: An echo response gives the link's one-way delay. (R70) -/
def execEchoRsp (port : Fin 9) (m : List Byte) (now : W64) (s : State) : Host.Outcome State Fault Refusal :=
  act (echoRspArrives port m now) s

/-- LINK_DELAY_MEASURE: Every 2^20 beats the port starts a CTRL echo exchange. (R70) -/
def execLinkDelayMeasure (port : Fin 9) (now : W64) (s : State) : Host.Outcome State Fault Refusal := act (delayMeasure port now) s

/-- LINK_STATE: A newer LINK_STATE updates the link state and is flooded onward. (R430) -/
def execLinkState (port : Fin 9) (m : List Byte) (s : State) : Host.Outcome State Fault Refusal := act (linkStateArrives port m) s

/-- LINK_STATE_PERIOD: Every 100 ms the device floods its LINK_STATE. (R430) -/
def execLinkStatePeriod (s : State) : Host.Outcome State Fault Refusal := act linkPeriod s

/-- ORIGIN_TIMEOUT: An origin not heard for 300 ms is removed from the link state. (R430) -/
def execOriginTimeout (origin : Fin 512) (s : State) : Host.Outcome State Fault Refusal := act (originTimeout origin) s

/-- ROUTE_RECOMPUTE: After a link-state change the device switches to new up*/down* routes. (R431) -/
def execRouteRecompute (s : State) : Host.Outcome State Fault Refusal := act routeRecompute s

/-- DRAIN: A received DRAIN(n) is recorded for close stage 2, answered once, or discarded. (R559) -/
def execDrain (port : Fin 9) (m : List Byte) (s : State) : Host.Outcome State Fault Refusal := act (drainArrives port m) s

/-- LEAVE: A peer's LEAVE takes the port down and removes an orderly leaver from the close peer set. (R392) -/
def execLeave (port : Fin 9) (m : List Byte) (s : State) : Host.Outcome State Fault Refusal := act (leaveArrives port m) s

/-- MESSAGE_FORWARD: A message for another device is forwarded on its routed port or answered UNREACHABLE. (R432) -/
def execMessageForward (port : Fin 9) (vc : Fin 5) (m : List Byte) (s : State) : Host.Outcome State Fault Refusal :=
  act (messageForward port vc m) s

/-- ROW_GET_REISSUE: A ROW_GET unanswered after 200 µs is reissued with a new REQ. (R435) -/
def execRowGetReissue (req : W32) (s : State) : Host.Outcome State Fault Refusal := act (getReissue req.toNat) s

/-- ROW_ADD_RESEND: An unacknowledged ROW_ADD is resent after 200 µs or at a route change. (R435) -/
def execRowAddResend (dest : Fin 512) (seqNo : W64) (s : State) : Host.Outcome State Fault Refusal := act (addResend dest seqNo) s

/-- NOT_OWNER_RESEND: While a lagging owner answers NOT_OWNER the message is resent every 1 ms. (R437) -/
def execNotOwnerResend (dest : Fin 512) (s : State) : Host.Outcome State Fault Refusal := act (notOwnerResend dest) s

/-- FLIT: A sequenced flit arrives on a Henur port and is accepted, or discarded with a NAK for a bad CRC, a sequence gap or a VC with no credit. (R422) -/
def execFlit (port : Fin 9) (f : BitVec 2048) (s : State) : Host.Outcome State Fault Refusal := act (flitArrives port f) s

end Sys2Proof.Machine
end

