-- ==== Sys2Proof/Machine/GaugeRows.lean ====
section
/-! DEFINITION. The gauge receiver and the marks of the schedule (04). One meaning per row. -/

namespace Sys2Proof.Machine

open Sys2Proof

/-- GWORD_FRAME: A beat edge with its GWORD frame is accepted or rejected as a good beat. (R68) -/
def execGwordFrame (frame : BitVec 80) (since : W64) (off : Int) (s : State) : Host.Outcome State Fault Refusal :=
  act (withOrigin (gwordFrame frame since off)) s

/-- GAUGE_LOCK: After 16 consecutive good beats the receiver enters LOCKED and renumbers under R86. (R78) -/
def execGaugeLock (s : State) : Host.Outcome State Fault Refusal := act (withOrigin gaugeLock) s

/-- MISSING_EDGE: No beat arrives at its predicted edge and the receiver switches source or enters HOLDOVER. (R88) -/
def execMissingEdge (src : Fin 2) (s : State) : Host.Outcome State Fault Refusal := act (withOrigin (missingEdge src)) s

/-- LOCAL_BEAT: The receiver generates a beat from the local oscillator while not locked. (R81) -/
def execLocalBeat (s : State) : Host.Outcome State Fault Refusal := act (withOrigin localBeatRow) s

/-- HOLDOVER_BEAT_1000: At holdover beat 1,000 the receiver enters FREE_RUN and abandons deferred confirms. (R84) -/
def execHoldoverBeat1000 (s : State) : Host.Outcome State Fault Refusal := act holdover1000 s

/-- RESUME_MARK: Deferred events run at the first multiple-of-256 beat after re-lock. (R83) -/
def execResumeMark (s : State) : Host.Outcome State Fault Refusal := act resumeMark s

/-- STEP_CONFIRM_MARK: A step confirm entry fires and the confirm takes effect, is held or is deferred. (R167) -/
def execStepConfirmMark (i : Fin 256) (s : State) : Host.Outcome State Fault Refusal := act (markRow 1 i) s

/-- SPECULATION_WINDOW_DEADLINE: A window deadline entry fires and abandons an unconfirmed window. (R361) -/
def execSpeculationWindowDeadline (i : Fin 256) (s : State) : Host.Outcome State Fault Refusal := act (markRow 2 i) s

/-- STEP_CONFIRM_DEADLINE: A step confirm deadline fires before confirm and abandons the step's window. (R21) -/
def execStepConfirmDeadline (i : Fin 256) (s : State) : Host.Outcome State Fault Refusal := act (markRow 3 i) s

/-- STEP_CLOSE_MARK: A step close entry fires and close stage 1 begins. (R167) -/
def execStepCloseMark (i : Fin 256) (s : State) : Host.Outcome State Fault Refusal := act (markRow 4 i) s

/-- TABLE_VERSION_FLIP: A flip entry fires and lets close stage 6 flip the table version. (R75) -/
def execTableVersionFlip (i : Fin 256) (s : State) : Host.Outcome State Fault Refusal := act (markRow 5 i) s

/-- STEP_OPEN_MARK: A step open entry fires and the step opens if its state conditions hold. (R167) -/
def execStepOpenMark (i : Fin 256) (s : State) : Host.Outcome State Fault Refusal := act (markRow 6 i) s

/-- SPECULATION_WINDOW_OPEN: A window open entry fires and the window becomes OPEN if R22 holds. (R361) -/
def execSpeculationWindowOpen (i : Fin 256) (s : State) : Host.Outcome State Fault Refusal := act (markRow 7 i) s

/-- HOT_SET_REFRESH: A hot-set refresh entry fires and rewrites stale rows of the set. (R212) -/
def execHotSetRefresh (i : Fin 256) (s : State) : Host.Outcome State Fault Refusal := act (markRow 8 i) s

/-- SCRUB_SLOT_BEGIN: A scrub slot entry fires and the Scrubber scrubs its quota within the slot. (R275) -/
def execScrubSlotBegin (i : Fin 256) (s : State) : Host.Outcome State Fault Refusal := act (markRow 9 i) s

/-- TENSION_SLOT_FIRING: A tension slot entry fires and a pending grant increase starts its ramp. (R479) -/
def execTensionSlotFiring (i : Fin 256) (s : State) : Host.Outcome State Fault Refusal := act (markRow 10 i) s

/-- FIRMWARE_ACTIVATION: The activation entry fires; the pause hands the device to the new image. (R517) -/
def execFirmwareActivation (i : Fin 256) (s : State) : Host.Outcome State Fault Refusal := act (markRow 11 i) s

end Sys2Proof.Machine
end

