-- ==== Sys2Proof/Machine/MailboxRows.lean ====
section
/-! DEFINITION. Mailbox commands and the mailbox engine's own events (07, 08). One meaning per row. -/

namespace Sys2Proof.Machine

open Sys2Proof

/-- NEGOTIATE: Grants the intersection of the proposed 128-bit feature word with the offered features and fixes it until the next reset. (R159) -/
def execNegotiate (qp : Fin 64) (e : Entry) (s : State) : Host.Outcome State Fault Refusal := act (command cmdNegotiate qp e) s

/-- IDENTIFY: Writes the 256-byte identify buffer, completing DEVICE_DEGRADED if any fitted resource is unusable. (R173) -/
def execIdentify (qp : Fin 64) (e : Entry) (s : State) : Host.Outcome State Fault Refusal := act (command cmdIdentify qp e) s

/-- QP_CREATE: Creates and enables queue pair 1–63 from queue pair 0, checking its rings under R140. (R141) -/
def execQpCreate (qp : Fin 64) (e : Entry) (s : State) : Host.Outcome State Fault Refusal := act (command cmdQpCreate qp e) s

/-- QP_DELETE: Stops fetching, abandons unstarted commands and releases queue pair 1–63. (R163) -/
def execQpDelete (qp : Fin 64) (e : Entry) (s : State) : Host.Outcome State Fault Refusal := act (command cmdQpDelete qp e) s

/-- BIND_OFF: Writes back dirty blocks, flushes drives, leaves the fabric and sets BOUND. (R96) -/
def execBindOff (qp : Fin 64) (e : Entry) (s : State) : Host.Outcome State Fault Refusal := act (command cmdBindOff qp e) s

/-- WARM_RESET: Posts its OK completion and then begins the warm reset quiesce. (R174) -/
def execWarmReset (qp : Fin 64) (e : Entry) (s : State) : Host.Outcome State Fault Refusal := act (command cmdWarmReset qp e) s

/-- RESET_REPORT: Returns the 64-byte report of the last reset. (R105) -/
def execResetReport (qp : Fin 64) (e : Entry) (s : State) : Host.Outcome State Fault Refusal := act (command cmdResetReport qp e) s

/-- AS_CREATE: Creates an address-space tag with its root table and adds its POOL frames to the pool. (R175) -/
def execAsCreate (qp : Fin 64) (e : Entry) (s : State) : Host.Outcome State Fault Refusal := act (command cmdAsCreate qp e) s

/-- AS_DESTROY: Destroys an address-space tag after invalidating it and withdrawing its POOL frames. (R175) -/
def execAsDestroy (qp : Fin 64) (e : Entry) (s : State) : Host.Outcome State Fault Refusal := act (command cmdAsDestroy qp e) s

/-- PT_WRITE: Writes page-table units from the host buffer into T1 in ascending order. (R176) -/
def execPtWrite (qp : Fin 64) (e : Entry) (s : State) : Host.Outcome State Fault Refusal := act (command cmdPtWrite qp e) s

/-- INVAL_TAG: Increments the tag's generation so older translations are retranslated. (R252) -/
def execInvalTag (qp : Fin 64) (e : Entry) (s : State) : Host.Outcome State Fault Refusal := act (command cmdInvalTag qp e) s

/-- INVAL_RANGE: Removes cached translations of a range and forwards the range to all 58 engines. (R253) -/
def execInvalRange (qp : Fin 64) (e : Entry) (s : State) : Host.Outcome State Fault Refusal := act (command cmdInvalRange qp e) s

/-- FAULT_RING_SET: Sets the host fault ring and writes pending records into it. (R177) -/
def execFaultRingSet (qp : Fin 64) (e : Entry) (s : State) : Host.Outcome State Fault Refusal := act (command cmdFaultRingSet qp e) s

/-- FAULT_RESUME: Replays or refuses every context waiting on an outstanding fault record. (R250) -/
def execFaultResume (qp : Fin 64) (e : Entry) (s : State) : Host.Outcome State Fault Refusal := act (command cmdFaultResume qp e) s

/-- TABLE_CREATE: Checks a 128-byte table descriptor and its row directory and creates the table. (R196) -/
def execTableCreate (qp : Fin 64) (e : Entry) (s : State) : Host.Outcome State Fault Refusal := act (command cmdTableCreate qp e) s

/-- TABLE_DESTROY: Destroys a table, releasing its directory, LBAs, hot sets, replicas and refresh entries. (R178) -/
def execTableDestroy (qp : Fin 64) (e : Entry) (s : State) : Host.Outcome State Fault Refusal := act (command cmdTableDestroy qp e) s

/-- TABLE_QUERY: Returns a table's descriptor and its block counts per tier. (R215) -/
def execTableQuery (qp : Fin 64) (e : Entry) (s : State) : Host.Outcome State Fault Refusal := act (command cmdTableQuery qp e) s

/-- HOTSET_LOAD: Copies locally owned rows into the Swatch of the masked tiles as a hot set. (R210) -/
def execHotsetLoad (qp : Fin 64) (e : Entry) (s : State) : Host.Outcome State Fault Refusal := act (command cmdHotsetLoad qp e) s

/-- HOTSET_REFRESH: Creates a periodic hot-set refresh schedule entry. (R168) -/
def execHotsetRefresh (qp : Fin 64) (e : Entry) (s : State) : Host.Outcome State Fault Refusal := act (command cmdHotsetRefresh qp e) s

/-- HOTSET_DROP: Drops a hot set and removes its refresh entries. (R212) -/
def execHotsetDrop (qp : Fin 64) (e : Entry) (s : State) : Host.Outcome State Fault Refusal := act (command cmdHotsetDrop qp e) s

/-- PREFETCH: Moves the row blocks of a virtual range to tier T1, T2 or T3. (R233) -/
def execPrefetch (qp : Fin 64) (e : Entry) (s : State) : Host.Outcome State Fault Refusal := act (command cmdPrefetch qp e) s

/-- ADVISE: Sets a residency hint on every block of a range without moving data. (R234) -/
def execAdvise (qp : Fin 64) (e : Entry) (s : State) : Host.Outcome State Fault Refusal := act (command cmdAdvise qp e) s

/-- REPLICA_SET: Writes replicas of a locally owned row range into Swatches or HBM stacks. (R181) -/
def execReplicaSet (qp : Fin 64) (e : Entry) (s : State) : Host.Outcome State Fault Refusal := act (command cmdReplicaSet qp e) s

/-- REPLICA_DROP: Drops an existing replicated range of a table. (R172) -/
def execReplicaDrop (qp : Fin 64) (e : Entry) (s : State) : Host.Outcome State Fault Refusal := act (command cmdReplicaDrop qp e) s

/-- DRIVE_UNFENCE: Re-initialises a fenced drive and clears NO_HOME on its blocks. (R231) -/
def execDriveUnfence (qp : Fin 64) (e : Entry) (r : DriveReport) (s : State) : Host.Outcome State Fault Refusal :=
  act (command (cmdDriveUnfence r) qp e) s

/-- PATTERN_LOAD: Loads a pattern image for woven or plain mode and returns its handle. (R182) -/
def execPatternLoad (qp : Fin 64) (e : Entry) (s : State) : Host.Outcome State Fault Refusal := act (command cmdPatternLoad qp e) s

/-- PATTERN_UNLOAD: Unloads a pattern handle that has no live launch. (R182) -/
def execPatternUnload (qp : Fin 64) (e : Entry) (s : State) : Host.Outcome State Fault Refusal := act (command cmdPatternUnload qp e) s

/-- LAUNCH: Checks the launch block and starts a pattern launch of up to 2^24 threads. (R279) -/
def execLaunch (qp : Fin 64) (e : Entry) (s : State) : Host.Outcome State Fault Refusal := act (command cmdLaunch qp e) s

/-- STEP_OPEN: Opens the next step number, unmarked at once or at its mark. (R16) -/
def execStepOpen (qp : Fin 64) (e : Entry) (s : State) : Host.Outcome State Fault Refusal := act (command cmdStepOpen qp e) s

/-- STEP_CONFIRM: Confirms a step and its speculation window, or is held behind the previous close. (R184) -/
def execStepConfirm (qp : Fin 64) (e : Entry) (s : State) : Host.Outcome State Fault Refusal := act (command cmdStepConfirm qp e) s

/-- STEP_CLOSE: Begins the seven journaled close stages of a step. (R391) -/
def execStepClose (qp : Fin 64) (e : Entry) (s : State) : Host.Outcome State Fault Refusal := act (command cmdStepClose qp e) s

/-- SPEC_OPEN: Schedules a speculation window for a step in open phase. (R361) -/
def execSpecOpen (qp : Fin 64) (e : Entry) (s : State) : Host.Outcome State Fault Refusal := act (command cmdSpecOpen qp e) s

/-- SPEC_ABANDON: Abandons the open speculation window and frogs its held packets. (R376) -/
def execSpecAbandon (qp : Fin 64) (e : Entry) (s : State) : Host.Outcome State Fault Refusal := act (command cmdSpecAbandon qp e) s

/-- STEP_QUERY: Returns live steps, phases and speculation counters. (R186) -/
def execStepQuery (qp : Fin 64) (e : Entry) (s : State) : Host.Outcome State Fault Refusal := act (command cmdStepQuery qp e) s

/-- TILE_RESET: Resets one tile: drains its Purl, ends its threads, clears its Swatch and flushes its queues. (R112) -/
def execTileReset (qp : Fin 64) (e : Entry) (s : State) : Host.Outcome State Fault Refusal := act (command cmdTileReset qp e) s

/-- FABRIC_ID: Sets the device's own 9-bit fabric id before any port joins. (R187) -/
def execFabricId (qp : Fin 64) (e : Entry) (s : State) : Host.Outcome State Fault Refusal := act (command cmdFabricId qp e) s

/-- PORT_CONFIG: Enables or disables a Henur port with its expected peer and violation limit. (R429) -/
def execPortConfig (qp : Fin 64) (e : Entry) (s : State) : Host.Outcome State Fault Refusal := act (command cmdPortConfig qp e) s

/-- SHARDMAP_LOAD: Loads a new shard-map generation, waiting for a close in progress. (R188) -/
def execShardmapLoad (qp : Fin 64) (e : Entry) (s : State) : Host.Outcome State Fault Refusal := act (command cmdShardmapLoad qp e) s

/-- PORT_RESET: Resets a Henur port or an NVMe port. (R113) -/
def execPortReset (qp : Fin 64) (e : Entry) (r : DriveReport) (s : State) : Host.Outcome State Fault Refusal :=
  act (command (cmdPortReset r) qp e) s

/-- PORT_UNFENCE: Resets a fenced Henur port and clears its violation counts. (R439) -/
def execPortUnfence (qp : Fin 64) (e : Entry) (s : State) : Host.Outcome State Fault Refusal := act (command cmdPortUnfence qp e) s

/-- FABRIC_STATUS: Returns the 32-byte status record of every Henur port. (R442) -/
def execFabricStatus (qp : Fin 64) (e : Entry) (s : State) : Host.Outcome State Fault Refusal := act (command cmdFabricStatus qp e) s

/-- GAUGE_CONFIG: Sets beat rate, source, upstream port, downstream mask and cable delay while the schedule is empty. (R79) -/
def execGaugeConfig (qp : Fin 64) (e : Entry) (s : State) : Host.Outcome State Fault Refusal := act (command cmdGaugeConfig qp e) s

/-- GAUGE_REBASE: Cancels every schedule entry and lets the receiver lock on a lower source numbering. (R87) -/
def execGaugeRebase (qp : Fin 64) (e : Entry) (s : State) : Host.Outcome State Fault Refusal := act (command cmdGaugeRebase qp e) s

/-- SCHED_READ: Returns the 256 schedule entries with in-use and deferred bitmaps. (R74) -/
def execSchedRead (qp : Fin 64) (e : Entry) (s : State) : Host.Outcome State Fault Refusal := act (command cmdSchedRead qp e) s

/-- SCHED_CANCEL: Removes a schedule entry whose kind and beat match, abandoning its command. (R189) -/
def execSchedCancel (qp : Fin 64) (e : Entry) (s : State) : Host.Outcome State Fault Refusal := act (command cmdSchedCancel qp e) s

/-- SCRUB_SLOT: Creates a scrub-slot schedule entry that puts the Scrubber in slotted mode. (R275) -/
def execScrubSlot (qp : Fin 64) (e : Entry) (s : State) : Host.Outcome State Fault Refusal := act (command cmdScrubSlot qp e) s

/-- TENSION_SLOT: Creates a tension-slot schedule entry at which grant increases apply. (R479) -/
def execTensionSlot (qp : Fin 64) (e : Entry) (s : State) : Host.Outcome State Fault Refusal := act (command cmdTensionSlot qp e) s

/-- POWER_CAP: Sets the host ceiling on device draw. (R190) -/
def execPowerCap (qp : Fin 64) (e : Entry) (s : State) : Host.Outcome State Fault Refusal := act (command cmdPowerCap qp e) s

/-- MON_READ: Returns the 88 monitor readings. (R471) -/
def execMonRead (qp : Fin 64) (e : Entry) (s : State) : Host.Outcome State Fault Refusal := act (command cmdMonRead qp e) s

/-- THERM_LIMIT: Sets the limit of one thermal monitor below its trip threshold. (R474) -/
def execThermLimit (qp : Fin 64) (e : Entry) (s : State) : Host.Outcome State Fault Refusal := act (command cmdThermLimit qp e) s

/-- LOG_READ: Returns error-log entries at the requested ring indices. (R460) -/
def execLogRead (qp : Fin 64) (e : Entry) (s : State) : Host.Outcome State Fault Refusal := act (command cmdLogRead qp e) s

/-- LOG_MIRROR_SET: Enables or disables the host mirror of the error log. (R464) -/
def execLogMirrorSet (qp : Fin 64) (e : Entry) (s : State) : Host.Outcome State Fault Refusal := act (command cmdLogMirrorSet qp e) s

/-- TALLY_AUDIT: Checks every ledger of the tally and writes the audit report. (R453) -/
def execTallyAudit (qp : Fin 64) (e : Entry) (s : State) : Host.Outcome State Fault Refusal := act (command cmdTallyAudit qp e) s

/-- TALLY_READ: Returns one ledger's record from a single reading. (R455) -/
def execTallyRead (qp : Fin 64) (e : Entry) (s : State) : Host.Outcome State Fault Refusal := act (command cmdTallyRead qp e) s

/-- ID_READ: Returns the 1,024-byte factory identity. (R491) -/
def execIdRead (qp : Fin 64) (e : Entry) (s : State) : Host.Outcome State Fault Refusal := act (command cmdIdRead qp e) s

/-- TAG_READ: Returns a user tag area and its write count. (R494) -/
def execTagRead (qp : Fin 64) (e : Entry) (s : State) : Host.Outcome State Fault Refusal := act (command cmdTagRead qp e) s

/-- TAG_WRITE: Replaces a user tag area atomically in module flash. (R495) -/
def execTagWrite (qp : Fin 64) (e : Entry) (s : State) : Host.Outcome State Fault Refusal := act (command cmdTagWrite qp e) s

/-- KEY_UPDATE: Writes a signed new owner key into the slot not in force and commits it. (R503) -/
def execKeyUpdate (qp : Fin 64) (e : Entry) (bad : Bool) (s : State) : Host.Outcome State Fault Refusal :=
  act (command (cmdKeyUpdate bad) qp e) s

/-- KEY_STATUS: Re-reads both owner key slots and reports their generations and validity. (R504) -/
def execKeyStatus (qp : Fin 64) (e : Entry) (s : State) : Host.Outcome State Fault Refusal := act (command cmdKeyStatus qp e) s

/-- FW_STAGE: Stores a chunk of a firmware image or delta and starts the apply at LAST. (R510) -/
def execFwStage (qp : Fin 64) (e : Entry) (s : State) : Host.Outcome State Fault Refusal := act (command cmdFwStage qp e) s

/-- FW_ACTIVATE: Schedules the lock-required firmware activation of an applied image. (R517) -/
def execFwActivate (qp : Fin 64) (e : Entry) (s : State) : Host.Outcome State Fault Refusal := act (command cmdFwActivate qp e) s

/-- FW_STATUS: Returns the 64-byte firmware status record. (R524) -/
def execFwStatus (qp : Fin 64) (e : Entry) (s : State) : Host.Outcome State Fault Refusal := act (command cmdFwStatus qp e) s

/-- FW_CHAIN_SET: Sets the upstream port and downstream mask of the firmware chain. (R514) -/
def execFwChainSet (qp : Fin 64) (e : Entry) (s : State) : Host.Outcome State Fault Refusal := act (command cmdFwChainSet qp e) s

/-- FW_DISCARD: Discards staging, stops an apply, cancels activation and invalidates the inactive bank. (R522) -/
def execFwDiscard (qp : Fin 64) (e : Entry) (s : State) : Host.Outcome State Fault Refusal := act (command cmdFwDiscard qp e) s

/-- COMMAND_FETCH: The mailbox engine fetches a published command into a mailbox slot by class policy. (R156) -/
def execCommandFetch (qp : Fin 64) (same : Bool) (s : State) : Host.Outcome State Fault Refusal := act (fetchCmd qp same) s

/-- INTERIM_COMPLETION: After DEFER_AFTER beats without effect a command posts one interim DEFERRED entry. (R157) -/
def execInterimCompletion (qp : Fin 64) (cid : BitVec 16) (s : State) : Host.Outcome State Fault Refusal := act (interimDue qp cid.toNat) s

/-- COAL_TIME_EXPIRY: The completion moderation timer expires and raises the queue pair's vector. (R158) -/
def execCoalTimeExpiry (qp : Fin 64) (s : State) : Host.Outcome State Fault Refusal := act (coalExpiry qp) s

end Sys2Proof.Machine
end

