-- ==== Sys2Proof/Machine/PowerRows.lean ====
section
/-! DEFINITION. Ledger and log timers, monitors and power (21, 22, 23). One meaning per row. -/

namespace Sys2Proof.Machine

open Sys2Proof

/-- AUDIT_REREAD: A ledger in deficit under a bounded window is re-read after its bound. (R453) -/
def execAuditReread (ledger : BitVec 16) (s : State) : Host.Outcome State Fault Refusal := act (auditReread ledger.toNat) s

/-- RATE_LIMIT_FLUSH: At the end of a millisecond merged occurrences are logged with REPEAT. (R462) -/
def execRateLimitFlush (cause : Byte) (unit : BitVec 16) (s : State) : Host.Outcome State Fault Refusal := act (rateFlush cause unit) s

/-- MONITOR_SAMPLE: A monitor is sampled and its reading checked against its limit. (R470) -/
def execMonitorSample (mon : Fin 88) (v : BitVec 16) (s : State) : Host.Outcome State Fault Refusal := actAny (monitorSample mon v) s

/-- THERMAL_RELEASE: After 1 ms 3 °C below the limit the thermal governor releases pressure. (R474) -/
def execThermalRelease (mon : Fin 88) (s : State) : Host.Outcome State Fault Refusal := act (thermalRelease mon) s

/-- THERM_TRIP: A monitor at its trip threshold drives THERM_TRIP# and forces the fatal state. (R475) -/
def execThermTrip (mon : Fin 48) (v : BitVec 16) (s : State) : Host.Outcome State Fault Refusal := actAny (thermTripRow mon v) s

/-- POWER_CONTROL_TICK: Every 10 µs the power controller compares draw with the cap and moves the ladder. (R483) -/
def execPowerControlTick (watts : BitVec 16) (s : State) : Host.Outcome State Fault Refusal := act (powerTick watts.toNat) s

/-- RAMP_STEP: Every 100 µs during a ramp the effective cap rises by up to 50 W. (R482) -/
def execRampStep (s : State) : Host.Outcome State Fault Refusal := act rampStep s

/-- GRANT_DECREASE: A committed grant decrease takes effect at its grant beat. (R479) -/
def execGrantDecrease (s : State) : Host.Outcome State Fault Refusal := act grantDecrease s

/-- PWR_BRAKE_ASSERT: PWR_BRAKE# asserted for 1 µs moves every ladder to the bottom. (R487) -/
def execPwrBrakeAssert (s : State) : Host.Outcome State Fault Refusal := actAny brakeAssert s

/-- PWR_BRAKE_DEASSERT: PWR_BRAKE# deassertion lets the cap ramp back toward its target. (R487) -/
def execPwrBrakeDeassert (s : State) : Host.Outcome State Fault Refusal := actAny brakeDeassert s

/-- GRANT_W: A PLDM write of effecter 200 sets the pending grant wattage. (R478) -/
def execGrantW (w : BitVec 16) (s : State) : Host.Outcome State Fault Refusal := act (grantWatts w.toNat) s

/-- GRANT_BEAT: A PLDM write of effecter 201 commits the pending grant. (R478) -/
def execGrantBeat (b : W32) (s : State) : Host.Outcome State Fault Refusal := act (grantCommit b) s

end Sys2Proof.Machine
end

