-- ==== Sys2Proof/Machine/PyratRows.lean ====
section
/-! DEFINITION. Pyrat instructions and the events of thread contexts (13, 14, 15). One meaning per row. -/

namespace Sys2Proof.Machine

open Sys2Proof

/-- NOP: Occupies one issue with no effect. (R326) -/
def execNop (tile : Fin 17) (ctx : Fin 512) (s : State) : Host.Outcome State Fault Refusal := act (issue .nop opNop (ctxKey tile ctx)) s

/-- DUP: Pushes a copy of the top word. (R326) -/
def execDup (tile : Fin 17) (ctx : Fin 512) (s : State) : Host.Outcome State Fault Refusal := act (issue .dup opDup (ctxKey tile ctx)) s

/-- SWAP: Exchanges the top two words. (R326) -/
def execSwap (tile : Fin 17) (ctx : Fin 512) (s : State) : Host.Outcome State Fault Refusal := act (issue .swap opSwap (ctxKey tile ctx)) s

/-- DROP: Pops the top word. (R326) -/
def execDrop (tile : Fin 17) (ctx : Fin 512) (s : State) : Host.Outcome State Fault Refusal := act (issue .drop opDrop (ctxKey tile ctx)) s

/-- OVER: Pushes a copy of S1. (R326) -/
def execOver (tile : Fin 17) (ctx : Fin 512) (s : State) : Host.Outcome State Fault Refusal := act (issue .over_ opOver (ctxKey tile ctx)) s

/-- ROT: Brings S2 to the top. (R326) -/
def execRot (tile : Fin 17) (ctx : Fin 512) (s : State) : Host.Outcome State Fault Refusal := act (issue .rot opRot (ctxKey tile ctx)) s

/-- PICK: Pushes a copy of the word at depth n. (R326) -/
def execPick (tile : Fin 17) (ctx : Fin 512) (s : State) : Host.Outcome State Fault Refusal := act (issue .pick opPick (ctxKey tile ctx)) s

/-- PUSHI: Pushes a sign-extended immediate. (R326) -/
def execPushi (tile : Fin 17) (ctx : Fin 512) (s : State) : Host.Outcome State Fault Refusal :=
  act (issue .pushi opPushi (ctxKey tile ctx)) s

/-- PUSHX: Shifts the top word left 16 and ors in the immediate. (R326) -/
def execPushx (tile : Fin 17) (ctx : Fin 512) (s : State) : Host.Outcome State Fault Refusal :=
  act (issue .pushx opPushx (ctxKey tile ctx)) s

/-- ADD: Pops two words and pushes their sum modulo 2^64. (R328) -/
def execAdd (tile : Fin 17) (ctx : Fin 512) (s : State) : Host.Outcome State Fault Refusal := act (issue .add opAdd (ctxKey tile ctx)) s

/-- SUB: Pops two words and pushes a minus b. (R328) -/
def execSub (tile : Fin 17) (ctx : Fin 512) (s : State) : Host.Outcome State Fault Refusal := act (issue .sub opSub (ctxKey tile ctx)) s

/-- AND: Pushes the bitwise and of two words. (R328) -/
def execAnd (tile : Fin 17) (ctx : Fin 512) (s : State) : Host.Outcome State Fault Refusal := act (issue .and opAnd (ctxKey tile ctx)) s

/-- OR: Pushes the bitwise or of two words. (R328) -/
def execOr (tile : Fin 17) (ctx : Fin 512) (s : State) : Host.Outcome State Fault Refusal := act (issue .or opOr (ctxKey tile ctx)) s

/-- XOR: Pushes the bitwise exclusive or of two words. (R328) -/
def execXor (tile : Fin 17) (ctx : Fin 512) (s : State) : Host.Outcome State Fault Refusal := act (issue .xor opXor (ctxKey tile ctx)) s

/-- ANDN: Pushes a and not b. (R328) -/
def execAndn (tile : Fin 17) (ctx : Fin 512) (s : State) : Host.Outcome State Fault Refusal := act (issue .andn opAndn (ctxKey tile ctx)) s

/-- NEG: Pushes the two's-complement negation. (R328) -/
def execNeg (tile : Fin 17) (ctx : Fin 512) (s : State) : Host.Outcome State Fault Refusal := act (issue .neg opNeg (ctxKey tile ctx)) s

/-- NOT: Pushes the bitwise complement. (R328) -/
def execNot (tile : Fin 17) (ctx : Fin 512) (s : State) : Host.Outcome State Fault Refusal := act (issue .not opNot (ctxKey tile ctx)) s

/-- MINS: Pushes the signed minimum. (R328) -/
def execMins (tile : Fin 17) (ctx : Fin 512) (s : State) : Host.Outcome State Fault Refusal := act (issue .mins opMins (ctxKey tile ctx)) s

/-- MAXS: Pushes the signed maximum. (R328) -/
def execMaxs (tile : Fin 17) (ctx : Fin 512) (s : State) : Host.Outcome State Fault Refusal := act (issue .maxs opMaxs (ctxKey tile ctx)) s

/-- MINU: Pushes the unsigned minimum. (R328) -/
def execMinu (tile : Fin 17) (ctx : Fin 512) (s : State) : Host.Outcome State Fault Refusal := act (issue .minu opMinu (ctxKey tile ctx)) s

/-- MAXU: Pushes the unsigned maximum. (R328) -/
def execMaxu (tile : Fin 17) (ctx : Fin 512) (s : State) : Host.Outcome State Fault Refusal := act (issue .maxu opMaxu (ctxKey tile ctx)) s

/-- SHL: Shifts left by an immediate or stack amount. (R328) -/
def execShl (tile : Fin 17) (ctx : Fin 512) (s : State) : Host.Outcome State Fault Refusal := act (issue .shl opShl (ctxKey tile ctx)) s

/-- SHR: Shifts right with zero fill. (R328) -/
def execShr (tile : Fin 17) (ctx : Fin 512) (s : State) : Host.Outcome State Fault Refusal := act (issue .shr opShr (ctxKey tile ctx)) s

/-- SAR: Shifts right with sign fill. (R328) -/
def execSar (tile : Fin 17) (ctx : Fin 512) (s : State) : Host.Outcome State Fault Refusal := act (issue .sar opSar (ctxKey tile ctx)) s

/-- ROL: Rotates left. (R328) -/
def execRol (tile : Fin 17) (ctx : Fin 512) (s : State) : Host.Outcome State Fault Refusal := act (issue .rol opRol (ctxKey tile ctx)) s

/-- CLZ: Pushes the count of leading zero bits. (R330) -/
def execClz (tile : Fin 17) (ctx : Fin 512) (s : State) : Host.Outcome State Fault Refusal := act (issue .clz opClz (ctxKey tile ctx)) s

/-- POPC: Pushes the count of one bits. (R330) -/
def execPopc (tile : Fin 17) (ctx : Fin 512) (s : State) : Host.Outcome State Fault Refusal := act (issue .popc opPopc (ctxKey tile ctx)) s

/-- BPERM: Permutes or sign-fills bytes by a nibble selector. (R330) -/
def execBperm (tile : Fin 17) (ctx : Fin 512) (s : State) : Host.Outcome State Fault Refusal :=
  act (issue .bperm opBperm (ctxKey tile ctx)) s

/-- BFX: Extracts a bit field, zero- or sign-extended. (R329) -/
def execBfx (tile : Fin 17) (ctx : Fin 512) (s : State) : Host.Outcome State Fault Refusal := act (issue .bfx opBfx (ctxKey tile ctx)) s

/-- BFI: Inserts a bit field into a word. (R329) -/
def execBfi (tile : Fin 17) (ctx : Fin 512) (s : State) : Host.Outcome State Fault Refusal := act (issue .bfi opBfi (ctxKey tile ctx)) s

/-- MUL: Starts an unsigned 128-bit product delivered into ML and MH. (R331) -/
def execMul (tile : Fin 17) (ctx : Fin 512) (s : State) : Host.Outcome State Fault Refusal := act (issue .mul opMul (ctxKey tile ctx)) s

/-- MULH: Starts a signed 128-bit product delivered into ML and MH. (R331) -/
def execMulh (tile : Fin 17) (ctx : Fin 512) (s : State) : Host.Outcome State Fault Refusal := act (issue .mulh opMulh (ctxKey tile ctx)) s

/-- CMP: Compares two words and writes a predicate. (R332) -/
def execCmp (tile : Fin 17) (ctx : Fin 512) (s : State) : Host.Outcome State Fault Refusal := act (issue .cmp opCmp (ctxKey tile ctx)) s

/-- PLOG: Combines two predicates into a third. (R333) -/
def execPlog (tile : Fin 17) (ctx : Fin 512) (s : State) : Host.Outcome State Fault Refusal := act (issue .plog opPlog (ctxKey tile ctx)) s

/-- PFROM: Writes a predicate from a popped word. (R333) -/
def execPfrom (tile : Fin 17) (ctx : Fin 512) (s : State) : Host.Outcome State Fault Refusal :=
  act (issue .pfrom opPfrom (ctxKey tile ctx)) s

/-- PTO: Pushes a predicate as 0 or 1. (R333) -/
def execPto (tile : Fin 17) (ctx : Fin 512) (s : State) : Host.Outcome State Fault Refusal := act (issue .pto opPto (ctxKey tile ctx)) s

/-- LD: Loads 1–8 bytes from a segment and pushes the value. (R334) -/
def execLd (tile : Fin 17) (ctx : Fin 512) (ecc : Ecc) (s : State) : Host.Outcome State Fault Refusal :=
  act (issue .ld (opLd ecc) (ctxKey tile ctx)) s

/-- LOAD_DATA_ARRIVAL: A load, fill or returning atomic's data arrives and the held thread becomes ready. (R306) -/
def execLoadDataArrival (tile : Fin 17) (ctx : Fin 512) (s : State) : Host.Outcome State Fault Refusal :=
  act (dataArrival (ctxKey tile ctx)) s

/-- ST: Stores the low bytes of a popped value into a segment. (R334) -/
def execSt (tile : Fin 17) (ctx : Fin 512) (s : State) : Host.Outcome State Fault Refusal := act (issue .st opSt (ctxKey tile ctx)) s

/-- AADD: Adds a value into memory as one atomic read-modify-write. (R335) -/
def execAadd (tile : Fin 17) (ctx : Fin 512) (s : State) : Host.Outcome State Fault Refusal := act (issue .aadd opAadd (ctxKey tile ctx)) s

/-- BCOPY: Issues an asynchronous block copy between segments. (R336) -/
def execBcopy (tile : Fin 17) (ctx : Fin 512) (s : State) : Host.Outcome State Fault Refusal :=
  act (issue .bcopy opBcopy (ctxKey tile ctx)) s

/-- BCOPY_COMPLETION: A block copy finishes or faults and decrements its counter. (R336) -/
def execBcopyCompletion (i : Nat) (s : State) : Host.Outcome State Fault Refusal := act (copyCompletion i) s

/-- BR: Branches always. (R337) -/
def execBr (tile : Fin 17) (ctx : Fin 512) (s : State) : Host.Outcome State Fault Refusal := act (issue .br opBr (ctxKey tile ctx)) s

/-- BZ: Pops a word and branches if it is zero. (R337) -/
def execBz (tile : Fin 17) (ctx : Fin 512) (s : State) : Host.Outcome State Fault Refusal := act (issue .bz opBz (ctxKey tile ctx)) s

/-- BNZ: Pops a word and branches if it is non-zero. (R337) -/
def execBnz (tile : Fin 17) (ctx : Fin 512) (s : State) : Host.Outcome State Fault Refusal := act (issue .bnz opBnz (ctxKey tile ctx)) s

/-- CALL: Pushes a return offset and branches. (R338) -/
def execCall (tile : Fin 17) (ctx : Fin 512) (s : State) : Host.Outcome State Fault Refusal := act (issue .call opCall (ctxKey tile ctx)) s

/-- CALLI: Pops a target, pushes a return offset and branches. (R338) -/
def execCalli (tile : Fin 17) (ctx : Fin 512) (s : State) : Host.Outcome State Fault Refusal :=
  act (issue .calli opCalli (ctxKey tile ctx)) s

/-- BRI: Pops a target and branches. (R338) -/
def execBri (tile : Fin 17) (ctx : Fin 512) (s : State) : Host.Outcome State Fault Refusal := act (issue .bri opBri (ctxKey tile ctx)) s

/-- RET: Pops a return offset and branches. (R338) -/
def execRet (tile : Fin 17) (ctx : Fin 512) (s : State) : Host.Outcome State Fault Refusal := act (issue .ret opRet (ctxKey tile ctx)) s

/-- END: Ends the thread normally. (R339) -/
def execEnd (tile : Fin 17) (ctx : Fin 512) (s : State) : Host.Outcome State Fault Refusal := act (issue .end_ opEnd (ctxKey tile ctx)) s

/-- RDS: Pushes a special register. (R340) -/
def execRds (tile : Fin 17) (ctx : Fin 512) (s : State) : Host.Outcome State Fault Refusal := act (issue .rds opRds (ctxKey tile ctx)) s

/-- WRS: Pops a word into a writable special register. (R340) -/
def execWrs (tile : Fin 17) (ctx : Fin 512) (s : State) : Host.Outcome State Fault Refusal := act (issue .wrs opWrs (ctxKey tile ctx)) s

/-- RDWAIT: Pushes the wait counter and latest resource id, optionally clearing them. (R340) -/
def execRdwait (tile : Fin 17) (ctx : Fin 512) (s : State) : Host.Outcome State Fault Refusal :=
  act (issue .rdwait opRdwait (ctxKey tile ctx)) s

/-- SGRD: Pushes the two words of a segment descriptor. (R340) -/
def execSgrd (tile : Fin 17) (ctx : Fin 512) (s : State) : Host.Outcome State Fault Refusal := act (issue .sgrd opSgrd (ctxKey tile ctx)) s

/-- WAITC: Waits until a counter is at most n, then pushes and clears its latched status. (R288) -/
def execWaitc (tile : Fin 17) (ctx : Fin 512) (s : State) : Host.Outcome State Fault Refusal :=
  act (issue .waitc opWaitc (ctxKey tile ctx)) s

/-- FENCE_T: Holds the thread until its earlier accesses are performed at thread scope. (R291) -/
def execFenceT (tile : Fin 17) (ctx : Fin 512) (s : State) : Host.Outcome State Fault Refusal :=
  act (issue .fenceT opFenceT (ctxKey tile ctx)) s

/-- FENCE_D: Holds the thread until its earlier accesses are performed at device scope. (R291) -/
def execFenceD (tile : Fin 17) (ctx : Fin 512) (s : State) : Host.Outcome State Fault Refusal :=
  act (issue .fenceD opFenceD (ctxKey tile ctx)) s

/-- FENCE_S: Holds the thread until its earlier accesses and ROW_ADDs are performed at system scope. (R291) -/
def execFenceS (tile : Fin 17) (ctx : Fin 512) (s : State) : Host.Outcome State Fault Refusal :=
  act (issue .fenceS opFenceS (ctxKey tile ctx)) s

/-- GATHER: Hands a Hook descriptor gathering table rows to the Hook. (R347) -/
def execGather (tile : Fin 17) (ctx : Fin 512) (same : Bool) (s : State) : Host.Outcome State Fault Refusal :=
  act (issue .gather (opGather same) (ctxKey tile ctx)) s

/-- POOL: Hands a Hook descriptor pooling bags to the Hook and Bag Unit. (R347) -/
def execPool (tile : Fin 17) (ctx : Fin 512) (same : Bool) (s : State) : Host.Outcome State Fault Refusal :=
  act (issue .pool (opPool same) (ctxKey tile ctx)) s

/-- GATHER_ADDR: Hands a Hook descriptor copying raw rows by segment offset to the Hook. (R360) -/
def execGatherAddr (tile : Fin 17) (ctx : Fin 512) (same : Bool) (s : State) : Host.Outcome State Fault Refusal :=
  act (issue .gatherAddr (opGatherAddr same) (ctxKey tile ctx)) s

/-- GATHER_RESUME: Continues a retained partial Hook operation from a restart index. (R359) -/
def execGatherResume (tile : Fin 17) (ctx : Fin 512) (same : Bool) (s : State) : Host.Outcome State Fault Refusal :=
  act (issue .gatherResume (opGatherResume same) (ctxKey tile ctx)) s

/-- ROW_ADD: Hands a ROW_ADD descriptor chain to the Purl for acceptance. (R379) -/
def execRowAdd (tile : Fin 17) (ctx : Fin 512) (same : Bool) (s : State) : Host.Outcome State Fault Refusal :=
  act (issue .rowAdd (opRowAdd same) (ctxKey tile ctx)) s

/-- STREAM: Activates a stream descriptor for pre-walking. (R246) -/
def execStream (tile : Fin 17) (ctx : Fin 512) (s : State) : Host.Outcome State Fault Refusal :=
  act (issue .stream opStream (ctxKey tile ctx)) s

/-- MXOP: Hands an MXOP descriptor to the tile's Matrix Unit queue. (R403) -/
def execMxop (tile : Fin 17) (ctx : Fin 512) (s : State) : Host.Outcome State Fault Refusal := act (issue .mxop opMxop (ctxKey tile ctx)) s

/-- THREAD_PLACEMENT: The work distributor places a waiting thread on the tile with the most free contexts. (R281) -/
def execThreadPlacement (s : State) : Host.Outcome State Fault Refusal := act placeThread s

/-- CLAIM_GRANT: A freed unit is granted to the head waiting claim of the highest eligible class. (R449) -/
def execClaimGrant (res : BitVec 16) (scope : BitVec 16) (s : State) : Host.Outcome State Fault Refusal :=
  act (claimGrant res.toNat scope.toNat) s

/-- ACCESS_PERFORMED: An earlier store or other write of a thread becomes performed at a fence's scope, releasing a thread held in that fence. (R291) -/
def execAccessPerformed (tile : Fin 17) (ctx : Fin 512) (scope : FenceScope) (s : State) : Host.Outcome State Fault Refusal :=
  act (accessPerformed (ctxKey tile ctx) scope) s

end Sys2Proof.Machine
end

