-- ==== Sys2Proof/Machine/QueueRows.lean ====
section
/-! DEFINITION. Stitch queues (03). One meaning per row. -/

namespace Sys2Proof.Machine

open Sys2Proof

/-- SQ_PACKET_COMMIT: A producer writes a packet's last word and the packet becomes visible. (R51) -/
def execSqPacketCommit (id : BitVec 12) (words : List W64) (s : State) : Host.Outcome State Fault Refusal := act (sqCommit id.toNat words) s

/-- SQ_BAD_FLAG: A producer flags its packet bad and the instance frogs it. (R52) -/
def execSqBadFlag (id : BitVec 12) (s : State) : Host.Outcome State Fault Refusal := act (sqBad id.toNat) s

/-- SQ_FLUSH_REQUEST: An owning block requests a flush of a stitch-queue instance. (R54) -/
def execSqFlushRequest (id : BitVec 12) (s : State) : Host.Outcome State Fault Refusal := act (sqFlushRequest id.toNat) s

/-- SQ_FLUSH_TAKES_EFFECT: The flush takes effect at the producer's packet boundary and the epoch advances. (R54) -/
def execSqFlushTakesEffect (id : BitVec 12) (s : State) : Host.Outcome State Fault Refusal := act (sqFlushEffect id.toNat) s

/-- SQ_CONSUMER_READ: A consumer reads a word, with SEC-DED correction or packet discard. (R63) -/
def execSqConsumerRead (id : BitVec 12) (fault : SqFault) (s : State) : Host.Outcome State Fault Refusal := act (sqRead id.toNat fault) s

/-- STALE_TAIL_TIMEOUT: The stale-tail timer fires and TAIL makes the consumer read down to EMPTY. (R61) -/
def execStaleTailTimeout (id : BitVec 12) (canRead : Bool) (s : State) : Host.Outcome State Fault Refusal :=
  act (sqTimeout id.toNat canRead) s

end Sys2Proof.Machine
end

