-- ==== Sys2Proof/Machine/RegisterRows.lean ====
section
/-! DEFINITION. Registers, the BAR2 aperture and the host link (06, 26). One meaning per row. -/

namespace Sys2Proof.Machine

open Sys2Proof

/-- MB_SQ_TAIL: A submission doorbell write publishes commands to the mailbox engine. (R144) -/
def execMbSqTail (qp : Fin 64) (v : W32) (s : State) : Host.Outcome State Fault Refusal := act (barWrite (0x20000 + 8 * qp.val) 4 v.toNat) s

/-- MB_CQ_HEAD: A completion doorbell write releases completion entries and lets waiting completions post. (R144) -/
def execMbCqHead (qp : Fin 64) (v : W32) (s : State) : Host.Outcome State Fault Refusal := act (barWrite (0x20004 + 8 * qp.val) 4 v.toNat) s

/-- QP0_ENABLE: Writing EN from 0 to 1 latches and checks queue pair 0's rings and enables it. (R143) -/
def execQp0Enable (v : W64) (s : State) : Host.Outcome State Fault Refusal := act (barWrite 0x10008 8 (v ||| 1).toNat) s

/-- QP0_DISABLE: Writing EN 0 disables queue pair 0 as a deletion does. (R163) -/
def execQp0Disable (v : W64) (s : State) : Host.Outcome State Fault Refusal := act (barWrite 0x10008 8 (v &&& ~~~ 3).toNat) s

/-- REINIT: Writing REINIT re-initialises a disabled or quarantined queue pair 0. (R164) -/
def execReinit (v : W64) (s : State) : Host.Outcome State Fault Refusal := act (barWrite 0x10008 8 (v ||| 2).toNat) s

/-- HL_AP_SLICE: A write sets an aperture slice's tag, base, class and rights for later BAR2 requests. (R129) -/
def execHlApSlice (k : Fin 8) (part : RegPart) (v : W64) (s : State) : Host.Outcome State Fault Refusal :=
  act (partWrite (0x100 + 8 * k.val) part v) s

/-- HL_VIOL_COUNT: A read returns and clears the count of host-side violations. (R531) -/
def execHlViolCount (s : State) : Host.Outcome State Fault Refusal := act (barRead 0x8 4) s

/-- HL_AP_REFUSED: A read returns and clears the count of refused BAR2 accesses. (R531) -/
def execHlApRefused (s : State) : Host.Outcome State Fault Refusal := act (barRead 0xC 4) s

/-- SQ_SEL: A write selects the stitch-queue instance shown by the SQ_ window. (R64) -/
def execSqSel (v : W32) (s : State) : Host.Outcome State Fault Refusal := act (barWrite 0xA0000 4 v.toNat) s

/-- SQ_INFO: A read returns the selected instance's state and clears HIGH_WATER. (R64) -/
def execSqInfo (part : RegPart) (s : State) : Host.Outcome State Fault Refusal := act (partRead 0xA0008 part) s

/-- SQ_COUNT: A read returns and clears the selected instance's four counters together. (R65) -/
def execSqCount (part : RegPart) (s : State) : Host.Outcome State Fault Refusal := act (partRead 0xA0010 part) s

/-- ER_SUMMARY: A write of ones clears class pending bits. (R465) -/
def execErSummary (v : W32) (s : State) : Host.Outcome State Fault Refusal := act (barWrite 0x40000 4 v.toNat) s

/-- ER_COUNT: A read returns and clears the occurrence count of one error class. (R465) -/
def execErCount (k : Fin 5) (s : State) : Host.Outcome State Fault Refusal := act (barRead (0x40020 + 4 * k.val) 4) s

/-- ER_MEM_SEL: A write selects the memory cell and stack for the ER_MEM registers. (R277) -/
def execErMemSel (v : W32) (s : State) : Host.Outcome State Fault Refusal := act (barWrite 0x40100 4 v.toNat) s

/-- ER_MEM_COUNT: A read returns and clears the selected cell's error counts. (R277) -/
def execErMemCount (part : RegPart) (s : State) : Host.Outcome State Fault Refusal := act (partRead 0x40108 part) s

/-- ER_MEM_STACK: A read returns and clears the selected stack's error totals. (R277) -/
def execErMemStack (part : RegPart) (s : State) : Host.Outcome State Fault Refusal := act (partRead 0x40110 part) s

/-- ER_MEM_POISON: A read returns poison and parking counts and clears REPAIRED. (R277) -/
def execErMemPoison (part : RegPart) (s : State) : Host.Outcome State Fault Refusal := act (partRead 0x40118 part) s

/-- PM_EVENT: A write of ones clears power event bits. (R490) -/
def execPmEvent (v : W32) (s : State) : Host.Outcome State Fault Refusal := act (barWrite 0x50008 4 v.toNat) s

/-- PM_THROTTLE_US: A read returns and clears the microseconds spent throttled. (R490) -/
def execPmThrottleUs (s : State) : Host.Outcome State Fault Refusal := act (barRead 0x50018 4) s

/-- TY_ALARM: A write of one clears the dropped-stitch ALARM bit. (R457) -/
def execTyAlarm (part : RegPart) (v : W64) (s : State) : Host.Outcome State Fault Refusal := act (partWrite 0x80000 part v) s

/-- TX_FR_HEAD: A write releases fault-ring slots before the new head. (R249) -/
def execTxFrHead (v : W32) (s : State) : Host.Outcome State Fault Refusal := act (barWrite 0x90000 4 v.toNat) s

/-- GG_BEAT: A read returns the beat count and latches the phase of the same instant. (R534) -/
def execGgBeat (part : RegPart) (s : State) : Host.Outcome State Fault Refusal := act (partRead 0x30008 part) s

/-- GG_PHASE: A read returns the latched phase and releases the latch, or the current phase. (R534) -/
def execGgPhase (s : State) : Host.Outcome State Fault Refusal := act (barRead 0x30010 4) s

/-- MSIX_UNMASK: Clearing a vector or function mask sends one message for each pending vector. (R136) -/
def execMsixUnmask (v : Option (Fin 128)) (s : State) : Host.Outcome State Fault Refusal := act (unmask v) s

/-- REGISTER_WRITE: A write to a BAR0 register with no behaviour of its own updates its fields by access code. (R8) -/
def execRegisterWrite (off : BitVec 24) (size : Fin 9) (v : W64) (s : State) : Host.Outcome State Fault Refusal :=
  act (barWrite off.toNat size.val v.toNat) s

/-- BAR2_READ: A host read through an aperture slice is translated and served or refused. (R128) -/
def execBar2Read (off : BitVec 36) (len : BitVec 16) (ecc : Ecc) (s : State) : Host.Outcome State Fault Refusal :=
  act (bar2Read off.toNat len.toNat ecc) s

/-- BAR2_WRITE: A host store through an aperture slice is translated and written or dropped. (R131) -/
def execBar2Write (off : BitVec 36) (data : List (Option Byte)) (s : State) : Host.Outcome State Fault Refusal :=
  act (bar2Write off.toNat data) s

/-- HOST_TLP_VIOLATION: A malformed, unsupported or unexpected TLP from the host gets its defined answer. (R138) -/
def execHostTlpViolation (kind : TlpKind) (addr : W64) (s : State) : Host.Outcome State Fault Refusal := act (tlpViolation kind addr) s

/-- D3HOT_ENTRY: Entering D3hot stops BAR answers and holds every device-initiated request. (R120) -/
def execD3hotEntry (s : State) : Host.Outcome State Fault Refusal := act d3Enter s

/-- D0_RETURN: Returning to D0 releases held requests in order and sends pending MSI-X. (R120) -/
def execD0Return (s : State) : Host.Outcome State Fault Refusal := act d0Return s

/-- BUS_MASTER_ENABLE_CLEAR: Clearing Bus Master Enable holds every device-initiated request. (R121) -/
def execBusMasterEnableClear (s : State) : Host.Outcome State Fault Refusal := act bmeClear s

/-- BUS_MASTER_ENABLE_SET: Setting Bus Master Enable releases the held requests. (R121) -/
def execBusMasterEnableSet (s : State) : Host.Outcome State Fault Refusal := act bmeSet s

/-- FLR: A function level reset runs a warm reset that drops queue pairs and resets configuration space. (R101) -/
def execFlr (s : State) : Host.Outcome State Fault Refusal := act flrReset s

/-- LINK_TRAINING_COMPLETE: The host link trains or retrains at a width and rate, logged when reduced. (R119) -/
def execLinkTrainingComplete (width : Fin 17) (rate : Fin 7) (flit cxl : Bool) (s : State) : Host.Outcome State Fault Refusal :=
  act (linkTrained width.val rate.val flit cxl) s

/-- DEVICE_READ_REFUSED: A device-initiated read ends with UR, CA or timeout and is answered by what it read. (R134) -/
def execDeviceReadRefused (what : RefusedRead) (s : State) : Host.Outcome State Fault Refusal := act (readRefused what) s

end Sys2Proof.Machine
end

