-- ==== Sys2Proof/Machine/ResetRows.lean ====
section
/-! DEFINITION. Power, pins, resets, cast-on and the firmware's banks (05, 25, 27). One meaning per row. -/

namespace Sys2Proof.Machine

open Sys2Proof

/-- POWER_GOOD: Main and auxiliary inputs become valid and cast-on stage S0 ends. (R540) -/
def execPowerGood (s : State) : Host.Outcome State Fault Refusal := actAny powerGood s

/-- INPUT_VOLTAGE_EXCURSION: The main input leaves 38–62 V for over 50 µs and the module powers off. (R541) -/
def execInputVoltageExcursion (mv : W32) (s : State) : Host.Outcome State Fault Refusal := actAny (inputExcursion mv) s

/-- RAIL_EXCURSION: A rail stays outside twice its window for over 100 µs and power good is removed. (R544) -/
def execRailExcursion (rail : Fin 24) (mv : W32) (s : State) : Host.Outcome State Fault Refusal := actAny (railExcursion rail mv) s

/-- MOD_RESET_ASSERT: MOD_RESET# low for 10 µs starts a cold reset. (R547) -/
def execModResetAssert (s : State) : Host.Outcome State Fault Refusal := actAny modResetAssert s

/-- MOD_RESET_DEASSERT: MOD_RESET# deassertion lets stage S1 begin. (R548) -/
def execModResetDeassert (s : State) : Host.Outcome State Fault Refusal := actAny modResetDeassert s

/-- WARM_RESET_ASSERT: WARM_RESET# low for 1 µs starts the warm reset quiesce. (R100) -/
def execWarmResetAssert (s : State) : Host.Outcome State Fault Refusal := actAny warmResetAssert s

/-- WARM_RESET_DEASSERT: WARM_RESET# deassertion lets the warm bring-up begin. (R548) -/
def execWarmResetDeassert (s : State) : Host.Outcome State Fault Refusal := actAny warmResetDeassert s

/-- PERST_ASSERT: PERST# assertion starts a warm reset that drops queue pairs and resets the link. (R99) -/
def execPerstAssert (s : State) : Host.Outcome State Fault Refusal := actAny perstAssert s

/-- PERST_DEASSERT: PERST# deassertion starts host link training. (R91) -/
def execPerstDeassert (s : State) : Host.Outcome State Fault Refusal := actAny perstDeassert s

/-- QUIESCE_COMPLETE: The quiesce ends with every accepted update applied, parked or in the retransmit store. (R100) -/
def execQuiesceComplete (ns : W32) (s : State) : Host.Outcome State Fault Refusal := actAny (quiesceComplete ns) s

/-- QUIESCE_TIMEOUT: The quiesce passes 1 ms and the reset completes as a cold reset. (R100) -/
def execQuiesceTimeout (ns : W32) (s : State) : Host.Outcome State Fault Refusal := actAny (quiesceTimeout ns) s

/-- CAST_ON_S1: The boot ROM reads fuses, selects a boot bank and checks keys. (R90) -/
def execCastOnS1 (b : BootReport) (s : State) : Host.Outcome State Fault Refusal := actAny (castOnS1 b) s

/-- CAST_ON_S2: The selected boot bank is loaded into Pyrat-M SRAM with its signature checked. (R89) -/
def execCastOnS2 (s : State) : Host.Outcome State Fault Refusal := actAny castOnS2 s

/-- CAST_ON_S3: The firmware trains HBM, makes reservations, sets exponents, recounts and examines the journal. (R89) -/
def execCastOnS3 (h : HardwareReport) (s : State) : Host.Outcome State Fault Refusal := actAny (castOnS3 h) s

/-- CAST_ON_S4: The host link function enables BAR2, MSI-X and device-initiated writes. (R91) -/
def execCastOnS4 (s : State) : Host.Outcome State Fault Refusal := actAny castOnS4 s

/-- CAST_ON_S5: READY is set and queue pair 0 is serviced, acting on held doorbells. (R92) -/
def execCastOnS5 (s : State) : Host.Outcome State Fault Refusal := actAny castOnS5 s

/-- CAST_ON_S7: The device becomes operational; Henur ports train and gauge lock begins. (R93) -/
def execCastOnS7 (s : State) : Host.Outcome State Fault Refusal := actAny castOnS7 s

/-- STAGE_TIME_EXCEEDED: A cast-on stage passes its maximum time and the device is held with FAIL_CODE. (R95) -/
def execStageTimeExceeded (s : State) : Host.Outcome State Fault Refusal := actAny stageTime s

/-- CLOSE_RESUME: After S5 a close interrupted by a warm reset restarts its interrupted stage. (R106) -/
def execCloseResume (s : State) : Host.Outcome State Fault Refusal := actAny closeResume s

/-- SELF_CONFIRMATION: A TRIAL image confirms itself and its bank record becomes CONFIRMED. (R519) -/
def execSelfConfirmation (s : State) : Host.Outcome State Fault Refusal := act selfConfirm s

/-- TRIAL_WINDOW_EXPIRY: The 30 s trial window expires; the trial fails and a warm reset restores the previous image. (R520) -/
def execTrialWindowExpiry (s : State) : Host.Outcome State Fault Refusal := act trialExpiry s

/-- APPLY_COMPLETE: The apply of a staged image or delta writes and verifies the inactive bank. (R512) -/
def execApplyComplete (s : State) : Host.Outcome State Fault Refusal := act applyEnd s

/-- AUX_INPUT_REMOVED: The 3.3 V auxiliary input is removed and the always-on domain, the trip latch and the THERM_TRIP# driver lose power. (R548) -/
def execAuxInputRemoved (s : State) : Host.Outcome State Fault Refusal := actAny auxRemoved s

end Sys2Proof.Machine
end

