-- ==== Sys2Proof/Machine/SidebandRows.lean ====
section
/-! DEFINITION. The sideband, SPDM and host-link answers (23, 24). One meaning per row. -/

namespace Sys2Proof.Machine

open Sys2Proof

/-- ENTDAA: A dynamic address assignment ends standalone mode and drops the grant to 450 W. (R481) -/
def execEntdaa (a : BitVec 7) (s : State) : Host.Outcome State Fault Refusal := act (dynamicAddress a) s

/-- SET_ENDPOINT_ID: MCTP control command setting the endpoint id. (R477) -/
def execSetEndpointId (eid : Byte) (s : State) : Host.Outcome State Fault Refusal := act (setEid eid) s

/-- GET_ENDPOINT_ID: MCTP control command returning the endpoint id. (R477) -/
def execGetEndpointId (s : State) : Host.Outcome State Fault Refusal := act getEid s

/-- GET_MCTP_VERSION_SUPPORT: MCTP control command returning supported versions. (R477) -/
def execGetMctpVersionSupport (s : State) : Host.Outcome State Fault Refusal := act (sbAnswer (.values Config.mctpVersions)) s

/-- GET_MESSAGE_TYPE_SUPPORT: MCTP control command returning supported message types. (R477) -/
def execGetMessageTypeSupport (s : State) : Host.Outcome State Fault Refusal := act (sbAnswer (.values [1])) s

/-- GET_TID: PLDM base command returning the terminus id. (R477) -/
def execGetTid (s : State) : Host.Outcome State Fault Refusal := act (sbAnswer (.values [Config.pldmTid])) s

/-- GET_PLDM_VERSION: PLDM base command returning a type's version. (R477) -/
def execGetPldmVersion (type : Byte) (s : State) : Host.Outcome State Fault Refusal :=
  act (pldmOf type.toNat (.values [Config.pldmVersion type.toNat])) s

/-- GET_PLDM_TYPES: PLDM base command reporting types 0, 2 and 4. (R498) -/
def execGetPldmTypes (s : State) : Host.Outcome State Fault Refusal := act (sbAnswer (.values pldmTypes)) s

/-- GET_PLDM_COMMANDS: PLDM base command listing a type's commands. (R477) -/
def execGetPldmCommands (type : Byte) (s : State) : Host.Outcome State Fault Refusal :=
  act (pldmOf type.toNat (.names (pldmCommands type.toNat))) s

/-- GET_PDR_REPOSITORY_INFO: PLDM platform command describing the PDR repository. (R488) -/
def execGetPdrRepositoryInfo (s : State) : Host.Outcome State Fault Refusal := act (sbAnswer (.values [pdrIds.length])) s

/-- GET_PDR: PLDM platform command returning a PDR. (R488) -/
def execGetPdr (id : BitVec 16) (s : State) : Host.Outcome State Fault Refusal := act (getPdr id.toNat) s

/-- GET_SENSOR_READING: PLDM platform command returning a numeric sensor reading. (R488) -/
def execGetSensorReading (id : BitVec 16) (s : State) : Host.Outcome State Fault Refusal := act (answerWith (numericSensor id.toNat)) s

/-- GET_STATE_SENSOR_READINGS: PLDM platform command returning state sensors 110 and 111. (R488) -/
def execGetStateSensorReadings (id : BitVec 16) (s : State) : Host.Outcome State Fault Refusal := act (answerWith (stateSensor id.toNat)) s

/-- GET_NUMERIC_EFFECTER_VALUE: PLDM platform command returning an effecter value. (R488) -/
def execGetNumericEffecterValue (id : BitVec 16) (s : State) : Host.Outcome State Fault Refusal := act (answerWith (effecter id.toNat)) s

/-- SET_EVENT_RECEIVER: PLDM platform command setting the receiver of sensor events. (R488) -/
def execSetEventReceiver (receiver : Option Byte) (s : State) : Host.Outcome State Fault Refusal := act (setReceiver receiver) s

/-- GET_FRU_RECORD_TABLE_METADATA: PLDM FRU command describing the record table. (R498) -/
def execGetFruRecordTableMetadata (s : State) : Host.Outcome State Fault Refusal := act fruMetadata s

/-- GET_FRU_RECORD_TABLE: PLDM FRU command returning one snapshot of identity and tags. (R498) -/
def execGetFruRecordTable (first : Bool) (s : State) : Host.Outcome State Fault Refusal := act (fruTable first) s

/-- UNSUPPORTED_SIDEBAND_REQUEST: An unsupported MCTP or PLDM request is answered with an error and no effect. (R477) -/
def execUnsupportedSidebandRequest (s : State) : Host.Outcome State Fault Refusal := act (sbAnswer (.error .unsupported)) s

/-- GET_VERSION: SPDM request returning version 1.2 and resetting the session state. (R506) -/
def execGetVersion (s : State) : Host.Outcome State Fault Refusal := act spdmGetVersion s

/-- GET_CAPABILITIES: SPDM request returning CERT, CHAL and MEAS capabilities. (R506) -/
def execGetCapabilities (ver : Byte) (s : State) : Host.Outcome State Fault Refusal := act (spdmCapabilities ver) s

/-- NEGOTIATE_ALGORITHMS: SPDM request selecting P-384 and SHA-384. (R506) -/
def execNegotiateAlgorithms (ver : Byte) (s : State) : Host.Outcome State Fault Refusal := act (spdmAlgorithms ver) s

/-- GET_DIGESTS: SPDM request returning the certificate chain digest of slot 0. (R506) -/
def execGetDigests (ver : Byte) (s : State) : Host.Outcome State Fault Refusal := act (spdmDigests ver) s

/-- GET_CERTIFICATE: SPDM request returning the slot 0 certificate chain. (R506) -/
def execGetCertificate (ver : Byte) (slot : Fin 8) (off len : BitVec 16) (s : State) : Host.Outcome State Fault Refusal :=
  act (spdmCertificate ver slot off len) s

/-- CHALLENGE: SPDM request answered with a response signed by the device-unique key. (R506) -/
def execChallenge (ver : Byte) (slot : Fin 8) (s : State) : Host.Outcome State Fault Refusal := act (spdmChallenge ver slot) s

/-- GET_MEASUREMENTS: SPDM request returning the six measurement blocks. (R507) -/
def execGetMeasurements (ver index : Byte) (sign : Bool) (s : State) : Host.Outcome State Fault Refusal :=
  act (spdmMeasurements ver index sign) s

/-- SPDM_UNSUPPORTED_REQUEST: An unimplemented SPDM request or version is answered with an error. (R506) -/
def execSpdmUnsupportedRequest (ver : Byte) (s : State) : Host.Outcome State Fault Refusal := act (spdmOther ver) s

/-- H2D_SNOOP: A CXL.cache H2D snoop from the host is answered RspIHitI. (R122) -/
def execH2dSnoop (s : State) : Host.Outcome State Fault Refusal := act h2dSnoop s

/-- DOE_DISCOVERY: A DOE Discovery request from the host is answered with the supported DOE protocols. (R116) -/
def execDoeDiscovery (index : Byte) (s : State) : Host.Outcome State Fault Refusal := act (doeDiscovery index) s

end Sys2Proof.Machine
end

