-- ==== Sys2Proof/Machine/TierRows.lean ====
section
/-! DEFINITION. Translation, residency, drives, memory and scrubbing (10, 11, 12). One meaning per row. -/

namespace Sys2Proof.Machine

open Sys2Proof

/-- WALK_COMPLETE: A Translation Hub walk ends at a leaf, a V=0 entry or a malformed entry. (R236) -/
def execWalkComplete (tag : BitVec 12) (va : BitVec 52) (s : State) : Host.Outcome State Fault Refusal := act (walkComplete tag va) s

/-- STREAM_PREWALK: The Hub walks pages ahead of an active stream's highest accessed page. (R246) -/
def execStreamPrewalk (tile : Fin 16) (purl : Bool) (k : Fin 16) (s : State) : Host.Outcome State Fault Refusal :=
  act (streamPrewalk tile purl k.val) s

/-- FAULT_RECORD_WRITE: A pending fault record is written into a released fault-ring slot. (R249) -/
def execFaultRecordWrite (s : State) : Host.Outcome State Fault Refusal := act faultRecordWrite s

/-- FAULT_WATCHDOG: Each second with a record outstanding the Hub raises vector 65. (R251) -/
def execFaultWatchdog (s : State) : Host.Outcome State Fault Refusal := act faultWatchdog s

/-- INVAL_ACK: An engine acknowledges a range invalidation and the last ack runs the pool update. (R253) -/
def execInvalAck (i : Nat) (engine : Fin 58) (s : State) : Host.Outcome State Fault Refusal := act (invalAck i engine) s

/-- FAULT_IN_COMPLETE: A fault-in fill ends or fails and the stalled engines replay or fault. (R217) -/
def execFaultInComplete (table : BitVec 20) (blk : BitVec 41) (s : State) : Host.Outcome State Fault Refusal :=
  act (faultInEnd table.toNat blk.toNat) s

/-- WRITE_BACK_COMPLETE: A write-back ends, is journaled DONE and the directory entry is updated. (R222) -/
def execWriteBackComplete (table : BitVec 20) (blk : BitVec 41) (s : State) : Host.Outcome State Fault Refusal :=
  act (wbEnd table.toNat blk.toNat) s

/-- DEALLOCATE_COMPLETE: A Dataset Management deallocate of an old home completes and is journaled. (R222) -/
def execDeallocateComplete (port : Fin 4) (table : BitVec 20) (blk : BitVec 41) (lba : W64) (s : State) : Host.Outcome State Fault Refusal :=
  act (deallocComplete port table.toNat blk.toNat lba.toNat) s

/-- NVME_COMPLETION: An NVMe completion arrives and is matched, or counted as a drive fault. (R229) -/
def execNvmeCompletion (port : Fin 4) (id : Nat) (headOk ok : Bool) (s : State) : Host.Outcome State Fault Refusal :=
  act (nvmeComplete port id headOk ok) s

/-- NVME_COMMAND_TIMEOUT: An NVMe command not completed within 8 s is aborted. (R229) -/
def execNvmeCommandTimeout (port : Fin 4) (id : Nat) (s : State) : Host.Outcome State Fault Refusal := act (nvmeTimeout port id) s

/-- NVME_ABORT_TIMEOUT: An aborted command not completed in 2 s more is counted again and abandoned. (R229) -/
def execNvmeAbortTimeout (port : Fin 4) (id : Nat) (s : State) : Host.Outcome State Fault Refusal := act (nvmeAbortTimeout port id) s

/-- CONTROLLER_FATAL_STATUS: A drive's CSTS.CFS becomes 1 and the drive is fenced. (R229) -/
def execControllerFatalStatus (port : Fin 4) (s : State) : Host.Outcome State Fault Refusal := act (controllerFatal port) s

/-- NVME_LINK_DOWN: An NVMe port's link goes down and its drive is fenced. (R229) -/
def execNvmeLinkDown (port : Fin 4) (s : State) : Host.Outcome State Fault Refusal := act (nvmeLinkDown port) s

/-- SCRUB_READ: The Scrubber reads a sector, correcting, poisoning or retrying repair. (R276) -/
def execScrubRead (stack : Fin 8) (ecc : Ecc) (s : State) : Host.Outcome State Fault Refusal := act (scrubRead stack ecc) s

/-- REPAIR_COMPLETE: A repair source read ends and the sector is rewritten clean or the next source tried. (R265) -/
def execRepairComplete (sector : BitVec 39) (ok : Bool) (s : State) : Host.Outcome State Fault Refusal := act (repairEnd sector.toNat ok) s

/-- D2D_RETRY_EXHAUSTED: A die-to-die link error survives 16 retries and is a fatal error. (R41) -/
def execD2dRetryExhausted (link : Fin 4) (s : State) : Host.Outcome State Fault Refusal := act (d2dExhausted link) s

/-- SCRUB_SLOT_END: A scrub slot's length runs out; the Scrubber stops, or returns to background mode at the end of a one-shot slot. (R275) -/
def execScrubSlotEnd (s : State) : Host.Outcome State Fault Refusal := act scrubSlotEnd s

end Sys2Proof.Machine
end

