-- ==== Sys2Proof/Machine/Dispatch.lean ====
section
/-! DEFINITION. One arm per constructor: each calls its meaning. -/

namespace Sys2Proof.Machine

open Sys2Proof

/-- What a command does to everything but the queue. -/
def exec (i : Instr) (s : State) : Host.Outcome State Fault Refusal :=
  match i with
  | .negotiate qp e => Sys2Proof.Machine.execNegotiate qp e s
  | .identify qp e => Sys2Proof.Machine.execIdentify qp e s
  | .qpCreate qp e => Sys2Proof.Machine.execQpCreate qp e s
  | .qpDelete qp e => Sys2Proof.Machine.execQpDelete qp e s
  | .bindOff qp e => Sys2Proof.Machine.execBindOff qp e s
  | .warmReset qp e => Sys2Proof.Machine.execWarmReset qp e s
  | .resetReport qp e => Sys2Proof.Machine.execResetReport qp e s
  | .asCreate qp e => Sys2Proof.Machine.execAsCreate qp e s
  | .asDestroy qp e => Sys2Proof.Machine.execAsDestroy qp e s
  | .ptWrite qp e => Sys2Proof.Machine.execPtWrite qp e s
  | .invalTag qp e => Sys2Proof.Machine.execInvalTag qp e s
  | .invalRange qp e => Sys2Proof.Machine.execInvalRange qp e s
  | .faultRingSet qp e => Sys2Proof.Machine.execFaultRingSet qp e s
  | .faultResume qp e => Sys2Proof.Machine.execFaultResume qp e s
  | .tableCreate qp e => Sys2Proof.Machine.execTableCreate qp e s
  | .tableDestroy qp e => Sys2Proof.Machine.execTableDestroy qp e s
  | .tableQuery qp e => Sys2Proof.Machine.execTableQuery qp e s
  | .hotsetLoad qp e => Sys2Proof.Machine.execHotsetLoad qp e s
  | .hotsetRefresh qp e => Sys2Proof.Machine.execHotsetRefresh qp e s
  | .hotsetDrop qp e => Sys2Proof.Machine.execHotsetDrop qp e s
  | .prefetch qp e => Sys2Proof.Machine.execPrefetch qp e s
  | .advise qp e => Sys2Proof.Machine.execAdvise qp e s
  | .replicaSet qp e => Sys2Proof.Machine.execReplicaSet qp e s
  | .replicaDrop qp e => Sys2Proof.Machine.execReplicaDrop qp e s
  | .driveUnfence qp e r => Sys2Proof.Machine.execDriveUnfence qp e r s
  | .patternLoad qp e => Sys2Proof.Machine.execPatternLoad qp e s
  | .patternUnload qp e => Sys2Proof.Machine.execPatternUnload qp e s
  | .launch qp e => Sys2Proof.Machine.execLaunch qp e s
  | .stepOpen qp e => Sys2Proof.Machine.execStepOpen qp e s
  | .stepConfirm qp e => Sys2Proof.Machine.execStepConfirm qp e s
  | .stepClose qp e => Sys2Proof.Machine.execStepClose qp e s
  | .specOpen qp e => Sys2Proof.Machine.execSpecOpen qp e s
  | .specAbandon qp e => Sys2Proof.Machine.execSpecAbandon qp e s
  | .stepQuery qp e => Sys2Proof.Machine.execStepQuery qp e s
  | .tileReset qp e => Sys2Proof.Machine.execTileReset qp e s
  | .fabricId qp e => Sys2Proof.Machine.execFabricId qp e s
  | .portConfig qp e => Sys2Proof.Machine.execPortConfig qp e s
  | .shardmapLoad qp e => Sys2Proof.Machine.execShardmapLoad qp e s
  | .portReset qp e r => Sys2Proof.Machine.execPortReset qp e r s
  | .portUnfence qp e => Sys2Proof.Machine.execPortUnfence qp e s
  | .fabricStatus qp e => Sys2Proof.Machine.execFabricStatus qp e s
  | .gaugeConfig qp e => Sys2Proof.Machine.execGaugeConfig qp e s
  | .gaugeRebase qp e => Sys2Proof.Machine.execGaugeRebase qp e s
  | .schedRead qp e => Sys2Proof.Machine.execSchedRead qp e s
  | .schedCancel qp e => Sys2Proof.Machine.execSchedCancel qp e s
  | .scrubSlot qp e => Sys2Proof.Machine.execScrubSlot qp e s
  | .tensionSlot qp e => Sys2Proof.Machine.execTensionSlot qp e s
  | .powerCap qp e => Sys2Proof.Machine.execPowerCap qp e s
  | .monRead qp e => Sys2Proof.Machine.execMonRead qp e s
  | .thermLimit qp e => Sys2Proof.Machine.execThermLimit qp e s
  | .logRead qp e => Sys2Proof.Machine.execLogRead qp e s
  | .logMirrorSet qp e => Sys2Proof.Machine.execLogMirrorSet qp e s
  | .tallyAudit qp e => Sys2Proof.Machine.execTallyAudit qp e s
  | .tallyRead qp e => Sys2Proof.Machine.execTallyRead qp e s
  | .idRead qp e => Sys2Proof.Machine.execIdRead qp e s
  | .tagRead qp e => Sys2Proof.Machine.execTagRead qp e s
  | .tagWrite qp e => Sys2Proof.Machine.execTagWrite qp e s
  | .keyUpdate qp e bad => Sys2Proof.Machine.execKeyUpdate qp e bad s
  | .keyStatus qp e => Sys2Proof.Machine.execKeyStatus qp e s
  | .fwStage qp e => Sys2Proof.Machine.execFwStage qp e s
  | .fwActivate qp e => Sys2Proof.Machine.execFwActivate qp e s
  | .fwStatus qp e => Sys2Proof.Machine.execFwStatus qp e s
  | .fwChainSet qp e => Sys2Proof.Machine.execFwChainSet qp e s
  | .fwDiscard qp e => Sys2Proof.Machine.execFwDiscard qp e s
  | .commandFetch qp same => Sys2Proof.Machine.execCommandFetch qp same s
  | .interimCompletion qp cid => Sys2Proof.Machine.execInterimCompletion qp cid s
  | .coalTimeExpiry qp => Sys2Proof.Machine.execCoalTimeExpiry qp s
  | .mbSqTail qp v => Sys2Proof.Machine.execMbSqTail qp v s
  | .mbCqHead qp v => Sys2Proof.Machine.execMbCqHead qp v s
  | .qp0Enable v => Sys2Proof.Machine.execQp0Enable v s
  | .qp0Disable v => Sys2Proof.Machine.execQp0Disable v s
  | .reinit v => Sys2Proof.Machine.execReinit v s
  | .hlApSlice k part v => Sys2Proof.Machine.execHlApSlice k part v s
  | .hlViolCount => Sys2Proof.Machine.execHlViolCount s
  | .hlApRefused => Sys2Proof.Machine.execHlApRefused s
  | .sqSel v => Sys2Proof.Machine.execSqSel v s
  | .sqInfo part => Sys2Proof.Machine.execSqInfo part s
  | .sqCount part => Sys2Proof.Machine.execSqCount part s
  | .erSummary v => Sys2Proof.Machine.execErSummary v s
  | .erCount k => Sys2Proof.Machine.execErCount k s
  | .erMemSel v => Sys2Proof.Machine.execErMemSel v s
  | .erMemCount part => Sys2Proof.Machine.execErMemCount part s
  | .erMemStack part => Sys2Proof.Machine.execErMemStack part s
  | .erMemPoison part => Sys2Proof.Machine.execErMemPoison part s
  | .pmEvent v => Sys2Proof.Machine.execPmEvent v s
  | .pmThrottleUs => Sys2Proof.Machine.execPmThrottleUs s
  | .tyAlarm part v => Sys2Proof.Machine.execTyAlarm part v s
  | .txFrHead v => Sys2Proof.Machine.execTxFrHead v s
  | .ggBeat part => Sys2Proof.Machine.execGgBeat part s
  | .ggPhase => Sys2Proof.Machine.execGgPhase s
  | .msixUnmask v => Sys2Proof.Machine.execMsixUnmask v s
  | .registerWrite off size v => Sys2Proof.Machine.execRegisterWrite off size v s
  | .bar2Read off len ecc => Sys2Proof.Machine.execBar2Read off len ecc s
  | .bar2Write off data => Sys2Proof.Machine.execBar2Write off data s
  | .hostTlpViolation kind addr => Sys2Proof.Machine.execHostTlpViolation kind addr s
  | .d3hotEntry => Sys2Proof.Machine.execD3hotEntry s
  | .d0Return => Sys2Proof.Machine.execD0Return s
  | .busMasterEnableClear => Sys2Proof.Machine.execBusMasterEnableClear s
  | .busMasterEnableSet => Sys2Proof.Machine.execBusMasterEnableSet s
  | .flr => Sys2Proof.Machine.execFlr s
  | .linkTrainingComplete width rate flit cxl => Sys2Proof.Machine.execLinkTrainingComplete width rate flit cxl s
  | .deviceReadRefused what => Sys2Proof.Machine.execDeviceReadRefused what s
  | .powerGood => Sys2Proof.Machine.execPowerGood s
  | .inputVoltageExcursion mv => Sys2Proof.Machine.execInputVoltageExcursion mv s
  | .railExcursion rail mv => Sys2Proof.Machine.execRailExcursion rail mv s
  | .modResetAssert => Sys2Proof.Machine.execModResetAssert s
  | .modResetDeassert => Sys2Proof.Machine.execModResetDeassert s
  | .warmResetAssert => Sys2Proof.Machine.execWarmResetAssert s
  | .warmResetDeassert => Sys2Proof.Machine.execWarmResetDeassert s
  | .perstAssert => Sys2Proof.Machine.execPerstAssert s
  | .perstDeassert => Sys2Proof.Machine.execPerstDeassert s
  | .quiesceComplete ns => Sys2Proof.Machine.execQuiesceComplete ns s
  | .quiesceTimeout ns => Sys2Proof.Machine.execQuiesceTimeout ns s
  | .castOnS1 b => Sys2Proof.Machine.execCastOnS1 b s
  | .castOnS2 => Sys2Proof.Machine.execCastOnS2 s
  | .castOnS3 h => Sys2Proof.Machine.execCastOnS3 h s
  | .castOnS4 => Sys2Proof.Machine.execCastOnS4 s
  | .castOnS5 => Sys2Proof.Machine.execCastOnS5 s
  | .castOnS7 => Sys2Proof.Machine.execCastOnS7 s
  | .stageTimeExceeded => Sys2Proof.Machine.execStageTimeExceeded s
  | .closeResume => Sys2Proof.Machine.execCloseResume s
  | .gwordFrame frame since off => Sys2Proof.Machine.execGwordFrame frame since off s
  | .gaugeLock => Sys2Proof.Machine.execGaugeLock s
  | .missingEdge src => Sys2Proof.Machine.execMissingEdge src s
  | .localBeat => Sys2Proof.Machine.execLocalBeat s
  | .holdoverBeat1000 => Sys2Proof.Machine.execHoldoverBeat1000 s
  | .resumeMark => Sys2Proof.Machine.execResumeMark s
  | .stepConfirmMark idx => Sys2Proof.Machine.execStepConfirmMark idx s
  | .speculationWindowDeadline idx => Sys2Proof.Machine.execSpeculationWindowDeadline idx s
  | .stepConfirmDeadline idx => Sys2Proof.Machine.execStepConfirmDeadline idx s
  | .stepCloseMark idx => Sys2Proof.Machine.execStepCloseMark idx s
  | .tableVersionFlip idx => Sys2Proof.Machine.execTableVersionFlip idx s
  | .stepOpenMark idx => Sys2Proof.Machine.execStepOpenMark idx s
  | .speculationWindowOpen idx => Sys2Proof.Machine.execSpeculationWindowOpen idx s
  | .hotSetRefresh idx => Sys2Proof.Machine.execHotSetRefresh idx s
  | .scrubSlotBegin idx => Sys2Proof.Machine.execScrubSlotBegin idx s
  | .tensionSlotFiring idx => Sys2Proof.Machine.execTensionSlotFiring idx s
  | .firmwareActivation idx => Sys2Proof.Machine.execFirmwareActivation idx s
  | .selfConfirmation => Sys2Proof.Machine.execSelfConfirmation s
  | .trialWindowExpiry => Sys2Proof.Machine.execTrialWindowExpiry s
  | .applyComplete => Sys2Proof.Machine.execApplyComplete s
  | .sqPacketCommit id words => Sys2Proof.Machine.execSqPacketCommit id words s
  | .sqBadFlag id => Sys2Proof.Machine.execSqBadFlag id s
  | .sqFlushRequest id => Sys2Proof.Machine.execSqFlushRequest id s
  | .sqFlushTakesEffect id => Sys2Proof.Machine.execSqFlushTakesEffect id s
  | .sqConsumerRead id fault => Sys2Proof.Machine.execSqConsumerRead id fault s
  | .staleTailTimeout id canRead => Sys2Proof.Machine.execStaleTailTimeout id canRead s
  | .nop tile ctx => Sys2Proof.Machine.execNop tile ctx s
  | .dup tile ctx => Sys2Proof.Machine.execDup tile ctx s
  | .swap tile ctx => Sys2Proof.Machine.execSwap tile ctx s
  | .drop tile ctx => Sys2Proof.Machine.execDrop tile ctx s
  | .over_ tile ctx => Sys2Proof.Machine.execOver tile ctx s
  | .rot tile ctx => Sys2Proof.Machine.execRot tile ctx s
  | .pick tile ctx => Sys2Proof.Machine.execPick tile ctx s
  | .pushi tile ctx => Sys2Proof.Machine.execPushi tile ctx s
  | .pushx tile ctx => Sys2Proof.Machine.execPushx tile ctx s
  | .add tile ctx => Sys2Proof.Machine.execAdd tile ctx s
  | .sub tile ctx => Sys2Proof.Machine.execSub tile ctx s
  | .and tile ctx => Sys2Proof.Machine.execAnd tile ctx s
  | .or tile ctx => Sys2Proof.Machine.execOr tile ctx s
  | .xor tile ctx => Sys2Proof.Machine.execXor tile ctx s
  | .andn tile ctx => Sys2Proof.Machine.execAndn tile ctx s
  | .neg tile ctx => Sys2Proof.Machine.execNeg tile ctx s
  | .not tile ctx => Sys2Proof.Machine.execNot tile ctx s
  | .mins tile ctx => Sys2Proof.Machine.execMins tile ctx s
  | .maxs tile ctx => Sys2Proof.Machine.execMaxs tile ctx s
  | .minu tile ctx => Sys2Proof.Machine.execMinu tile ctx s
  | .maxu tile ctx => Sys2Proof.Machine.execMaxu tile ctx s
  | .shl tile ctx => Sys2Proof.Machine.execShl tile ctx s
  | .shr tile ctx => Sys2Proof.Machine.execShr tile ctx s
  | .sar tile ctx => Sys2Proof.Machine.execSar tile ctx s
  | .rol tile ctx => Sys2Proof.Machine.execRol tile ctx s
  | .clz tile ctx => Sys2Proof.Machine.execClz tile ctx s
  | .popc tile ctx => Sys2Proof.Machine.execPopc tile ctx s
  | .bperm tile ctx => Sys2Proof.Machine.execBperm tile ctx s
  | .bfx tile ctx => Sys2Proof.Machine.execBfx tile ctx s
  | .bfi tile ctx => Sys2Proof.Machine.execBfi tile ctx s
  | .mul tile ctx => Sys2Proof.Machine.execMul tile ctx s
  | .mulh tile ctx => Sys2Proof.Machine.execMulh tile ctx s
  | .cmp tile ctx => Sys2Proof.Machine.execCmp tile ctx s
  | .plog tile ctx => Sys2Proof.Machine.execPlog tile ctx s
  | .pfrom tile ctx => Sys2Proof.Machine.execPfrom tile ctx s
  | .pto tile ctx => Sys2Proof.Machine.execPto tile ctx s
  | .ld tile ctx ecc => Sys2Proof.Machine.execLd tile ctx ecc s
  | .loadDataArrival tile ctx => Sys2Proof.Machine.execLoadDataArrival tile ctx s
  | .st tile ctx => Sys2Proof.Machine.execSt tile ctx s
  | .aadd tile ctx => Sys2Proof.Machine.execAadd tile ctx s
  | .bcopy tile ctx => Sys2Proof.Machine.execBcopy tile ctx s
  | .bcopyCompletion idx => Sys2Proof.Machine.execBcopyCompletion idx s
  | .br tile ctx => Sys2Proof.Machine.execBr tile ctx s
  | .bz tile ctx => Sys2Proof.Machine.execBz tile ctx s
  | .bnz tile ctx => Sys2Proof.Machine.execBnz tile ctx s
  | .call tile ctx => Sys2Proof.Machine.execCall tile ctx s
  | .calli tile ctx => Sys2Proof.Machine.execCalli tile ctx s
  | .bri tile ctx => Sys2Proof.Machine.execBri tile ctx s
  | .ret tile ctx => Sys2Proof.Machine.execRet tile ctx s
  | .end_ tile ctx => Sys2Proof.Machine.execEnd tile ctx s
  | .rds tile ctx => Sys2Proof.Machine.execRds tile ctx s
  | .wrs tile ctx => Sys2Proof.Machine.execWrs tile ctx s
  | .rdwait tile ctx => Sys2Proof.Machine.execRdwait tile ctx s
  | .sgrd tile ctx => Sys2Proof.Machine.execSgrd tile ctx s
  | .waitc tile ctx => Sys2Proof.Machine.execWaitc tile ctx s
  | .fenceT tile ctx => Sys2Proof.Machine.execFenceT tile ctx s
  | .fenceD tile ctx => Sys2Proof.Machine.execFenceD tile ctx s
  | .fenceS tile ctx => Sys2Proof.Machine.execFenceS tile ctx s
  | .gather tile ctx same => Sys2Proof.Machine.execGather tile ctx same s
  | .pool tile ctx same => Sys2Proof.Machine.execPool tile ctx same s
  | .gatherAddr tile ctx same => Sys2Proof.Machine.execGatherAddr tile ctx same s
  | .gatherResume tile ctx same => Sys2Proof.Machine.execGatherResume tile ctx same s
  | .rowAdd tile ctx same => Sys2Proof.Machine.execRowAdd tile ctx same s
  | .stream tile ctx => Sys2Proof.Machine.execStream tile ctx s
  | .mxop tile ctx => Sys2Proof.Machine.execMxop tile ctx s
  | .threadPlacement => Sys2Proof.Machine.execThreadPlacement s
  | .claimGrant res scope => Sys2Proof.Machine.execClaimGrant res scope s
  | .hookElementReturn tile id elem ecc => Sys2Proof.Machine.execHookElementReturn tile id elem ecc s
  | .operationValidation tile id => Sys2Proof.Machine.execOperationValidation tile id s
  | .load tile => Sys2Proof.Machine.execLoad tile s
  | .store tile => Sys2Proof.Machine.execStore tile s
  | .matmul tile => Sys2Proof.Machine.execMatmul tile s
  | .elemwise tile => Sys2Proof.Machine.execElemwise tile s
  | .seed tile => Sys2Proof.Machine.execSeed tile s
  | .matrixOperationComplete tile => Sys2Proof.Machine.execMatrixOperationComplete tile s
  | .floatAdd src idx => Sys2Proof.Machine.execFloatAdd src idx s
  | .exactAdd src idx => Sys2Proof.Machine.execExactAdd src idx s
  | .closeStage1 => Sys2Proof.Machine.execCloseStage1 s
  | .closeStage2 => Sys2Proof.Machine.execCloseStage2 s
  | .closeStage3 => Sys2Proof.Machine.execCloseStage3 s
  | .closeStage4 => Sys2Proof.Machine.execCloseStage4 s
  | .closeStage5 => Sys2Proof.Machine.execCloseStage5 s
  | .closeStage6 => Sys2Proof.Machine.execCloseStage6 s
  | .closeStage7 => Sys2Proof.Machine.execCloseStage7 s
  | .walkComplete tag va => Sys2Proof.Machine.execWalkComplete tag va s
  | .streamPrewalk tile purl k => Sys2Proof.Machine.execStreamPrewalk tile purl k s
  | .faultRecordWrite => Sys2Proof.Machine.execFaultRecordWrite s
  | .faultWatchdog => Sys2Proof.Machine.execFaultWatchdog s
  | .invalAck idx engine => Sys2Proof.Machine.execInvalAck idx engine s
  | .faultInComplete table blk => Sys2Proof.Machine.execFaultInComplete table blk s
  | .writeBackComplete table blk => Sys2Proof.Machine.execWriteBackComplete table blk s
  | .deallocateComplete port table blk lba => Sys2Proof.Machine.execDeallocateComplete port table blk lba s
  | .nvmeCompletion port id headOk ok => Sys2Proof.Machine.execNvmeCompletion port id headOk ok s
  | .nvmeCommandTimeout port id => Sys2Proof.Machine.execNvmeCommandTimeout port id s
  | .nvmeAbortTimeout port id => Sys2Proof.Machine.execNvmeAbortTimeout port id s
  | .controllerFatalStatus port => Sys2Proof.Machine.execControllerFatalStatus port s
  | .nvmeLinkDown port => Sys2Proof.Machine.execNvmeLinkDown port s
  | .scrubRead stack ecc => Sys2Proof.Machine.execScrubRead stack ecc s
  | .repairComplete sector ok => Sys2Proof.Machine.execRepairComplete sector ok s
  | .d2dRetryExhausted link => Sys2Proof.Machine.execD2dRetryExhausted link s
  | .portTrained port now => Sys2Proof.Machine.execPortTrained port now s
  | .plyFailure port ply => Sys2Proof.Machine.execPlyFailure port ply s
  | .linkControlFlit port ack valid nak => Sys2Proof.Machine.execLinkControlFlit port ack valid nak s
  | .replayTimeout port => Sys2Proof.Machine.execReplayTimeout port s
  | .ackTimer port => Sys2Proof.Machine.execAckTimer port s
  | .creditReturnTimer port => Sys2Proof.Machine.execCreditReturnTimer port s
  | .rowGet port vc m => Sys2Proof.Machine.execRowGet port vc m s
  | .rowData port vc m => Sys2Proof.Machine.execRowData port vc m s
  | .rowAddReceived port vc m => Sys2Proof.Machine.execRowAddReceived port vc m s
  | .rowAck port vc m => Sys2Proof.Machine.execRowAck port vc m s
  | .rowNak port vc m => Sys2Proof.Machine.execRowNak port vc m s
  | .credit port m => Sys2Proof.Machine.execCredit port m s
  | .gauge port m since off => Sys2Proof.Machine.execGauge port m since off s
  | .fwChunk port m => Sys2Proof.Machine.execFwChunk port m s
  | .hello port m => Sys2Proof.Machine.execHello port m s
  | .echoReq port m hold => Sys2Proof.Machine.execEchoReq port m hold s
  | .echoRsp port m now => Sys2Proof.Machine.execEchoRsp port m now s
  | .linkDelayMeasure port now => Sys2Proof.Machine.execLinkDelayMeasure port now s
  | .linkState port m => Sys2Proof.Machine.execLinkState port m s
  | .linkStatePeriod => Sys2Proof.Machine.execLinkStatePeriod s
  | .originTimeout origin => Sys2Proof.Machine.execOriginTimeout origin s
  | .routeRecompute => Sys2Proof.Machine.execRouteRecompute s
  | .drain port m => Sys2Proof.Machine.execDrain port m s
  | .leave port m => Sys2Proof.Machine.execLeave port m s
  | .messageForward port vc m => Sys2Proof.Machine.execMessageForward port vc m s
  | .rowGetReissue req => Sys2Proof.Machine.execRowGetReissue req s
  | .rowAddResend dest seqNo => Sys2Proof.Machine.execRowAddResend dest seqNo s
  | .notOwnerResend dest => Sys2Proof.Machine.execNotOwnerResend dest s
  | .auditReread ledger => Sys2Proof.Machine.execAuditReread ledger s
  | .rateLimitFlush cause unit => Sys2Proof.Machine.execRateLimitFlush cause unit s
  | .monitorSample mon v => Sys2Proof.Machine.execMonitorSample mon v s
  | .thermalRelease mon => Sys2Proof.Machine.execThermalRelease mon s
  | .thermTrip mon v => Sys2Proof.Machine.execThermTrip mon v s
  | .powerControlTick watts => Sys2Proof.Machine.execPowerControlTick watts s
  | .rampStep => Sys2Proof.Machine.execRampStep s
  | .grantDecrease => Sys2Proof.Machine.execGrantDecrease s
  | .pwrBrakeAssert => Sys2Proof.Machine.execPwrBrakeAssert s
  | .pwrBrakeDeassert => Sys2Proof.Machine.execPwrBrakeDeassert s
  | .grantW w => Sys2Proof.Machine.execGrantW w s
  | .grantBeat b => Sys2Proof.Machine.execGrantBeat b s
  | .entdaa a => Sys2Proof.Machine.execEntdaa a s
  | .setEndpointId eid => Sys2Proof.Machine.execSetEndpointId eid s
  | .getEndpointId => Sys2Proof.Machine.execGetEndpointId s
  | .getMctpVersionSupport => Sys2Proof.Machine.execGetMctpVersionSupport s
  | .getMessageTypeSupport => Sys2Proof.Machine.execGetMessageTypeSupport s
  | .getTid => Sys2Proof.Machine.execGetTid s
  | .getPldmVersion type => Sys2Proof.Machine.execGetPldmVersion type s
  | .getPldmTypes => Sys2Proof.Machine.execGetPldmTypes s
  | .getPldmCommands type => Sys2Proof.Machine.execGetPldmCommands type s
  | .getPdrRepositoryInfo => Sys2Proof.Machine.execGetPdrRepositoryInfo s
  | .getPdr id => Sys2Proof.Machine.execGetPdr id s
  | .getSensorReading id => Sys2Proof.Machine.execGetSensorReading id s
  | .getStateSensorReadings id => Sys2Proof.Machine.execGetStateSensorReadings id s
  | .getNumericEffecterValue id => Sys2Proof.Machine.execGetNumericEffecterValue id s
  | .setEventReceiver receiver => Sys2Proof.Machine.execSetEventReceiver receiver s
  | .getFruRecordTableMetadata => Sys2Proof.Machine.execGetFruRecordTableMetadata s
  | .getFruRecordTable first => Sys2Proof.Machine.execGetFruRecordTable first s
  | .unsupportedSidebandRequest => Sys2Proof.Machine.execUnsupportedSidebandRequest s
  | .getVersion => Sys2Proof.Machine.execGetVersion s
  | .getCapabilities ver => Sys2Proof.Machine.execGetCapabilities ver s
  | .negotiateAlgorithms ver => Sys2Proof.Machine.execNegotiateAlgorithms ver s
  | .getDigests ver => Sys2Proof.Machine.execGetDigests ver s
  | .getCertificate ver slot off len => Sys2Proof.Machine.execGetCertificate ver slot off len s
  | .challenge ver slot => Sys2Proof.Machine.execChallenge ver slot s
  | .getMeasurements ver index sign => Sys2Proof.Machine.execGetMeasurements ver index sign s
  | .spdmUnsupportedRequest ver => Sys2Proof.Machine.execSpdmUnsupportedRequest ver s
  | .flit port f => Sys2Proof.Machine.execFlit port f s
  | .h2dSnoop => Sys2Proof.Machine.execH2dSnoop s
  | .doeDiscovery index => Sys2Proof.Machine.execDoeDiscovery index s
  | .scrubSlotEnd => Sys2Proof.Machine.execScrubSlotEnd s
  | .auxInputRemoved => Sys2Proof.Machine.execAuxInputRemoved s
  | .accessPerformed tile ctx scope => Sys2Proof.Machine.execAccessPerformed tile ctx scope s

end Sys2Proof.Machine
end

