-- ==== Sys2Proof/Machine/Idle.lean ====
section
/-! DEFINITION. What a step does when no command waits: time passes inside the present beat (04, Model table; R69). -/

namespace Sys2Proof.Machine

open Sys2Proof

/-- The phase after some time has passed within the beat, of which the spec does not say how much: it stays below 65,536. -/
def laterPhase (phase : BitVec 16) (free : W64) : BitVec 16 :=
  BitVec.ofNat 16 (phase.toNat + free.toNat % (65536 - phase.toNat))

/-- Time passes: an operational module's phase moves on by a free amount, and what waited for nothing but time goes on. -/
def idle (s : State) : State :=
  if operational s then
    let (v, s) := drawFree s
    settle { s with gg := { s.gg with phase := laterPhase s.gg.phase v } }
  else s

end Sys2Proof.Machine
end

