-- ==== Sys2Proof/Safety.lean ====
section
/-! DEFINITION. What the claims call a run and a safe answer, and the words they use: an accepted command, a completion, an
instruction that issues, a message that arrives. -/

namespace Sys2Proof.Machine

open Sys2Proof

/-- The answer is a next state. -/
def goesOn (o : Host.Outcome State Fault Refusal) : Bool :=
  match o with
  | .next _ => true
  | .fault _ | .refused _ => false

/-- Every byte memory of the state is in canonical form: host memory, tier T1, the 16 staging memories and the four drives. -/
def State.memWf (s : State) : Prop :=
  Memory.wf s.host = true ∧ Memory.wf s.ram.t1 = true ∧ (∀ t : Fin 16, Memory.wf s.tl.staging[t] = true)
    ∧ ∀ p : Fin 4, Memory.wf (s.res.drives[p]).data = true

/-! ### Mailbox commands -/

/-- The state in which the command `e` of queue pair `n` has begun (R154). -/
def begun (n : Fin 64) (e : Entry) (s : State) : State := modCmd n (Entry.cid e) (fun c => { c with begun := true }) s

/-- The command `e` of queue pair `n` is the fetched one that begins next, and no check of R166 refuses it. -/
structure Accepted (d : CmdDef) (n : Fin 64) (e : Entry) (s : State) : Prop where
  awake : awake s = true
  opcode : Entry.withOpcode e d.op = e
  front : ∃ c earlier, frontCmd n s = some (c, earlier) ∧ c.entry = e ∧ mayBegin n c earlier s = true
  host : hostReach s = true
  fresh : ¬(d.op = 0x01 ∧ s.mb.negotiated = true)
  checks : cmdRefusal d n e (begun n e s) = none

/-- The row's answer is a next state: `t`, and the background work that `t` makes possible. -/
def Answers (c : Instr) (s t : State) : Prop := exec c s = .next (settle t)

/-- The command completes with this status, RESULT0 and RESULT1 and has the effect `t` (R149, R157). -/
def Completes (c : Instr) (n : Fin 64) (e : Entry) (s : State) (status : Nat) (r0 r1 : W64) (t : State) : Prop :=
  Answers c s (complete n (Entry.cid e) status 0 r0 r1 t)

/-- The command has taken effect as `t` and stays in its slot while its own work goes on (R157). -/
def Works (c : Instr) (n : Fin 64) (e : Entry) (s t : State) : Prop :=
  Answers c s (modCmd n (Entry.cid e) (fun x => { x with effective := true, wait := none }) t)

/-- The bytes `bs` stand in the command's data buffer, and nothing else of the state differs (R147). -/
def buffered (e : Entry) (bs : List Byte) (s : State) : State := { s with host := cellsWrite s.host (Entry.dptr e) bs }

/-- The host serves every read of the command's buffer of `n` bytes (R147). -/
def bufferReads (e : Entry) (n : Nat) (s : State) : Prop := bufRefused (Entry.dptr e) n s (n / 4096 + 2) = none

/-- The bytes of the command's buffer. -/
def bufferOf (e : Entry) (n : Nat) (s : State) : List Byte := cellsRead s.host (Entry.dptr e) n

/-- The marked command has its schedule entry accepted and waits for its mark; a periodic one completes at once with the entry's index
(R166, R168). -/
def Schedules (c : Instr) (n : Fin 64) (e : Entry) (s : State) (kind tag : Nat) : Prop :=
  schedRefusal [ownEntry n e kind tag] (begun n e s) = none →
    (Entry.periodic e = false → Answers c s (schedPut (begun n e s) (ownEntry n e kind tag)))
    ∧ (Entry.periodic e = true → ∀ i, kvFree s.gg.sched 0 256 = some i →
        Completes c n e s stOK (BitVec.ofNat 64 i) 0 (schedPut (begun n e s) { ownEntry n e kind tag with owner := none }))

/-! ### Rows -/

/-- The catalogue row, the queue pair and the entry that a mailbox row names. -/
def mailboxRow (c : Instr) : Option (CmdDef × Fin 64 × Entry) :=
  match c with
  | .negotiate n e => some (cmdNegotiate, n, e) | .identify n e => some (cmdIdentify, n, e) | .qpCreate n e => some (cmdQpCreate, n, e)
  | .qpDelete n e => some (cmdQpDelete, n, e) | .bindOff n e => some (cmdBindOff, n, e) | .warmReset n e => some (cmdWarmReset, n, e)
  | .resetReport n e => some (cmdResetReport, n, e) | .asCreate n e => some (cmdAsCreate, n, e)
  | .asDestroy n e => some (cmdAsDestroy, n, e) | .ptWrite n e => some (cmdPtWrite, n, e) | .invalTag n e => some (cmdInvalTag, n, e)
  | .invalRange n e => some (cmdInvalRange, n, e) | .faultRingSet n e => some (cmdFaultRingSet, n, e)
  | .faultResume n e => some (cmdFaultResume, n, e) | .tableCreate n e => some (cmdTableCreate, n, e)
  | .tableDestroy n e => some (cmdTableDestroy, n, e) | .tableQuery n e => some (cmdTableQuery, n, e)
  | .hotsetLoad n e => some (cmdHotsetLoad, n, e) | .hotsetRefresh n e => some (cmdHotsetRefresh, n, e)
  | .hotsetDrop n e => some (cmdHotsetDrop, n, e) | .prefetch n e => some (cmdPrefetch, n, e) | .advise n e => some (cmdAdvise, n, e)
  | .replicaSet n e => some (cmdReplicaSet, n, e) | .replicaDrop n e => some (cmdReplicaDrop, n, e)
  | .driveUnfence n e r => some (cmdDriveUnfence r, n, e) | .patternLoad n e => some (cmdPatternLoad, n, e)
  | .patternUnload n e => some (cmdPatternUnload, n, e) | .launch n e => some (cmdLaunch, n, e)
  | .stepOpen n e => some (cmdStepOpen, n, e) | .stepConfirm n e => some (cmdStepConfirm, n, e)
  | .stepClose n e => some (cmdStepClose, n, e) | .specOpen n e => some (cmdSpecOpen, n, e)
  | .specAbandon n e => some (cmdSpecAbandon, n, e) | .stepQuery n e => some (cmdStepQuery, n, e)
  | .tileReset n e => some (cmdTileReset, n, e) | .fabricId n e => some (cmdFabricId, n, e)
  | .portConfig n e => some (cmdPortConfig, n, e) | .shardmapLoad n e => some (cmdShardmapLoad, n, e)
  | .portReset n e r => some (cmdPortReset r, n, e) | .portUnfence n e => some (cmdPortUnfence, n, e)
  | .fabricStatus n e => some (cmdFabricStatus, n, e) | .gaugeConfig n e => some (cmdGaugeConfig, n, e)
  | .gaugeRebase n e => some (cmdGaugeRebase, n, e) | .schedRead n e => some (cmdSchedRead, n, e)
  | .schedCancel n e => some (cmdSchedCancel, n, e) | .scrubSlot n e => some (cmdScrubSlot, n, e)
  | .tensionSlot n e => some (cmdTensionSlot, n, e) | .powerCap n e => some (cmdPowerCap, n, e) | .monRead n e => some (cmdMonRead, n, e)
  | .thermLimit n e => some (cmdThermLimit, n, e) | .logRead n e => some (cmdLogRead, n, e)
  | .logMirrorSet n e => some (cmdLogMirrorSet, n, e) | .tallyAudit n e => some (cmdTallyAudit, n, e)
  | .tallyRead n e => some (cmdTallyRead, n, e) | .idRead n e => some (cmdIdRead, n, e) | .tagRead n e => some (cmdTagRead, n, e)
  | .tagWrite n e => some (cmdTagWrite, n, e) | .keyUpdate n e bad => some (cmdKeyUpdate bad, n, e)
  | .keyStatus n e => some (cmdKeyStatus, n, e) | .fwStage n e => some (cmdFwStage, n, e) | .fwActivate n e => some (cmdFwActivate, n, e)
  | .fwStatus n e => some (cmdFwStatus, n, e) | .fwChainSet n e => some (cmdFwChainSet, n, e)
  | .fwDiscard n e => some (cmdFwDiscard, n, e)
  | _ => none

/-- The rows of inputs, monitors and cast-on, which act whatever the module's power phase. -/
def inputRow (c : Instr) : Bool :=
  match c with
  | .monitorSample _ _ | .thermTrip _ _ | .pwrBrakeAssert | .pwrBrakeDeassert | .powerGood | .inputVoltageExcursion _
  | .railExcursion _ _ | .modResetAssert | .modResetDeassert | .warmResetAssert | .warmResetDeassert | .perstAssert | .perstDeassert
  | .quiesceComplete _ | .quiesceTimeout _ | .castOnS1 _ | .castOnS2 | .castOnS3 _ | .castOnS4 | .castOnS5 | .castOnS7
  | .stageTimeExceeded | .closeResume | .auxInputRemoved => true
  | _ => false

/-! ### Host accesses to registers -/

/-- Row `c` reads the 64-bit register at `off`, whose value is `v` and whose read leaves `t`: whole, its lower half (which keeps the upper
half for the next read), or its upper half (R125, R527). -/
def ReadsWide (c : RegPart → Instr) (off v : Nat) (s t : State) : Prop :=
  Answers (c .full) s (emit (.regData off 8 v) t)
  ∧ Answers (c .low) s (emit (.regData off 4 (v % 2 ^ 32))
      { t with hl := { t.hl with latch := kvSet t.hl.latch (off + 4) (BitVec.ofNat 32 (v / 2 ^ 32)) } })
  ∧ (∀ x, kvGet s.hl.latch (off + 4) = some x →
      Answers (c .high) s (emit (.regData (off + 4) 4 x.toNat) { s with hl := { s.hl with latch := kvErase s.hl.latch (off + 4) } }))
  ∧ (kvGet s.hl.latch (off + 4) = none → Answers (c .high) s (emit (.regData (off + 4) 4 (v / 2 ^ 32)) s))

/-- Row `c` writes the 64-bit register at `off`, with the effect `f` of a whole value: whole; its lower half, which is held; or its upper half,
which takes the held lower half, or `keep` where none is held (R125, R527). -/
def WritesWide (c : RegPart → W64 → Instr) (off keep : Nat) (f : Nat → State → State) (s : State) : Prop :=
  let s' : State := { s with hl := { s.hl with low := kvErase s.hl.low off } }
  (∀ v, Answers (c .full v) s (f v.toNat s'))
  ∧ (∀ v, Answers (c .low v) s { s with hl := { s.hl with low := kvSet s.hl.low off (v.setWidth 32) } })
  ∧ (∀ v x, kvGet s.hl.low off = some x → Answers (c .high v) s (f (x.toNat + 2 ^ 32 * (v.toNat % 2 ^ 32)) s'))
  ∧ (∀ v, kvGet s.hl.low off = none → Answers (c .high v) s (f (keep + 2 ^ 32 * (v.toNat % 2 ^ 32)) s'))

/-- The module is awake and BAR0 answers in every region (R91, R120, R121). -/
def barOpen (s : State) : Bool := awake s && decide (barMode s = .full)

/-! ### Marks of the schedule -/

/-- The KIND and the index of the schedule entry whose mark a row reaches. -/
def markRowOf (c : Instr) : Option (Nat × Fin 256) :=
  match c with
  | .stepConfirmMark i => some (1, i) | .speculationWindowDeadline i => some (2, i) | .stepConfirmDeadline i => some (3, i)
  | .stepCloseMark i => some (4, i) | .tableVersionFlip i => some (5, i) | .stepOpenMark i => some (6, i)
  | .speculationWindowOpen i => some (7, i) | .hotSetRefresh i => some (8, i) | .scrubSlotBegin i => some (9, i)
  | .tensionSlotFiring i => some (10, i) | .firmwareActivation i => some (11, i)
  | _ => none

/-- Entry `e` of the schedule, at index `i`, is the next one due: its mark has been reached, and no other entry and no resume mark comes
first (R75, R83). -/
structure Due (i : Fin 256) (e : SchedEntry) (s : State) : Prop where
  awake : awake s = true
  operational : operational s = true
  alive : s.er.fatal = false
  entry : kvGet s.gg.sched i.val = some e
  fresh : e.deferred = false
  reached : e.beat.toNat ≤ s.gg.beat.toNat
  first : s.gg.sched.any (fun x => !x.2.deferred && schedBefore x.1 x.2 i.val e) = false
  resumed : resumeFirst e.beat s = false

/-- The entry runs now: it needs no lock that is lost, and no deferred confirm holds it back (R82, R84). -/
def runsNow (e : SchedEntry) (s : State) : Bool :=
  !(gaugeLost s && e.needsLock) && !((e.kind == 2 || e.kind == 3) && confirmDeferred e.tag s)

/-- The state in which the event of entry `i` takes effect: the phase has reached the mark, the entry is gone or one PERIOD on, and its
owner knows whether it is late (R75, R76, R149). -/
def atItsMark (i : Fin 256) (e : SchedEntry) (s : State) : State :=
  noteLate e (markLate e (reachMark e s)) (consume i.val e (reachMark e s))

/-! ### Engines -/

/-- The Matrix Unit of `tile` runs `x`, an operation of this kind that can go on (R294, R403). -/
structure MxRuns (kind : Nat) (tile : Fin 16) (x : MxOp) (s : State) : Prop where
  awake : awake s = true
  engines : engines s = true
  current : mxCurrent tile s = some x
  kind : x.kind = kind
  ending : x.ending = none
  stall : x.stall = .none

/-- The `i`-th waiting update of a tile's Purl is `u`, one for an adder of this kind, and its row lies at `pa` of table `t` in `s1`, with
no poisoned sector (R385, R387). -/
structure AdderTakes (exact : Bool) (src : Fin 17) (i : Nat) (u : Update) (t : Table) (pa : Nat) (s s1 : State) : Prop where
  awake : awake s = true
  engines : engines s = true
  tile : src.val < 16
  waiting : (s.pu.slots.filter (fun u => u.tile == src.val && u.dest == ownDev s))[i]? = some u
  wants : wantsExact u s = exact
  stall : u.stall = .none
  place : ∃ e, updatePlace u s = ((some (t, pa), e), s1)
  clean : poisonedElems t pa s1 = []
  takes : takesExact u t pa s1 = exact

/-- The close of step `st.num` is in stage `k` and may go on (R391, R106, R467). -/
structure Closing (k : Nat) (st : Step) (s : State) : Prop where
  awake : awake s = true
  runs : closeRuns s = true
  stage : closingOf s = some (st, k)

/-! ### The fabric -/

/-- The whole message `m` of type `type` has arrived on VC `vc` of the joined port `p`, well formed and for this device (R426, R432, R438). -/
structure Arrives (type : Nat) (p : Fin 9) (vc : Fin 5) (m : List Byte) (s : State) : Prop where
  awake : awake s = true
  joined : (s.fab.ports[p]).state = .joined
  type : mType m = type
  form : wellFormedMsg vc m = true
  here : routedType m = true → mDst m = ownDev s

/-! ### Pyrat -/

/-- Context `key` issues an instruction of `op` in the unit `u`, `left` iterations of which are still to run, this one among them
(R286, R312, R316). -/
structure Issues (op : POp) (key : Nat) (s : State) (t : Thread) (u : PUnit) (left : Nat) : Prop where
  awake : awake s = true
  context : threadAt key s = some t
  ready : canIssue t s = true
  fetched : fetchUnit (t.code s) t.pc = .unit u
  names : u.ins.op = op
  count : t.rep = some left ∨ t.rep = none ∧ (u.rep = .once ∧ left = 1 ∨ u.rep = .repu left)

/-- The context as the iteration finds it. -/
def iterating (u : PUnit) (left : Nat) (t : Thread) : Thread := if u.rep = .once then t else { t with rep := some left }

/-- The instruction of this iteration has run: the context is `t'`, with `jump` a taken branch's target (R309, R312). -/
def Retires (c : Instr) (key : Nat) (u : PUnit) (left : Nat) (jump : Option Nat) (s : State) (t' : Thread) (s' : State) : Prop :=
  Answers c s (putThread key (retire key u left jump t') s')

/-- The instruction of a unit may run: it issues and its guard is true (R300). -/
structure Runs (op : POp) (key : Nat) (s : State) (t : Thread) (u : PUnit) (left : Nat) : Prop where
  issues : Issues op key s t u left
  guard : (iterating u left t).guard u.ins = true

/-- Row `c` pops one word `x` and pushes `f i x`, for every instruction `i` of a form; both accesses may spill or fill (R297, R324). -/
def PopsOne (c : Instr) (op : POp) (key : Nat) (form : PInstr → Prop) (f : PInstr → W64 → W64) : Prop :=
  ∀ s t u left x t1 t2 s1 s2, Runs op key s t u left → form u.ins → 1 ≤ t.sd →
    pop key (iterating u left t) s = .ok x t1 s1 → push key (f u.ins x) t1 s1 = .ok () t2 s2 → Retires c key u left none s t2 s2

/-- Row `c` pops `b`, then `a`, and pushes `f i a b` (R297, R324). -/
def PopsTwo (c : Instr) (op : POp) (key : Nat) (form : PInstr → Prop) (f : PInstr → W64 → W64 → W64) : Prop :=
  ∀ s t u left a b t1 t2 t3 s1 s2 s3, Runs op key s t u left → form u.ins → 2 ≤ t.sd →
    pop key (iterating u left t) s = .ok b t1 s1 → pop key t1 s1 = .ok a t2 s2 → push key (f u.ins a b) t2 s2 = .ok () t3 s3 →
    Retires c key u left none s t3 s3

/-- Row `c` pops nothing and pushes the words `f i t`, the last of them ending on top. -/
def PushesOnly (c : Instr) (op : POp) (key : Nat) (f : PInstr → Thread → List W64) : Prop :=
  ∀ s t u left t1 s1, Runs op key s t u left → pushAll key (f u.ins (iterating u left t)) (iterating u left t) s = .ok () t1 s1 →
    Retires c key u left none s t1 s1

/-- An engine instruction has read its descriptor of `n` bytes at the popped offset `o` as `bs`, and its counter has counted up: the context
is `t'` (R342). -/
def TakesDescriptor (key : Nat) (i : PInstr) (n : Nat) (t : Thread) (s : State) (o : W64) (bs : List Byte) (t' : Thread) (s' : State) : Prop :=
  keyPlain key = false ∧ 1 ≤ t.sd ∧ ∃ t1 s1 t2, pop key t s = .ok o t1 s1
    ∧ threadRead key (issueSeg i) o.toNat n .clean t1 s1 = .ok bs t2 s' ∧ countUp key (issueCounter i) t2 s' = .ok () t' s'

/-- The context with the counters that the engine has left it with. -/
def withCounters (key : Nat) (t : Thread) (s : State) : Thread := { t with cc := ((threadAt key s).map (·.cc)).getD t.cc }

/-- The operation and the context a Pyrat row names. -/
def pyratRow (c : Instr) : Option (POp × Nat) :=
  match c with
  | .nop t x => some (.nop, ctxKey t x) | .dup t x => some (.dup, ctxKey t x) | .swap t x => some (.swap, ctxKey t x)
  | .drop t x => some (.drop, ctxKey t x) | .over_ t x => some (.over_, ctxKey t x) | .rot t x => some (.rot, ctxKey t x)
  | .pick t x => some (.pick, ctxKey t x) | .pushi t x => some (.pushi, ctxKey t x) | .pushx t x => some (.pushx, ctxKey t x)
  | .add t x => some (.add, ctxKey t x) | .sub t x => some (.sub, ctxKey t x) | .and t x => some (.and, ctxKey t x)
  | .or t x => some (.or, ctxKey t x) | .xor t x => some (.xor, ctxKey t x) | .andn t x => some (.andn, ctxKey t x)
  | .neg t x => some (.neg, ctxKey t x) | .not t x => some (.not, ctxKey t x) | .mins t x => some (.mins, ctxKey t x)
  | .maxs t x => some (.maxs, ctxKey t x) | .minu t x => some (.minu, ctxKey t x) | .maxu t x => some (.maxu, ctxKey t x)
  | .shl t x => some (.shl, ctxKey t x) | .shr t x => some (.shr, ctxKey t x) | .sar t x => some (.sar, ctxKey t x)
  | .rol t x => some (.rol, ctxKey t x) | .clz t x => some (.clz, ctxKey t x) | .popc t x => some (.popc, ctxKey t x)
  | .bperm t x => some (.bperm, ctxKey t x) | .bfx t x => some (.bfx, ctxKey t x) | .bfi t x => some (.bfi, ctxKey t x)
  | .mul t x => some (.mul, ctxKey t x) | .mulh t x => some (.mulh, ctxKey t x) | .cmp t x => some (.cmp, ctxKey t x)
  | .plog t x => some (.plog, ctxKey t x) | .pfrom t x => some (.pfrom, ctxKey t x) | .pto t x => some (.pto, ctxKey t x)
  | .ld t x _ => some (.ld, ctxKey t x) | .st t x => some (.st, ctxKey t x) | .aadd t x => some (.aadd, ctxKey t x)
  | .bcopy t x => some (.bcopy, ctxKey t x) | .br t x => some (.br, ctxKey t x) | .bz t x => some (.bz, ctxKey t x)
  | .bnz t x => some (.bnz, ctxKey t x) | .call t x => some (.call, ctxKey t x) | .calli t x => some (.calli, ctxKey t x)
  | .bri t x => some (.bri, ctxKey t x) | .ret t x => some (.ret, ctxKey t x) | .end_ t x => some (.end_, ctxKey t x)
  | .rds t x => some (.rds, ctxKey t x) | .wrs t x => some (.wrs, ctxKey t x) | .rdwait t x => some (.rdwait, ctxKey t x)
  | .sgrd t x => some (.sgrd, ctxKey t x) | .waitc t x => some (.waitc, ctxKey t x) | .fenceT t x => some (.fenceT, ctxKey t x)
  | .fenceD t x => some (.fenceD, ctxKey t x) | .fenceS t x => some (.fenceS, ctxKey t x)
  | .gather t x _ => some (.gather, ctxKey t x) | .pool t x _ => some (.pool, ctxKey t x)
  | .gatherAddr t x _ => some (.gatherAddr, ctxKey t x) | .gatherResume t x _ => some (.gatherResume, ctxKey t x)
  | .rowAdd t x _ => some (.rowAdd, ctxKey t x) | .stream t x => some (.stream, ctxKey t x) | .mxop t x => some (.mxop, ctxKey t x)
  | _ => none

end Sys2Proof.Machine
end

