-- ==== Sys2Proof/Certificates/Slice0/Obligations.lean ====
section
/-! DEFINITION. The statements for the provers. -/

open Sys2Proof Sys2Proof.Machine

/-! ### The block and its queue -/

/-- The queue is first in, first out: a step takes its front and runs it on the state with the rest. -/
def Obligations.StepRunsFrontCommand : Prop :=
  ∀ (c : Instr) (rest : List Instr) (s : State), step { s with pending := c :: rest } = exec c { s with pending := rest }

/-- On an empty queue the block lets time pass inside the present beat, by a free amount (log entry 2); a module that is not operational stays
as it is. -/
def Obligations.EmptyQueueIdles : Prop :=
  ∀ s : State, s.pending = [] →
    (operational s = false → step s = .next s)
    ∧ (operational s = true → ∃ p : BitVec 16, s.gg.phase.toNat ≤ p.toNat
        ∧ step s = .next (settle { s with freeCtr := s.freeCtr + 1, gg := { s.gg with phase := p } }))

/-- Every command answers a next state in every state.
What rests on the model's choices: log entry 3. -/
def Obligations.EveryCommandGoesOn : Prop := ∀ (c : Instr) (s : State), goesOn (exec c s) = true

/-- With no background work left, a row's effect is all that happens.
What rests on the model's choices: log entry 5. -/
def Obligations.QuietSettles : Prop := ∀ s : State, quiet s = true → settle s = s

/-- A module that is off or in reset takes only its inputs, its monitors' samples and cast-on.
What rests on the model's choices: log entry 4. -/
def Obligations.AsleepIgnores : Prop :=
  ∀ (c : Instr) (s : State), awake s = false → inputRow c = false → exec c s = .next s

/-- The registers, queues and tables right after power is applied, as the spec gives them.
What rests on the model's choices: log entry 1. -/
def Obligations.ResetState : Prop :=
  let s := State.reset
  s.pending = [] ∧ s.mb.negotiated = false
  ∧ (∀ n : Fin 64, (s.mb.qps[n]).state = .disabled ∧ (s.mb.qps[n]).cmds = [] ∧ (s.mb.qps[n]).waiting = [])
  ∧ s.mb.ctrl = 0x0000001000010660 ∧ s.gg.sched = [] ∧ s.gg.everLocked = false
  ∧ s.er.ring = [] ∧ s.er.nextSeq = 1 ∧ s.er.fatal = false ∧ s.er.fatalSeq = 0
  ∧ (∀ v : Fin 128, (s.hl.msix[v]).mask = true) ∧ s.hl.pba = 0
  ∧ s.stp.live = [] ∧ s.tbl.tables = [] ∧ s.th.launches = [] ∧ s.th.threads = [] ∧ s.rst.ready = false ∧ s.rst.bound = false

/-- Every byte memory is in canonical form at reset.
What rests on the model's choices: log entry 13. -/
def Obligations.ResetMemoriesCanonical : Prop := State.memWf State.reset

/-- No command, and no passage of time, breaks the canonical form of any byte memory, so equal memories stay equal data.
What rests on the model's choices: log entry 13. -/
def Obligations.StepKeepsMemoriesCanonical : Prop := ∀ s t : State, s.memWf → step s = .next t → t.memWf

/-- Every well-formed Pyrat unit survives encoding and fetch, at every place in a pattern's code. -/
def Obligations.PyratDecodeEncode : Prop :=
  ∀ (u : Machine.PUnit) (before after : List Byte), u.wf = true → fetchUnit (before ++ encodeUnit u ++ after) before.length = .unit u

/-- Words written out from the encoding tables (R320, R321, R323, R325) decode to the instructions they stand for. -/
def Obligations.PyratWordsDecode : Prop :=
  decodeLong 0x0308C072 = some ⟨.bfx, 2, 0x0308, false, 0, 4⟩
  ∧ decodeLong 0x0000C030 = some ⟨.add, 0, 0, false, 0, 4⟩
  ∧ decodeLong 0x2008C103 = some ⟨.ld, 3, 0x2008, false, 0, 4⟩
  ∧ decodeLong 0x0001E8A0 = some ⟨.cmp, 0, 1, true, 2, 4⟩
  ∧ decodeLong 0x0000C03C = none
  ∧ decodeShort 0x0000 = some ⟨.nop, 0, 0, false, 0, 2⟩
  ∧ decodeShort 0x0400 = some ⟨.add, 0, 0, false, 0, 2⟩
  ∧ decodeShort 0x3FFF = some ⟨.pushi, 0, 0xFFFF, false, 0, 2⟩
  ∧ fetchUnit [0x3F, 0x74, 0x00, 0x04] 0 = .unit ⟨.repu 64, ⟨.add, 0, 0, false, 0, 2⟩, 4⟩

/-! ### Pyrat (14, 15) -/

/-- The instructions that pop one word and push a result, in every form that pops one word: the context retires with the result on top
and the state is otherwise what the pop's fill and the push's spill made it (R326, R328, R329, R330). -/
def Obligations.PyratUnary : Prop :=
  ∀ tile ctx, let key := ctxKey tile ctx
    PopsOne (.neg tile ctx) .neg key (fun _ => True) (fun _ x => 0 - x)
    ∧ PopsOne (.not tile ctx) .not key (fun _ => True) (fun _ x => ~~~x)
    ∧ PopsOne (.pushx tile ctx) .pushx key (fun _ => True) (fun i x => (x <<< 16) ||| BitVec.ofNat 64 i.imm)
    ∧ PopsOne (.clz tile ctx) .clz key (fun _ => True) (fun _ x => BitVec.ofNat 64 (leadingZeros x.toNat 64))
    ∧ PopsOne (.popc tile ctx) .popc key (fun _ => True) (fun _ x => BitVec.ofNat 64 (onesCount x.toNat 64))
    ∧ PopsOne (.shl tile ctx) .shl key (fun i => i.sub < 4) (fun i x => x <<< (i.imm % 64))
    ∧ PopsOne (.shr tile ctx) .shr key (fun i => i.sub < 4) (fun i x => x >>> (i.imm % 64))
    ∧ PopsOne (.sar tile ctx) .sar key (fun i => i.sub < 4) (fun i x => x.sshiftRight (i.imm % 64))
    ∧ PopsOne (.rol tile ctx) .rol key (fun i => i.sub < 4) (fun i x => x.rotateLeft (i.imm % 64))
    ∧ PopsOne (.bfx tile ctx) .bfx key (fun i => i.sub % 2 = 0)
        (fun i x => bfx x (i.imm % 64) (i.imm / 64 % 128) (i.sub.testBit 1))

/-- The instructions that pop `b`, then `a`, and push a result, in every form that pops two words (R324, R328, R329, R330). -/
def Obligations.PyratBinary : Prop :=
  ∀ tile ctx, let key := ctxKey tile ctx
    PopsTwo (.add tile ctx) .add key (fun _ => True) (fun _ a b => a + b)
    ∧ PopsTwo (.sub tile ctx) .sub key (fun _ => True) (fun _ a b => a - b)
    ∧ PopsTwo (.and tile ctx) .and key (fun _ => True) (fun _ a b => a &&& b)
    ∧ PopsTwo (.or tile ctx) .or key (fun _ => True) (fun _ a b => a ||| b)
    ∧ PopsTwo (.xor tile ctx) .xor key (fun _ => True) (fun _ a b => a ^^^ b)
    ∧ PopsTwo (.andn tile ctx) .andn key (fun _ => True) (fun _ a b => a &&& ~~~b)
    ∧ PopsTwo (.mins tile ctx) .mins key (fun _ => True) (fun _ a b => if a.toInt ≤ b.toInt then a else b)
    ∧ PopsTwo (.maxs tile ctx) .maxs key (fun _ => True) (fun _ a b => if a.toInt ≤ b.toInt then b else a)
    ∧ PopsTwo (.minu tile ctx) .minu key (fun _ => True) (fun _ a b => if a ≤ b then a else b)
    ∧ PopsTwo (.maxu tile ctx) .maxu key (fun _ => True) (fun _ a b => if a ≤ b then b else a)
    ∧ PopsTwo (.bperm tile ctx) .bperm key (fun _ => True) (fun _ x sel => bperm x sel)
    ∧ PopsTwo (.shl tile ctx) .shl key (fun i => 4 ≤ i.sub) (fun _ a b => a <<< (b.toNat % 64))
    ∧ PopsTwo (.shr tile ctx) .shr key (fun i => 4 ≤ i.sub) (fun _ a b => a >>> (b.toNat % 64))
    ∧ PopsTwo (.sar tile ctx) .sar key (fun i => 4 ≤ i.sub) (fun _ a b => a.sshiftRight (b.toNat % 64))
    ∧ PopsTwo (.rol tile ctx) .rol key (fun i => 4 ≤ i.sub) (fun _ a b => a.rotateLeft (b.toNat % 64))
    ∧ PopsTwo (.bfi tile ctx) .bfi key (fun i => i.sub % 2 = 0) (fun i x f => bfi x f (i.imm % 64) (i.imm / 64 % 128))

/-- BFX and BFI in the stack form pop WID, then POS, then their words; a WID above 64 acts as 64 (R329). -/
def Obligations.PyratStackFields : Prop :=
  ∀ tile ctx s t u left w p t1 t2 s1 s2, let key := ctxKey tile ctx
    u.ins.sub % 2 = 1 → pop key (iterating u left t) s = .ok w t1 s1 → pop key t1 s1 = .ok p t2 s2 →
    (∀ x t3 t4 s3 s4, Runs .bfx key s t u left → 3 ≤ t.sd → pop key t2 s2 = .ok x t3 s3 →
      push key (bfx x (p.toNat % 64) (min 64 (w.toNat % 128)) (u.ins.sub.testBit 1)) t3 s3 = .ok () t4 s4 →
      Retires (.bfx tile ctx) key u left none s t4 s4)
    ∧ (∀ f x t3 t4 t5 s3 s4 s5, Runs .bfi key s t u left → 4 ≤ t.sd → pop key t2 s2 = .ok f t3 s3 → pop key t3 s3 = .ok x t4 s4 →
      push key (bfi x f (p.toNat % 64) (min 64 (w.toNat % 128))) t4 s4 = .ok () t5 s5 →
      Retires (.bfi tile ctx) key u left none s t5 s5)

/-- The results of the bit instructions, bit by bit: fields end at bit 63, a width of 0 gives 0 or leaves `x`, a BPERM nibble of 8 or more
gives the sign of the byte it names (R329, R330). -/
def Obligations.PyratBitResults : Prop :=
  (∀ (x : W64) (pos wid : Nat) (sign : Bool) (j : Nat), pos < 64 → wid ≤ 64 → j < 64 →
    (bfx x pos wid sign).getLsbD j
      = (if j < wid then x.getLsbD (pos + j) else sign && decide (0 < wid) && x.getLsbD (pos + wid - 1)))
  ∧ (∀ (x f : W64) (pos wid j : Nat), pos < 64 → wid ≤ 64 → j < 64 →
    (bfi x f pos wid).getLsbD j = (if pos ≤ j ∧ j < pos + wid then f.getLsbD (j - pos) else x.getLsbD j))
  ∧ (∀ (x sel : W64) (i j : Nat), i < 8 → j < 8 →
    let nib := sel.toNat / 16 ^ i % 16
    (bperm x sel).getLsbD (8 * i + j) = (if nib < 8 then x.getLsbD (8 * nib + j) else x.getLsbD (8 * (nib - 8) + 7)))
  ∧ leadingZeros 0 64 = 64
  ∧ (∀ x : W64, x ≠ 0 → leadingZeros x.toNat 64 < 64 ∧ 2 ^ (63 - leadingZeros x.toNat 64) ≤ x.toNat
      ∧ x.toNat < 2 ^ (64 - leadingZeros x.toNat 64))
  ∧ ∀ (x : W64) (j : Nat), j < 64 → x.getLsbD j = true →
      onesCount x.toNat 64 = onesCount (x &&& ~~~ (BitVec.twoPow 64 j)).toNat 64 + 1

/-- The stack instructions and those that only push: the words popped and the words pushed, the last pushed on top (R326, R333, R340). -/
def Obligations.PyratStack : Prop :=
  ∀ tile ctx, let key := ctxKey tile ctx
    (∀ s t u left, Runs .nop key s t u left → Retires (.nop tile ctx) key u left none s (iterating u left t) s)
    ∧ (∀ s t u left x t1 s1 t2 s2, Runs .dup key s t u left → 1 ≤ t.sd → pop key (iterating u left t) s = .ok x t1 s1 →
        pushAll key [x, x] t1 s1 = .ok () t2 s2 → Retires (.dup tile ctx) key u left none s t2 s2)
    ∧ (∀ s t u left x t1 s1, Runs .drop key s t u left → 1 ≤ t.sd → pop key (iterating u left t) s = .ok x t1 s1 →
        Retires (.drop tile ctx) key u left none s t1 s1)
    ∧ (∀ s t u left a b t1 s1 t2 s2 t3 s3, Runs .swap key s t u left → 2 ≤ t.sd → pop key (iterating u left t) s = .ok b t1 s1 →
        pop key t1 s1 = .ok a t2 s2 → pushAll key [b, a] t2 s2 = .ok () t3 s3 → Retires (.swap tile ctx) key u left none s t3 s3)
    ∧ (∀ s t u left a b t1 s1 t2 s2 t3 s3, Runs .over_ key s t u left → 2 ≤ t.sd → pop key (iterating u left t) s = .ok b t1 s1 →
        pop key t1 s1 = .ok a t2 s2 → pushAll key [a, b, a] t2 s2 = .ok () t3 s3 → Retires (.over_ tile ctx) key u left none s t3 s3)
    ∧ (∀ s t u left a b c t1 s1 t2 s2 t3 s3 t4 s4, Runs .rot key s t u left → 3 ≤ t.sd → pop key (iterating u left t) s = .ok c t1 s1 →
        pop key t1 s1 = .ok b t2 s2 → pop key t2 s2 = .ok a t3 s3 → pushAll key [b, c, a] t3 s3 = .ok () t4 s4 →
        Retires (.rot tile ctx) key u left none s t4 s4)
    ∧ (∀ s t u left t1 s1, Runs .pick key s t u left → u.ins.imm < t.sd →
        push key ((iterating u left t).at' u.ins.imm) (iterating u left t) s = .ok () t1 s1 → Retires (.pick tile ctx) key u left none s t1 s1)
    ∧ PushesOnly (.pushi tile ctx) .pushi key (fun i _ => [(BitVec.ofNat 16 i.imm).signExtend 64])
    ∧ PushesOnly (.pto tile ctx) .pto key (fun i t => [if t.pred i.imm then 1 else 0])
    ∧ PushesOnly (.rds tile ctx) .rds key (fun i t => [t.special i.imm])
    ∧ PushesOnly (.sgrd tile ctx) .sgrd key
        (fun i t => [(t.segs[(Fin.ofNat 8 i.imm : Fin 8)]).word0, (t.segs[(Fin.ofNat 8 i.imm : Fin 8)]).word1])
    ∧ ∀ s t u left t1 s1, Runs .rdwait key s t u left →
        push key (BitVec.ofNat 64 (t.waited.toNat + 2 ^ 32 * t.waitRes.toNat)) (iterating u left t) s = .ok () t1 s1 →
        Retires (.rdwait tile ctx) key u left none s (if u.ins.imm.testBit 0 then { t1 with waited := 0, waitRes := 0 } else t1) s1

/-- The operand stack keeps its top 16 words in slots; a push over 16 words spills, a pop that leaves 16 fills (R296, R297). -/
def Obligations.PyratStackWindow : Prop :=
  ∀ key (t : Thread) (v : W64) (s : State),
    (t.sd < 16 → push key v t s = .ok () { t with slots := vset t.slots t.nextSlot v, sd := t.sd + 1 } s)
    ∧ (16 ≤ t.sd → ∀ t1 s1, threadStore key 7 (8 * (t.sd - 16)) (toBytes 8 (t.at' 15).toNat) t s = .ok () t1 s1 →
        push key v t s = .ok () { t1 with slots := vset t1.slots t1.nextSlot v, sd := t1.sd + 1 } s1)
    ∧ (t.sd ≤ 16 → pop key t s = .ok (t.at' 0) { t with sd := t.sd - 1 } s)
    ∧ (17 ≤ t.sd → ∀ bs t1 s1, threadRead key 7 (8 * (t.sd - 1 - 16)) 8 .clean { t with sd := t.sd - 1 } s = .ok bs t1 s1 →
        ∃ t2, pop key t s = .ok (t.at' 0) t2 s1 ∧ t2.at' 15 = BitVec.ofNat 64 (ofBytes bs) ∧ t2.sd = t1.sd
          ∧ ∀ d, d < 15 → t2.at' d = t1.at' d)
    ∧ ∀ t1 s1, push key v t s = .ok () t1 s1 → t1.sd = t.sd + 1 ∧ t1.at' 0 = v ∧ ∀ d, d < 15 → d < t.sd → t1.at' (d + 1) = t.at' d

/-- The instructions whose result is a pending product, a predicate or a special register (R307, R331–R333, R340). -/
def Obligations.PyratResults : Prop :=
  (∀ tile ctx s t u left a b t1 t2 s1 s2, let key := ctxKey tile ctx
    pop key (iterating u left t) s = .ok b t1 s1 → pop key t1 s1 = .ok a t2 s2 → 2 ≤ t.sd →
    (Runs .mul key s t u left → Retires (.mul tile ctx) key u left none s
      { t2 with muls := t2.muls ++ [⟨0, BitVec.ofNat 64 (a.toNat * b.toNat), BitVec.ofNat 64 (a.toNat * b.toNat / 2 ^ 64)⟩] } s2)
    ∧ (Runs .mulh key s t u left → Retires (.mulh tile ctx) key u left none s
      { t2 with muls := t2.muls ++ [⟨0, BitVec.ofInt 64 (a.toInt * b.toInt), BitVec.ofInt 64 (a.toInt * b.toInt / 2 ^ 64)⟩] } s2)
    ∧ (Runs .cmp key s t u left →
        Retires (.cmp tile ctx) key u left none s (t2.setPred u.ins.imm (compare u.ins.sub a b)) s2))
  ∧ (∀ tile ctx s t u left x t1 s1, let key := ctxKey tile ctx
    pop key (iterating u left t) s = .ok x t1 s1 → 1 ≤ t.sd →
    (Runs .pfrom key s t u left → Retires (.pfrom tile ctx) key u left none s (t1.setPred u.ins.imm (x != 0)) s1)
    ∧ (Runs .wrs key s t u left → u.ins.imm < 5 → Retires (.wrs tile ctx) key u left none s (t1.setSpecial u.ins.imm x) s1))
  ∧ (∀ tile ctx s t u left, let key := ctxKey tile ctx
    let t0 := iterating u left t
    Runs .plog key s t u left → Retires (.plog tile ctx) key u left none s
      (t0.setPred (u.ins.imm % 8) (plog u.ins.sub (t0.pred (u.ins.imm / 8 % 8)) (t0.pred (u.ins.imm / 64 % 8)))) s)
  ∧ (∀ a b : W64, (compare 0 a b = true ↔ a = b) ∧ (compare 1 a b = true ↔ a ≠ b)
      ∧ (compare 2 a b = true ↔ a.toInt < b.toInt) ∧ (compare 3 a b = true ↔ a.toInt ≤ b.toInt)
      ∧ (compare 4 a b = true ↔ b.toInt < a.toInt) ∧ (compare 5 a b = true ↔ b.toInt ≤ a.toInt)
      ∧ (compare 6 a b = true ↔ a < b) ∧ (compare 7 a b = true ↔ a ≤ b)
      ∧ (compare 8 a b = true ↔ b < a) ∧ (compare 9 a b = true ↔ b ≤ a))
  ∧ ∀ (t : Thread) (p q : Nat) (v : Bool), p < 8 → q < 8 →
      (t.setPred p v).pred q = (if q = 0 then true else if q = p then v else t.pred q)

/-- The memory instructions, direct and indexed: what is popped, where the access lies, what is pushed or stored (R334–R336).
What rests on the model's choices: log entries 10, 86. -/
def Obligations.PyratMemory : Prop :=
  ∀ tile ctx s t u left, let key := ctxKey tile ctx
    let t0 := iterating u left t
    let i := u.ins
    let n := 2 ^ (i.sub % 4)
    (∀ ecc o bs t1 s1 t2 s2 t3 s3, Runs .ld key s t u left → baseWords i ≤ t.sd → accessOff key i t0 s = .ok o t1 s1 →
      threadRead key (immSeg i.imm) o n ecc t1 s1 = .ok bs t2 s2 → pushLoaded key (loadValue i bs) t2 s2 = .ok () t3 s3 →
      Retires (.ld tile ctx ecc) key u left none s t3 s3)
    ∧ (∀ o v t1 s1 t2 s2 t3 s3, Runs .st key s t u left → baseWords i + 1 ≤ t.sd → accessOff key i t0 s = .ok o t1 s1 →
      pop key t1 s1 = .ok v t2 s2 → threadStore key (immSeg i.imm) o (toBytes n v.toNat) t2 s2 = .ok () t3 s3 →
      Retires (.st tile ctx) key u left none s t3 s3)
    ∧ (∀ o v old t1 s1 t2 s2 t3 s3 t4 s4, Runs .aadd key s t u left → i.sub.testBit 2 = false → baseWords i + 1 ≤ t.sd →
      accessOff key i t0 s = .ok o t1 s1 → pop key t1 s1 = .ok v t2 s2 →
      atomicRead key (immSeg i.imm) o n false t2 s2 = .ok old t3 s3 →
      atomicWrite key (immSeg i.imm) o (toBytes n (ofBytes old + v.toNat)) t3 s3 = .ok () t4 s4 →
      Retires (.aadd tile ctx) key u left none s t4 s4)
    ∧ (∀ o v old t1 s1 t2 s2 t3 s3 t4 s4 t5 s5, Runs .aadd key s t u left → i.sub.testBit 2 = true → baseWords i + 1 ≤ t.sd →
      accessOff key i t0 s = .ok o t1 s1 → pop key t1 s1 = .ok v t2 s2 →
      atomicRead key (immSeg i.imm) o n true t2 s2 = .ok old t3 s3 →
      atomicWrite key (immSeg i.imm) o (toBytes n (ofBytes old + v.toNat)) t3 s3 = .ok () t4 s4 →
      pushLoaded key (BitVec.ofNat 64 (ofBytes old)) t4 s4 = .ok () t5 s5 →
      Retires (.aadd tile ctx) key u left none s t5 s5)
    ∧ (∀ l d o t1 s1 t2 s2 t3 s3, Runs .bcopy key s t u left → 3 ≤ t.sd → pop key t0 s = .ok l t1 s1 → pop key t1 s1 = .ok d t2 s2 →
      pop key t2 s2 = .ok o t3 s3 → (t3.cc[(Fin.ofNat 4 i.sub : Fin 4)]).out < 255 →
      Retires (.bcopy tile ctx) key u left none s
        { t3 with cc := vmod t3.cc (Fin.ofNat 4 i.sub) (fun c => { c with out := c.out + 1 }) }
        { s3 with th := { s3.th with copies := s3.th.copies ++
          [⟨key, Fin.ofNat 4 i.sub, Fin.ofNat 8 (i.imm % 8), Fin.ofNat 8 (i.imm / 8 % 8), o, d, l, 0, .none⟩] } })

/-- A direct LD or ST that its segment refuses ends the thread with FAULT_SEGMENT and touches no memory (R303, R304). -/
def Obligations.PyratSegmentFault : Prop :=
  ∀ tile ctx s t u left, let key := ctxKey tile ctx
    let i := u.ins
    let g := t.segs[immSeg i.imm]
    let n := 2 ^ (i.sub % 4)
    u.rep = .once → i.sub.testBit 3 = false →
    (Runs .ld key s t u left → g.limit < immOff i.imm + n ∨ g.r = false → ∀ ecc,
      Answers (.ld tile ctx ecc) s (endFaulted key stSegment (putThread key
        { t with xi := BitVec.ofNat 64 g.limit, xf := xfWord stSegment (immSeg i.imm).val false (g.va (immOff i.imm)) } s)))
    ∧ (Runs .st key s t u left → 1 ≤ t.sd → t.sd ≤ 16 → g.limit < immOff i.imm + n ∨ g.w = false →
      Answers (.st tile ctx) s (endFaulted key stSegment (putThread key
        { t with xi := BitVec.ofNat 64 g.limit, xf := xfWord stSegment (immSeg i.imm).val true (g.va (immOff i.imm)) } s)))

/-- The control instructions: what they pop and push and where the context goes on (R337–R339). -/
def Obligations.PyratControl : Prop :=
  ∀ tile ctx s t u left, let key := ctxKey tile ctx
    let t0 := iterating u left t
    let tgt := relTarget u.ins (branchStart t0 u.ins s)
    (Runs .br key s t u left → Retires (.br tile ctx) key u left (some tgt) s t0 s)
    ∧ (∀ x t1 s1, pop key t0 s = .ok x t1 s1 → 1 ≤ t.sd →
        (Runs .bz key s t u left → Retires (.bz tile ctx) key u left (if x = 0 then some tgt else none) s t1 s1)
        ∧ (Runs .bnz key s t u left → Retires (.bnz tile ctx) key u left (if x = 0 then none else some tgt) s t1 s1)
        ∧ (x.toNat % 2 = 0 → Runs .bri key s t u left → Retires (.bri tile ctx) key u left (some x.toNat) s t1 s1)
        ∧ (x.toNat % 2 = 0 → Runs .ret key s t u left → Retires (.ret tile ctx) key u left (some x.toNat) s t1 s1)
        ∧ (∀ t2 s2, x.toNat % 2 = 0 → push key (returnOff key t0 s) t1 s1 = .ok () t2 s2 → Runs .calli key s t u left →
            Retires (.calli tile ctx) key u left (some x.toNat) s t2 s2))
    ∧ (∀ t1 s1, push key (returnOff key t0 s) t0 s = .ok () t1 s1 → Runs .call key s t u left →
        Retires (.call tile ctx) key u left (some tgt) s t1 s1)
    ∧ (Runs .end_ key s t u left → Retires (.end_ tile ctx) key u left none s { t0 with hold := .ended } s)

/-- Waiting: WAITC and the fences retire when what they wait for is done and hold their context before (R288, R291, R341), and the events
that end a wait (R291, R306).
What rests on the model's choices: log entries 86, 87. -/
def Obligations.PyratWaits : Prop :=
  ∀ tile ctx s t u left, let key := ctxKey tile ctx
    let t0 := iterating u left t
    let k : Fin 4 := Fin.ofNat 4 u.ins.imm
    (∀ t1 s1, Runs .waitc key s t u left → (t.cc[k]).out ≤ u.ins.imm / 256 % 256 → push key (t.cc[k]).word t0 s = .ok () t1 s1 →
      Retires (.waitc tile ctx) key u left none s
        { t1 with cc := vmod t1.cc k (fun c => { c with latch := none, more := false })
                  xi := ((t.cc[k]).latch.map (·.xi)).getD t1.xi
                  xf := ((t.cc[k]).latch.map (·.xf)).getD t1.xf } s1)
    ∧ (Runs .waitc key s t u left → u.ins.imm / 256 % 256 < (t.cc[k]).out →
      Answers (.waitc tile ctx) s (putThread key { t0 with hold := .waitc k (u.ins.imm / 256 % 256) } s))
    ∧ (Runs .fenceT key s t u left →
      (fenceClear key .thread t0 s = true → Retires (.fenceT tile ctx) key u left none s t0 s)
      ∧ (fenceClear key .thread t0 s = false → Answers (.fenceT tile ctx) s (putThread key { t0 with hold := .fence .thread } s)))
    ∧ (Runs .fenceD key s t u left →
      (fenceClear key .device t0 s = true → Retires (.fenceD tile ctx) key u left none s t0 s)
      ∧ (fenceClear key .device t0 s = false → Answers (.fenceD tile ctx) s (putThread key { t0 with hold := .fence .device } s)))
    ∧ (Runs .fenceS key s t u left →
      (fenceClear key .system t0 s = true → Retires (.fenceS tile ctx) key u left none s t0 s)
      ∧ (fenceClear key .system t0 s = false → Answers (.fenceS tile ctx) s (putThread key { t0 with hold := .fence .system } s)))
    ∧ (awake s = true → threadAt key s = some t → t.hold = .data →
      Answers (.loadDataArrival tile ctx) s (modThread key (fun x => { x with hold := .ready }) s))
    ∧ (awake s = true → threadAt key s = some t →
      Answers (.accessPerformed tile ctx .thread) s (modThread key (fun x => { x with unT := x.unT - 1 }) s)
      ∧ Answers (.accessPerformed tile ctx .device) s
          (modThread key (fun x => { x with unD := x.unD - 1, unT := min x.unT (x.unD - 1) }) s)
      ∧ Answers (.accessPerformed tile ctx .system) s
          (modThread key (fun x => { x with unS := x.unS - 1, unD := min x.unD (x.unS - 1), unT := min x.unT (x.unS - 1) }) s))

/-- The engine instructions, their descriptor read and accepted: the counter has counted up, the engine holds the operation, the context
retires (R342, R343). -/
def Obligations.PyratEngineIssue : Prop :=
  ∀ tile ctx same s t u left o bs t1 s1, let key := ctxKey tile ctx
    let t0 := iterating u left t
    let k := issueCounter u.ins
    let va := (t1.segs[issueSeg u.ins]).va o.toNat
    (TakesDescriptor key u.ins 64 t0 s o bs t1 s1 → hooksActive (keyTile key) s1 < 256 → claimWaits resHook (keyTile key) t1.cls s1 = false →
      ∀ kind y s2,
        let x := newHook key t1 k kind (ofBytes bs) va s1.tl.nextOp
        let s' := putThread key t1 s1
        let s'' := noteGrant resHook (keyTile key) t1.cls 1 { s' with tl := { s'.tl with nextOp := s1.tl.nextOp + 1, hooks := s'.tl.hooks ++ [x] } }
        hookAccept x same s'' = (.accepted y, s2) →
        let s3 := hookStart y (putHook y s2)
        (kind = .gather → Runs .gather key s t u left →
          Retires (.gather tile ctx same) key u left none s (withCounters key t1 s3) s3)
        ∧ (kind = .pool → Runs .pool key s t u left → Retires (.pool tile ctx same) key u left none s (withCounters key t1 s3) s3)
        ∧ (kind = .addr → Runs .gatherAddr key s t u left →
          Retires (.gatherAddr tile ctx same) key u left none s (withCounters key t1 s3) s3))
    ∧ (∀ n tp sp, pop key t0 s = .ok o tp sp → 2 ≤ t.sd → keyPlain key = false →
      ∀ tq sq, pop key tp sp = .ok n tq sq → ∀ tr, threadRead key (issueSeg u.ins) o.toNat 64 .clean tq sq = .ok bs tr s1 →
      countUp key k tr s1 = .ok () t1 s1 → hooksActive (keyTile key) s1 < 256 → claimWaits resHook (keyTile key) t1.cls s1 = false →
      ∀ x, resumeCheck key k va (ofBytes bs) n.toNat s1 = .ok x →
        let x1 : HookOp := { x with id := s1.tl.nextOp, accepted := true, bufs := x.accBufs s1 }
        ∀ s2, decideClaim resBuffers x1.tile.val (buffersUsed x1.tile.val s1) x1.cls (x1.rowBufs s1) true same s1 = (.granted, s2) →
        let x2 : HookOp := { x1 with bufs := x1.accBufs s2 + x1.rowBufs s2 }
        let s3 := noteGrant resHook (keyTile key) t1.cls 1 (dropRetained key k s2)
        let s4 := hookDrive x2 (putThread key t1 { s3 with tl := { s3.tl with nextOp := s1.tl.nextOp + 1, hooks := s3.tl.hooks ++ [x2] } })
        Runs .gatherResume key s t u left →
        Retires (.gatherResume tile ctx same) key u left none s (withCounters key t1 s4) s4)
    ∧ (TakesDescriptor key u.ins 32 t0 s o bs t1 s1 → Runs .rowAdd key s t u left →
      let d := BitVec.ofNat 256 (ofBytes bs)
      raVerdict d 0 t1.segs s1 = none →
      (decideClaim resPurl (keyTile key) (purlUsed (keyTile key) s1) t1.cls 1 true same s1).1 = .granted →
      let x : RowAddOp := {
        tile := Fin.ofNat 16 (keyTile key), thread := key, counter := k, cls := t1.cls, tag := t1.tag, segs := t1.segs, seg := issueSeg u.ins,
        off := o.toNat, desc := some d, links := 0, next := 0, accepted := 0, step := ((confirmOf s1).map (·.num)).getD 0, stall := .none }
      let s2 := storeSlots (rowAddRun rowAddFuel x same (putThread key t1 (modPurl (fun p => { p with ops := p.ops ++ [x] }) s1)))
      Retires (.rowAdd tile ctx same) key u left none s (withCounters key t1 s2) s2)
    ∧ (TakesDescriptor key u.ins 32 t0 s o bs t1 s1 → Runs .stream key s t u left → streamFault (ofBytes bs) = none →
      Retires (.stream tile ctx) key u left none s
        { t1 with cc := vmod t1.cc k (fun c => c.complete stOK 0 0) } (streamAdd (newStream key (ofBytes bs)) s1))
    ∧ (TakesDescriptor key u.ins 64 t0 s o bs t1 s1 → Runs .mxop key s t u left → mxQueued (keyTile key) s1 < 64 →
      claimWaits resMatrix (keyTile key) t1.cls s1 = false →
      let x : MxOp := {
        tile := Fin.ofNat 16 (keyTile key), thread := key, counter := k, cls := t1.cls, tag := t1.tag, segs := t1.segs,
        desc := BitVec.ofNat 512 (ofBytes bs), started := false, row := 0, cnt := {}, written := 0, seen := [],
        stall := .none, stallXf := 0, ending := none }
      x.verdict s1 = none →
      Retires (.mxop tile ctx) key u left none s t1
        (noteGrant resMatrix (keyTile key) t1.cls 1 { s1 with tl := { s1.tl with mx := s1.tl.mx ++ [x] } }))

/-- Whatever the instruction, a false guard leaves the context as it was but for its issue (R300). -/
def Obligations.PyratFalseGuard : Prop :=
  ∀ c op key s t u left, pyratRow c = some (op, key) → Issues op key s t u left → (iterating u left t).guard u.ins = false →
    Retires c key u left none s (iterating u left t) s

/-- Whatever the row, a malformed unit ends the thread with ERR_MALFORMED, a unit beyond SG0 with FAULT_SEGMENT; a context that cannot
issue, or whose unit is another operation, stays as it is (R286, R316, R319, R322). -/
def Obligations.PyratNoIssue : Prop :=
  ∀ c op key s t, pyratRow c = some (op, key) → awake s = true → threadAt key s = some t →
    (canIssue t s = false → Answers c s s)
    ∧ (canIssue t s = true → fetchUnit (t.code s) t.pc = .malformed → Answers c s (endFaulted key stMalformed
        (modThread key (fun x => { x with xf := xfWord stMalformed 0 false 0 }) s)))
    ∧ (∀ o, canIssue t s = true → fetchUnit (t.code s) t.pc = .outside o → Answers c s (endFaulted key stSegment
        (modThread key (fun x => { x with
          xi := BitVec.ofNat 64 (t.segs[(0 : Fin 8)]).limit, xf := xfWord stSegment 0 false ((t.segs[(0 : Fin 8)]).va o) }) s)))
    ∧ ∀ u, canIssue t s = true → fetchUnit (t.code s) t.pc = .unit u → u.ins.op ≠ op → Answers c s s

/-- The stack-depth check comes first: ERR_STATE, with XF naming SEG 0 and ADDR 0, and nothing else changed (R298). -/
def Obligations.PyratUnderflow : Prop :=
  ∀ c op key need s t u left,
    (∃ tile ctx, key = ctxKey tile ctx ∧ (c, op, need) ∈
      [(Instr.add tile ctx, POp.add, 2), (.sub tile ctx, .sub, 2), (.mul tile ctx, .mul, 2), (.cmp tile ctx, .cmp, 2),
       (.swap tile ctx, .swap, 2), (.over_ tile ctx, .over_, 2), (.rot tile ctx, .rot, 3), (.dup tile ctx, .dup, 1), (.neg tile ctx, .neg, 1),
       (.drop tile ctx, .drop, 1), (.bz tile ctx, .bz, 1), (.ret tile ctx, .ret, 1)]) →
    Runs op key s t u left → u.rep = .once → t.sd < need →
    Answers c s (endFaulted key stState (putThread key { t with xf := BitVec.ofNat 64 stState } s))

/-- A REPI pops its count before it runs: 0 executes nothing, above 2^32 is malformed (R312). -/
def Obligations.PyratRepiCount : Prop :=
  ∀ c op key s t u, pyratRow c = some (op, key) → awake s = true → threadAt key s = some t → canIssue t s = true →
    fetchUnit (t.code s) t.pc = .unit u → u.ins.op = op → u.rep = .repi → t.rep = none → t.xc.getLsbD 63 = false → 1 ≤ t.sd → t.sd ≤ 16 →
    (t.at' 0 = 0 → t.shadow = none → Answers c s (putThread key { t with sd := t.sd - 1, xc := 0, pc := t.pc + u.len } s))
    ∧ ((2 : Nat) ^ 32 < (t.at' 0).toNat → Answers c s (endFaulted key stMalformed
        (modThread key (fun x => { x with xf := xfWord stMalformed 0 false 0 }) s)))

/-- Retiring an issue: deliveries count down, fresh ones start their distance, and PC moves on (R307, R309, R310). -/
def Obligations.PyratRetire : Prop :=
  (∀ key u jump (t : Thread) k lo hi, t.loads = [] → u.rep = .once →
    (t.muls = [⟨k + 2, lo, hi⟩] →
      (retire key u 1 jump t).muls = [⟨k + 1, lo, hi⟩] ∧ (retire key u 1 jump t).ml = t.ml ∧ (retire key u 1 jump t).mh = t.mh)
    ∧ (t.muls = [⟨1, lo, hi⟩] →
      (retire key u 1 jump t).muls = [] ∧ (retire key u 1 jump t).ml = lo ∧ (retire key u 1 jump t).mh = hi)
    ∧ (t.muls = [⟨0, lo, hi⟩] →
      (retire key u 1 jump t).muls = [⟨if keyPlain key then 3 else 1, lo, hi⟩] ∧ (retire key u 1 jump t).ml = t.ml))
  ∧ (∀ key u jump (t : Thread) k slot v, t.muls = [] → u.rep = .once →
    (t.loads = [⟨k + 2, slot, v⟩] → (retire key u 1 jump t).loads = [⟨k + 1, slot, v⟩] ∧ (retire key u 1 jump t).slots = t.slots)
    ∧ (t.loads = [⟨1, slot, v⟩] → (retire key u 1 jump t).loads = [] ∧ (retire key u 1 jump t).slots = vset t.slots slot v)
    ∧ (t.loads = [⟨0, slot, v⟩] → (retire key u 1 jump t).loads = [⟨2, slot, v⟩] ∧ (retire key u 1 jump t).slots = t.slots))
  ∧ ∀ key u (t : Thread) tgt, u.rep = .once →
    (t.shadow = none → (retire key u 1 none t).pc = t.pc + u.len)
    ∧ (t.shadow = none → keyPlain key = false → (retire key u 1 (some tgt) t).pc = tgt)
    ∧ (t.shadow = none → keyPlain key = true →
        (retire key u 1 (some tgt) t).pc = t.pc + u.len ∧ (retire key u 1 (some tgt) t).shadow = some tgt)
    ∧ (t.shadow = some tgt → (retire key u 1 none t).pc = tgt ∧ (retire key u 1 none t).shadow = none)

/-- The events of thread contexts: a block copy's end (R336), the placement of a thread (R281, R282), the grant of a freed unit (R449).
What rests on the model's choices: log entry 130. -/
def Obligations.PyratEvents : Prop :=
  ∀ s, awake s = true →
    (∀ idx c t, s.th.copies[idx]? = some c → threadAt c.thread s = some t → c.stall = .none →
      let gone := { s with th := { s.th with copies := s.th.copies.erase c } }
      (c.len = 0 → Answers (.bcopyCompletion idx) s (opDone c.thread c.counter stOK 0 0 gone))
      ∧ ((2 : Nat) ^ 24 < c.len.toNat → Answers (.bcopyCompletion idx) s
          (opDone c.thread c.counter stMalformed 0 (xfWord stMalformed 0 false 0) gone))
      ∧ (∀ s1, c.len ≠ 0 → copyRefusal c t = none →
          copyOn (threadWho c.thread t) t.tag.toNat ((t.segs[c.srcSeg]).va c.src.toNat) ((t.segs[c.dstSeg]).va c.dst.toNat) c.len.toNat
            (c.len.toNat + 1) c.done s = (.all, s1) →
          Answers (.bcopyCompletion idx) s
            (opDone c.thread c.counter stOK 0 0 { s1 with th := { s1.th with copies := s1.th.copies.erase c } })))
    ∧ (∀ l key p, engines s = true → nextPlacement s = some (l, key) → patternOf l.pattern s = some p →
      let s1 := modCmd (Fin.ofNat 64 l.qp) l.cid (fun c => { c with effective := true, wait := none })
        (modLaunch l.id (fun x => { x with next := x.next + 1 }) (putThread key (l.thread l.next (keyTile key) p.image.length) s))
      Answers .threadPlacement s (if l.plain then s1 else { s1 with th := { s1.th with pointer := (keyTile key + 1) % 16 } }))
    ∧ ∀ (res scope : BitVec 16) c, engines s = true → nextGrant res.toNat scope.toNat (poolUsed res.toNat scope.toNat s) s = some c →
      let here := fun (x : Claim) => x.res == res.toNat && x.scope == scope.toNat
      let rest := s.th.claims.erase c
      let s1 := endWait c.thread { s with th := { s.th with claims := rest.filter (fun x => !here x) } }
      let s2 := reissue c.thread s1
      Answers (.claimGrant res scope) s { s2 with th := { s2.th with claims := rest.filter here ++ s2.th.claims } }

/-! ### The mailbox (07, 08) -/

/-- Posting one completion entry (R139, R149–R151). -/
def Obligations.CompletionPosted : Prop :=
  ∀ (n : Fin 64) (c : Completion) (s : State), let q := s.mb.qps[n]
    let t := post n c s
    (q.state ≠ .enabled → t = s)
    ∧ (q.state = .enabled → q.waiting = [] → q.hasRoom = true → hostReach s = true →
        let a := q.cqBase.toNat + 32 * q.cqTail
        cellsRead t.host a 32 = c.bytes q.phase
        ∧ (∀ x, x < a ∨ a + 32 ≤ x → cellGet t.host x = cellGet s.host x)
        ∧ (t.mb.qps[n]).cqTail = (q.cqTail + 1) % 2 ^ q.cqLog
        ∧ (t.mb.qps[n]).phase = (if (q.cqTail + 1) % 2 ^ q.cqLog = 0 then !q.phase else q.phase)
        ∧ (t.mb.qps[n]).cmds = q.cmds ∧ ∀ m : Fin 64, m ≠ n → t.mb.qps[m] = s.mb.qps[m])
    ∧ (q.state = .enabled → q.waiting ≠ [] ∨ q.hasRoom = false →
        t.host = s.host ∧ (t.mb.qps[n]).waiting = q.waiting ++ [c] ∧ (t.mb.qps[n]).cqTail = q.cqTail
        ∧ ∀ m : Fin 64, m ≠ n → t.mb.qps[m] = s.mb.qps[m])

/-- Steps 1 to 3 of R166 and the gates before them, in their order.
What rests on the model's choices: log entry 9. -/
def Obligations.MailboxRefusalOrder : Prop :=
  ∀ (d : CmdDef) (n : Fin 64) (e : Entry) (s : State),
    let missing := fun i => i ∈ d.needs e ∧ granted i s = false
    (gateShut d.op s = true → cmdRefusal d n e s = some (stState, 0))
    ∧ (gateShut d.op s = false → ∀ o, entryFault d false (d.timing n e s) e = some o → cmdRefusal d n e s = some (stMalformed, o))
    ∧ (gateShut d.op s = false → entryFault d false (d.timing n e s) e = none →
        (∀ i, missing i → (∀ j, missing j → i ≤ j) → cmdRefusal d n e s = some (stFeature, i))
        ∧ ((∀ i, ¬missing i) →
            cmdRefusal d n e s = if qp0Only d.op = true ∧ n ≠ 0 then some (stPolicy, 1) else none))

/-- A refused command has no effect but its completion, whatever the row.
What rests on the model's choices: log entry 9. -/
def Obligations.MailboxRefusalHasNoEffect : Prop :=
  ∀ (c : Instr) (d : CmdDef) (n : Fin 64) (e : Entry) (x : Cmd) (earlier : List Cmd) (s : State) (st sub : Nat),
    mailboxRow c = some (d, n, e) → awake s = true → Entry.withOpcode e d.op = e → frontCmd n s = some (x, earlier) → x.entry = e →
    mayBegin n x earlier s = true → hostReach s = true → ¬(d.op = 0x01 ∧ s.mb.negotiated = true) →
    cmdRefusal d n e (begun n e s) = some (st, sub) → st ≠ stMalformed →
    Answers c s (complete n (Entry.cid e) st sub 0 0 (begun n e s))

/-- Only queue pair 0 may issue the 13 commands of R169. -/
def Obligations.MailboxQueuePairZeroOnly : Prop :=
  (∀ (c : Instr) (d : CmdDef) (n : Fin 64) (e : Entry) (x : Cmd) (earlier : List Cmd) (s : State),
    mailboxRow c = some (d, n, e) →
    (∃ bad, c = .qpCreate n e ∨ c = .qpDelete n e ∨ c = .bindOff n e ∨ c = .warmReset n e ∨ c = .ptWrite n e ∨ c = .gaugeConfig n e
      ∨ c = .gaugeRebase n e ∨ c = .fabricId n e ∨ c = .keyUpdate n e bad ∨ c = .fwStage n e ∨ c = .fwActivate n e ∨ c = .fwChainSet n e
      ∨ c = .fwDiscard n e) →
    n ≠ 0 → awake s = true → Entry.withOpcode e d.op = e → frontCmd n s = some (x, earlier) → x.entry = e →
    mayBegin n x earlier s = true → hostReach s = true → gateShut d.op s = false →
    entryFault d false (d.timing n e (begun n e s)) e = none → (∀ i ∈ d.needs e, granted i s = true) →
    Answers c s (complete n (Entry.cid e) stPolicy 0x0001 0 0 (begun n e s)))
  ∧ (∀ (d : CmdDef) (e : Entry) (s : State), cmdRefusal d 0 e s ≠ some (stPolicy, 0x0001))
  ∧ ∀ (c : Instr) (d : CmdDef) (n : Fin 64) (e : Entry) (s : State), mailboxRow c = some (d, n, e) →
      (∀ bad, c ≠ .qpCreate n e ∧ c ≠ .qpDelete n e ∧ c ≠ .bindOff n e ∧ c ≠ .warmReset n e ∧ c ≠ .ptWrite n e ∧ c ≠ .gaugeConfig n e
        ∧ c ≠ .gaugeRebase n e ∧ c ≠ .fabricId n e ∧ c ≠ .keyUpdate n e bad ∧ c ≠ .fwStage n e ∧ c ≠ .fwActivate n e
        ∧ c ≠ .fwChainSet n e ∧ c ≠ .fwDiscard n e) →
      cmdRefusal d n e s ≠ some (stPolicy, 0x0001)

/-- A fenced command does not begin while an earlier one runs, nor a later one while a fenced one runs (R154). -/
def Obligations.MailboxFence : Prop :=
  ∀ (c : Instr) (d : CmdDef) (n : Fin 64) (e : Entry) (x : Cmd) (earlier : List Cmd) (s : State),
    mailboxRow c = some (d, n, e) → awake s = true → frontCmd n s = some (x, earlier) →
    (Entry.fence x.entry = true ∧ earlier ≠ []) ∨ (∃ y ∈ earlier, Entry.fence y.entry = true) →
    Answers c s s

/-- The session commands (R105, R141, R159, R160, R163, R173).
What rests on the model's choices: log entries 9, 64, 75. -/
def Obligations.SessionCommands : Prop :=
  ∀ (n : Fin 64) (e : Entry) (s : State), let b := begun n e s
    let b6 := if b.rst.stage = 5 then { b with rst := { b.rst with stage := 6 } } else b
    let m := namedQp e
    (Accepted cmdNegotiate n e s →
      (efld e 8 16 % 2 = 1 → let g := efld e 8 16 &&& offered b
        Completes (.negotiate n e) n e s stOK (BitVec.ofNat 64 g) 0
          { b6 with mb := { b6.mb with negotiated := true, features := BitVec.ofNat 128 g } })
      ∧ (efld e 8 16 % 2 = 0 → Completes (.negotiate n e) n e s stFeature 0 0 b6))
    ∧ (∀ x earlier, awake s = true → Entry.withOpcode e 0x01 = e → frontCmd n s = some (x, earlier) → x.entry = e →
        mayBegin n x earlier s = true → hostReach s = true → s.mb.negotiated = true →
        Completes (.negotiate n e) n e s stState (s.mb.features.setWidth 64) ((s.mb.features >>> 64).setWidth 64) b)
    ∧ (Accepted cmdIdentify n e s → Completes (.identify n e) n e s (if anyDegraded b then stDegraded else stOK)
        (BitVec.ofNat 64 (t1Available b)) 0 (buffered e (identifyPage b) b))
    ∧ (Accepted cmdResetReport n e s → Completes (.resetReport n e) n e s stOK 0 0
        (buffered e (ResetReport.bytes { b.rst.report with recountBalanced := b.rst.report.recountBalanced && b.rst.recountDone }
          b.rst.lastReset.code) b))
    ∧ (Accepted cmdQpCreate n e s → (b.mb.qps[m]).state = .disabled → hostRefuses (efld e 16 8) 64 b = false →
        hostRefuses (efld e 24 8) 32 b = false →
        Completes (.qpCreate n e) n e s stOK 0 0 (modQp m (fun _ =>
          { state := .enabled, sqBase := BitVec.ofNat 64 (efld e 16 8), cqBase := BitVec.ofNat 64 (efld e 24 8),
            sqLog := efld e 10 1 % 16, cqLog := efld e 10 1 / 16, cls := Fin.ofNat 4 (efld e 9 1 % 4), irqEn := efld e 11 1 % 2 == 1,
            coalCount := efld e 12 1, coalTime := efld e 13 1, deferAfter := efld e 14 1 }) b))
    ∧ (Accepted cmdQpDelete n e s → m ≠ 0 → (b.mb.qps[m]).state ≠ .disabled → (b.mb.qps[m]).stop = none →
        Works (.qpDelete n e) n e s (stopQp m (some (Entry.cid e)) b))

/-- The translation commands (R175–R177, R250, R252–R255).
What rests on the model's choices: log entries 9, 82. -/
def Obligations.SpaceCommands : Prop :=
  ∀ (n : Fin 64) (e : Entry) (s : State), let b := begun n e s
    let tag := Entry.tag e
    let root := efld e 16 8
    (Accepted cmdAsCreate n e s → t1Target root 65536 b = true → spaceLive tag b = false →
      Completes (.asCreate n e) n e s stOK 0 0 (retryFaultIns (rereadPool tag 0 (2 ^ 52)
        { b with tx := { b.tx with spaces := kvSet b.tx.spaces tag ⟨root, tagGen tag b⟩, gens := kvSet b.tx.gens tag (tagGen tag b) } })))
    ∧ (Accepted cmdAsDestroy n e s → spaceLive tag b = true → spaceUsed tag b = false → destroying tag b = false →
        let i : Inval := ⟨n.val, Entry.cid e, tag, 0, 2 ^ 52, 0, true⟩
        let b1 := modRes (fun r => { r with poolDecl := r.poolDecl.filter (fun d => d.1 != tag) }) (bumpGen tag b)
        Works (.asDestroy n e) n e s (invalProgress { b1 with tx := { b1.tx with invals := b1.tx.invals ++ [i] } } i))
    ∧ (Accepted cmdPtWrite n e s → t1Target root (efld e 24 4) b = true →
        (∀ k t, ptPieces n (Entry.dptr e) root (efld e 24 4) 0 18 b = (okEnd k 0, t) →
          Completes (.ptWrite n e) n e s stOK (BitVec.ofNat 64 k) 0 t)
        ∧ (efld e 24 4 = 8 → Entry.dptr e % 4096 ≤ 4088 → hostRefuses (Entry.dptr e) 8 b = false → poisoned (sectorOf root) b = false →
          Completes (.ptWrite n e) n e s stOK 1 0 (t1Store root (bufferOf e 8 b) b)))
    ∧ (Accepted cmdInvalTag n e s → spaceLive tag b = true →
        Completes (.invalTag n e) n e s stOK (BitVec.ofNat 64 (tagGen tag b + 1).toNat) 0 (bumpGen tag b))
    ∧ (Accepted cmdInvalRange n e s → spaceLive tag b = true → rangeInvals b < 4 →
        let i : Inval := ⟨n.val, Entry.cid e, tag, root, efld e 24 8, BitVec.allOnes 58, false⟩
        let b1 := uncacheRange tag root (efld e 24 8) b
        Works (.invalRange n e) n e s
          { b1 with tx := { b1.tx with invals := b1.tx.invals ++ [i], ackExpected := b1.tx.ackExpected + 58 } })
    ∧ (Accepted cmdInvalRange n e s → spaceLive tag b = true → 4 ≤ rangeInvals b →
        Answers (.invalRange n e) s
          (modCmd n (Entry.cid e) (fun c => { c with wait := some resInvals, effective := false, stall := .none }) b))
    ∧ (Accepted cmdFaultRingSet n e s → b.tx.ringSet = false ∨ b.tx.faults = [] →
        Completes (.faultRingSet n e) n e s stOK 0 0 { b with tx := { b.tx with
          ringSet := true, ringBase := BitVec.ofNat 64 root, frHead := 0, frTail := 0, frPhase := true, frCount := 0 } })
    ∧ (∀ f, Accepted cmdFaultResume n e s → b.tx.faults.find? (fun f => f.id == efld e 16 8) = some f →
        Completes (.faultResume n e) n e s stOK 0 0 (endFault f (efld e 24 1 == 0) b))

/-- TABLE_CREATE, TABLE_DESTROY and TABLE_QUERY (R172, R178, R214, R215).
What rests on the model's choices: log entries 9, 72, 75. -/
def Obligations.TableCommands : Prop :=
  ∀ (n : Fin 64) (e : Entry) (s : State), let b := begun n e s
    let id := namedTable e
    (Accepted cmdTableCreate n e s → bufferReads e 128 b →
      let d := ofBytes (bufferOf e 128 b)
      createVerdict d (Table.parse d) b = none →
      Completes (.tableCreate n e) n e s stOK 0 0
        { b with tbl := { b.tbl with tables := kvSet b.tbl.tables (Table.parse d).id.toNat (Table.parse d) } })
    ∧ (∀ t, Accepted cmdTableDestroy n e s → tableOf id b = some t → b.stp.live = [] →
        (∀ x ∈ b.tbl.tables, x.2.index = 2 → x.2.compQ.toNat ≠ id ∧ x.2.compR.toNat ≠ id) → (∀ r ∈ b.ram.parked, r.table.toNat ≠ id) →
        Completes (.tableDestroy n e) n e s stOK (BitVec.ofNat 64 t.blocks) 0 (destroyTable id b))
    ∧ (∀ t x y z, Accepted cmdTableQuery n e s → tableOf id b = some t → countBlocks t b = .inl (x, y, z) →
        Completes (.tableQuery n e) n e s stOK (BitVec.ofNat 64 x) (BitVec.ofNat 64 z)
          (buffered e (toBytes 128 t.pack ++ toBytes 8 0 ++ toBytes 8 x ++ toBytes 8 y ++ toBytes 8 z ++ List.replicate 96 0) b))
    ∧ (tableOf id b = none →
        (Accepted cmdTableDestroy n e s → Completes (.tableDestroy n e) n e s stState (BitVec.ofNat 64 id) 0 b)
        ∧ (Accepted cmdTableQuery n e s → Completes (.tableQuery n e) n e s stState (BitVec.ofNat 64 id) 0 b))

/-- The hot-set and replica commands whose rows load at once (R179, R181, R210–R212).
What rests on the model's choices: log entries 9, 74. -/
def Obligations.CopyCommands : Prop :=
  ∀ (n : Fin 64) (e : Entry) (s : State), let b := begun n e s
    let id := namedTable e
    let h := namedHotSet e
    (∀ t, Accepted cmdHotsetLoad n e s → bufferReads e (8 * efld e 16 4) b → tableOf id b = some t →
      let xs := indexWords (efld e 16 4) (bufferOf e (8 * efld e 16 4) b)
      let tiles := maskTiles (efld e 14 2) b
      let rows := xs.filterMap t.rowOf
      (∀ x ∈ xs, (t.rowOf x).isSome = true) → (∀ r ∈ rows, ownsRow id t r b = true) →
      ((kvGet b.tbl.hotSets h).isSome = true ∨ b.tbl.hotSets.length < 1024) →
      (∀ k ∈ tilesOf tiles, swatchUsed k (some h) b + xs.length * roundUp t.stride 32 ≤ 2 ^ 24) →
      let x : HotSet := ⟨BitVec.ofNat 20 id, tiles, rows.map (fun r => ⟨r, [], 0, true⟩)⟩
      let b1 := { b with tbl := { b.tbl with hotSets := kvSet b.tbl.hotSets h x } }
      ∀ copies b2, loadCopies (cmdClass n b1) t x.rows b1 = ((copies, .loaded), b2) →
      let b3 := modTbl (fun u => { u with hotSets := kvMod u.hotSets h (fun y => { y with rows := copies }) }) b2
      Completes (.hotsetLoad n e) n e s stOK (BitVec.ofNat 64 (copies.length * copyBytes id b3)) 0 b3)
    ∧ (Accepted cmdHotsetRefresh n e s → (kvGet b.tbl.hotSets h).isSome = true → Schedules (.hotsetRefresh n e) n e s 8 h)
    ∧ (Accepted cmdHotsetDrop n e s → (kvGet b.tbl.hotSets h).isSome = true →
        Completes (.hotsetDrop n e) n e s stOK 0 0 (dropHotSet h (dropRefreshes h h b)))
    ∧ (∀ t, Accepted cmdReplicaSet n e s → tableOf id b = some t →
        let rows := (List.range (efld e 24 4)).map (fun i => efld e 16 8 + i)
        let r : Replica := ⟨BitVec.ofNat 20 id, efld e 16 8, efld e 24 4, BitVec.ofNat 16 (efld e 28 2) &&& b.ram.tiles,
          BitVec.ofNat 8 (efld e 30 1) &&& b.ram.stackSet, rows.map (fun x => ⟨x, [], 0, true⟩)⟩
        (∀ x ∈ rows, ownsRow id t x b = true) →
        (∀ x ∈ b.tbl.replicas, x.table.toNat = id → overlaps x.first x.count (efld e 16 8) (efld e 24 4) = false) →
        replicaLack id (efld e 24 4) r.tiles r.stackSet b = none →
        let b1 := { b with tbl := { b.tbl with replicas := b.tbl.replicas ++ [r] } }
        ∀ i copies b2, findReplica id (efld e 16 8) (efld e 24 4) b1 = some i → b1.tbl.replicas[i]? = some r →
        loadCopies (cmdClass n b1) t r.rows b1 = ((copies, .loaded), b2) →
        Completes (.replicaSet n e) n e s stOK 0 0
          { b2 with tbl := { b2.tbl with replicas := b2.tbl.replicas.set i { r with rows := copies } } })
    ∧ (∀ t i, Accepted cmdReplicaDrop n e s → tableOf id b = some t → findReplica id (efld e 16 8) (efld e 24 4) b = some i →
        Completes (.replicaDrop n e) n e s stOK 0 0 { b with tbl := { b.tbl with replicas := b.tbl.replicas.eraseIdx i } })

/-- The residency commands (R180, R231–R234).
What rests on the model's choices: log entries 9, 78. -/
def Obligations.TierCommands : Prop :=
  ∀ (n : Fin 64) (e : Entry) (s : State), let b := begun n e s
    let blocks := rangeBlocks e b
    let v := efld e 9 1
    (Accepted cmdPrefetch n e s →
      (Entry.marked e = true → Schedules (.prefetch n e) n e s 8 0)
      ∧ (Entry.marked e = false →
        (∀ va st, rangeBad e b = some (va, st) →
          Answers (.prefetch n e) s (complete n (Entry.cid e) st (baseSub st) 0 (BitVec.ofNat 64 va) b))
        ∧ (∀ k t, rangeBad e b = none → prefetchOn n e (2 * (efld e 24 8 / 65536) + 2) b = (okEnd k 0, t) →
          Completes (.prefetch n e) n e s stOK (BitVec.ofNat 64 k) 0 t)))
    ∧ (Accepted cmdAdvise n e s → efld e 8 1 ≠ 2 → ∀ va st, rangeBad e b = some (va, st) →
        Answers (.advise n e) s (complete n (Entry.cid e) st (baseSub st) 0 (BitVec.ofNat 64 va) b))
    ∧ (Accepted cmdAdvise n e s → rangeBad e b = none →
        (∀ k t, efld e 8 1 = 0 → adviseAll (adviseTier v b) blocks b = (k, t) →
          Completes (.advise n e) n e s stOK (BitVec.ofNat 64 k) 0 t)
        ∧ (∀ k t, efld e 8 1 = 1 → adviseAll (fun d => ({ d with readMostly := v == 1 }, true)) blocks b = (k, t) →
          Completes (.advise n e) n e s stOK (BitVec.ofNat 64 k) 0 t)
        ∧ (∀ k t, efld e 8 1 = 2 → v = 0 → bufferReads e 64 b → adviseAll (fun d => ({ d with abset := 0 }, true)) blocks b = (k, t) →
          Completes (.advise n e) n e s stOK (BitVec.ofNat 64 k) 0 (pruneAbsets t))
        ∧ (∀ k t a, efld e 8 1 = 2 → v ≠ 0 → bufferReads e 64 b →
          b.res.absets.find? (fun x => x.2 == BitVec.ofNat 512 (ofBytes (bufferOf e 64 b))) = some a →
          adviseAll (fun d => ({ d with abset := a.1 }, true)) blocks b = (k, t) →
          Completes (.advise n e) n e s stOK (BitVec.ofNat 64 k) 0 (pruneAbsets t))
        ∧ (∀ k t, efld e 8 1 = 3 → v = 0 → adviseAll (fun d => ({ d with pin := false }, true)) blocks b = (k, t) →
          Completes (.advise n e) n e s stOK (BitVec.ofNat 64 k) 0 t))
    ∧ (∀ r, Accepted (cmdDriveUnfence r) n e s → r.failed = 0 → r.fitted = true →
        let p : Fin 4 := Fin.ofNat 4 (efld e 8 1)
        Completes (.driveUnfence n e r) n e s stOK 0 0 (unfenceBlocks p (initDrive p r (abandonNvme p b))))

/-- Patterns, launches and tile resets (R112, R182, R278–R280).
What rests on the model's choices: log entries 9, 51, 90. -/
def Obligations.LaunchCommands : Prop :=
  ∀ (n : Fin 64) (e : Entry) (s : State), let b := begun n e s
    (∀ h, Accepted cmdPatternLoad n e s → bufferReads e (efld e 12 4) b → kvFree b.th.patterns 0 256 = some h →
      Completes (.patternLoad n e) n e s stOK (BitVec.ofNat 64 h) 0
        { b with th := { b.th with patterns := kvSet b.th.patterns h ⟨efld e 8 1 == 1, bufferOf e (efld e 12 4) b⟩ } })
    ∧ (Accepted cmdPatternUnload n e s → (patternOf (efld e 8 2) b).isSome = true → (∀ l ∈ b.th.launches, l.pattern ≠ efld e 8 2) →
        Completes (.patternUnload n e) n e s stOK 0 0 { b with th := { b.th with patterns := kvErase b.th.patterns (efld e 8 2) } })
    ∧ (∀ bs b1 p, Accepted cmdLaunch n e s → blockTranslates (Entry.tag e) (efld e 16 8) b = true →
        xRead ⟨0, 16, (cmdClass n b).val, false, efld e 16 8⟩ (Entry.tag e) (efld e 16 8) 192 .read b = (.data bs, b1) →
        blockFault (ofBytes bs) (efld e 12 4) = none → patternOf (efld e 8 2) b1 = some p →
        let tiles := maskTiles (efld e 24 2) b1
        tiles ≠ 0 → (cmdClass n b1 = 2 → 4 * maskUsed tiles b1 ≤ 3 * 512 * (tilesOf tiles).length) →
        Answers (.launch n e) s (modCmd n (Entry.cid e) (fun c => { c with wait := some resContexts, effective := false, stall := .none })
          { b1 with th := { b1.th with launches := b1.th.launches ++ [newLaunch n e p tiles (ofBytes bs) b1],
                                        nextLaunch := b1.th.nextLaunch + 1 } }))
    ∧ (∀ k t, Accepted cmdTileReset n e s → b.ram.tiles.getLsbD (efld e 8 1 % 16) = true → tileReset (Fin.ofNat 16 (efld e 8 1)) b = (k, t) →
        Completes (.tileReset n e) n e s stOK (BitVec.ofNat 64 k) 0 t)

/-- The step and speculation commands (R16, R17, R22, R23, R183–R186).
What rests on the model's choices: log entries 9, 71, 100. -/
def Obligations.StepCommands : Prop :=
  ∀ (n : Fin 64) (e : Entry) (s : State), let b := begun n e s
    let k := namedStep e
    let own := fun kind => ownEntry n e kind (k % 65536)
    let second := fun kind => secondEntry n e kind (e.getLsbD (8 * 26 + 1))
    (Accepted cmdStepOpen n e s → stepPending n e b = false →
      (Entry.marked e = false → openOk k b = true →
        (e.getLsbD (8 * 26) = false → Completes (.stepOpen n e) n e s stOK 0 0 (disown n (Entry.cid e) (openStep k b)))
        ∧ (e.getLsbD (8 * 26) = true → schedRefusal [second 3] b = none →
          Completes (.stepOpen n e) n e s stOK 0 0 (disown n (Entry.cid e) (openStep k (schedPut b (second 3))))))
      ∧ (Entry.marked e = true → Entry.periodic e = false → e.getLsbD (8 * 26) = false → (∀ l, b.stp.last = some l → l < k) →
        schedRefusal [own 6] b = none → Answers (.stepOpen n e) s (schedPut b (own 6))))
    ∧ (∀ st, Accepted cmdStepConfirm n e s → stepPending n e b = false → Entry.marked e = false → e.getLsbD (8 * 14) = false →
        stepOf k b = some st → st.phase = .opened →
        (confirmHeld k b = false → windowOpen k b = false → windowAbandoned k b = false →
          Completes (.stepConfirm n e) n e s stOK 0 0 (modStep k (fun x => { x with phase := .confirm }) b))
        ∧ (confirmHeld k b = true →
          Answers (.stepConfirm n e) s (confirmDue ⟨k, false, (n.val, Entry.cid e), false⟩ b)
          ∧ ∃ l, (confirmDue ⟨k, false, (n.val, Entry.cid e), false⟩ b).stp.heldConfirm = some ⟨k, false, (n.val, Entry.cid e), l⟩))
    ∧ (Accepted cmdStepConfirm n e s → stepPending n e b = false → Entry.marked e = true → Entry.periodic e = false →
        stepReachable k (fun p => p == .opened) b = true → Schedules (.stepConfirm n e) n e s 1 (k % 65536))
    ∧ (Accepted cmdStepClose n e s → stepPending n e b = false → Entry.marked e = false → e.getLsbD (8 * 26) = false →
        closeOk k b = true → Works (.stepClose n e) n e s (closeStart k (n.val, Entry.cid e) b))
    ∧ (Accepted cmdStepClose n e s → stepPending n e b = false → Entry.marked e = true → Entry.periodic e = false →
        e.getLsbD (8 * 26) = false → stepReachable k (fun p => p == .opened || p == .confirm) b = true →
        Schedules (.stepClose n e) n e s 4 (k % 65536))
    ∧ (Accepted cmdSpecOpen n e s → stepPending n e b = false → Entry.periodic e = false →
        stepReachable k (fun p => p == .opened) b = true →
        let two := [own 7, secondEntry n e 2 (e.getLsbD (8 * 26))]
        schedRefusal two b = none → Answers (.specOpen n e) s (two.foldl schedPut b))
    ∧ (∀ j t, Accepted cmdSpecAbandon n e s → windowOpen k b = true → abandonWindow b = (j, t) →
        Completes (.specAbandon n e) n e s stOK (BitVec.ofNat 64 j) 0 t)
    ∧ (Accepted cmdStepQuery n e s → Completes (.stepQuery n e) n e s stOK 0 0 (buffered e (stepPage b) b))

/-- The fabric commands (R113, R187, R188, R429, R433, R439, R442).
What rests on the model's choices: log entries 9, 67, 112, 132, 137, 155. -/
def Obligations.FabricCommands : Prop :=
  ∀ (n : Fin 64) (e : Entry) (s : State), let b := begun n e s
    let p := namedPort e
    let waiting := modPort p (fun x => { x with waiters := x.waiters ++ [(n.val, Entry.cid e)] })
    let want := if efld e 12 2 = 0x1FF then none else some (efld e 12 2)
    (Accepted cmdFabricId n e s → (∀ i : Fin 9, (b.fab.ports[i]).state ≠ .joined) →
      Completes (.fabricId n e) n e s stOK 0 0 { b with fab := { b.fab with id := some (efld e 8 2 % 512) } })
    ∧ (Accepted cmdPortConfig n e s →
        let b1 := modPort p (fun x => { x with
          enabled := true, expected := want, violLimit := if efld e 10 2 = 0 then 64 else efld e 10 2 }) b
        (e.getLsbD 72 = false → Completes (.portConfig n e) n e s stOK 0 0 (portDisable p b))
        ∧ (e.getLsbD 72 = true → b.fab.id.isSome = true →
          ((b1.fab.ports[p]).state = .joined → (want = none ∨ want = some (b1.fab.ports[p]).peer) →
            Completes (.portConfig n e) n e s stOK (BitVec.ofNat 64 (b1.fab.ports[p]).peer) 0 b1)
          ∧ ((b1.fab.ports[p]).state = .training → Works (.portConfig n e) n e s (waiting b1))
          ∧ ((b1.fab.ports[p]).state = .down ∨ (b1.fab.ports[p]).state = .disabled →
            Works (.portConfig n e) n e s (waiting (modPort p (fun x => { x.cleared with state := .training }) b1)))))
    ∧ (∀ es, Accepted cmdShardmapLoad n e s → bufferReads e (16 * efld e 12 4) b →
        shardParse (fun id => (tableOf id b).map (·.rows)) (efld e 12 4) (bufferOf e (16 * efld e 12 4) b) [] = .ok es →
        b.fab.gen < efld e 8 4 → closingOf b = none →
        Completes (.shardmapLoad n e) n e s stOK (BitVec.ofNat 64 b.fab.gen) 0
          (releaseGen { b with fab := { b.fab with gen := efld e 8 4, shards := es } }))
    ∧ (∀ r, Accepted (cmdPortReset r) n e s →
        (efld e 9 1 = 0 → (b.fab.ports[p]).enabled = true → Works (.portReset n e r) n e s (waiting (portResetBye p b)))
        ∧ (efld e 9 1 = 1 → r.failed = 0 → r.fitted = true → let d : Fin 4 := Fin.ofNat 4 (efld e 8 1)
          Completes (.portReset n e r) n e s stOK 0 0 (unfenceBlocks d (initDrive d r (abandonNvme d (sqFlushIds (sqNvmeIds d.val) b))))))
    ∧ (Accepted cmdPortUnfence n e s → (b.fab.ports[p]).state = .fenced →
        Works (.portUnfence n e) n e s (waiting (portReset p (modPort p (fun x => { x with violations := 0, inSecond := 0 }) b))))
    ∧ (Accepted cmdFabricStatus n e s → let c := countAllFec b
        Completes (.fabricStatus n e) n e s stOK (BitVec.ofNat 64 c.fab.gen) 0
          (buffered e (c.fab.ports.toList.flatMap Port.record) c))

/-- The gauge and schedule commands (R74–R79, R87, R189, R275).
What rests on the model's choices: log entries 9, 55, 56. -/
def Obligations.GaugeCommands : Prop :=
  ∀ (n : Fin 64) (e : Entry) (s : State), let b := begun n e s
    (Accepted cmdGaugeConfig n e s → b.gg.sched = [] →
      Completes (.gaugeConfig n e) n e s stOK 0 0 { b with gg := { b.gg with cfg :=
        { rate := efld e 8 4, source := efld e 12 1 % 4, primary := efld e 12 1 / 4 % 2, upstream := efld e 13 1,
          downMask := BitVec.ofNat 9 (efld e 14 2), cableDelay := BitVec.ofNat 16 (efld e 16 2) } } })
    ∧ (Accepted cmdGaugeRebase n e s →
        let b1 := cancelSchedule b
        let b2 := if windowLive b1 && (b1.stp.window.any (fun w => w.state == .opened)) then (abandonWindow b1).2 else b1
        Completes (.gaugeRebase n e) n e s stOK (BitVec.ofNat 64 (waitingOwners b.gg.sched b).length) 0
          { b2 with gg := { b2.gg with rebase := true, rejected := 0, resume := none } })
    ∧ (Accepted cmdSchedRead n e s → Completes (.schedRead n e) n e s stOK (BitVec.ofNat 64 b.gg.sched.length)
        (BitVec.ofNat 64 (b.gg.sched.filter (fun x => x.2.deferred)).length) (buffered e (schedPage b) b))
    ∧ (∀ x, Accepted cmdSchedCancel n e s → kvGet b.gg.sched (efld e 8 1) = some x → x.kind = efld e 9 1 → x.beat.toNat = efld e 16 8 →
        Completes (.schedCancel n e) n e s stOK 0 0 (schedRemove (efld e 8 1) x b))
    ∧ (Accepted cmdTensionSlot n e s → Schedules (.tensionSlot n e) n e s 0x0A 0)
    ∧ (∀ i, Accepted cmdScrubSlot n e s → b.ram.slot = none → (∀ x ∈ b.gg.sched, x.2.kind ≠ 9) → kvFree b.gg.sched 0 256 = some i →
        schedRefusal [ownEntry n e 9 0] b = none →
        let slot := fun q => some ⟨i, Entry.periodic e, efld e 8 4, q, false⟩
        (Entry.periodic e = false → let b1 := schedPut b (ownEntry n e 9 0)
          Answers (.scrubSlot n e) s { b1 with ram := { b1.ram with slot := slot 0 } })
        ∧ (Entry.periodic e = true → let b1 := schedPut b { ownEntry n e 9 0 with owner := none }
          Completes (.scrubSlot n e) n e s stOK (BitVec.ofNat 64 i) 0 { b1 with ram := { b1.ram with
            slot := slot (scrubQuota (Entry.period e).toNat b.gg.cfg.rate (efld e 12 4)) } }))

/-- The power, monitor, log, tally, reset and bind-off commands (R96, R174, R190, R453–R474).
What rests on the model's choices: log entries 9, 68, 69, 70, 115, 132. -/
def Obligations.ControlCommands : Prop :=
  ∀ (n : Fin 64) (e : Entry) (s : State), let b := begun n e s
    (Accepted cmdPowerCap n e s → let b1 := setHostCap (efld e 8 2) b
      (b1.pm.cap = min b1.pm.grant b1.pm.hostCap → Completes (.powerCap n e) n e s stOK (BitVec.ofNat 64 (capNow b1)) 0 b1)
      ∧ (b1.pm.cap ≠ min b1.pm.grant b1.pm.hostCap → Works (.powerCap n e) n e s b1))
    ∧ (∀ bs h b1 b2, Accepted cmdMonRead n e s → monPage (List.finRange 88) b = (bs, b1) → hottestResult b1 = (h, b2) →
        Completes (.monRead n e) n e s stOK h 0 (writeBuf e bs b2))
    ∧ (Accepted cmdThermLimit n e s → Completes (.thermLimit n e) n e s stOK 0 0
        (modMonitor (Fin.ofNat 88 (efld e 8 1)) (fun x => { x with limit := BitVec.ofNat 16 (efld e 10 2) }) b))
    ∧ (∀ x rest, Accepted cmdLogRead n e s → b.er.ring = x :: rest →
        Completes (.logRead n e) n e s stOK (BitVec.ofNat 64 ((x.seq - 1).toNat % 4096)) 0
          (buffered e ((List.range (efld e 10 2)).flatMap (fun i => logAt ((efld e 8 2 + i) % 4096) b)) b))
    ∧ (Accepted cmdLogMirrorSet n e s → Completes (.logMirrorSet n e) n e s stOK 0 0
        { b with er := { b.er with mirrorEn := e.getLsbD 64, mirrorBase := BitVec.ofNat 64 (efld e 16 8) } })
    ∧ (Accepted cmdTallyAudit n e s → b.ty.check = none →
        Works (.tallyAudit n e) n e s (checkBegin (.audit n.val (Entry.cid e)) b))
    ∧ (∀ bs, Accepted cmdTallyRead n e s → tallyRecord (efld e 8 2) b = some bs →
        Completes (.tallyRead n e) n e s stOK 0 0 (buffered e bs b))
    ∧ (Accepted cmdWarmReset n e s → Completes (.warmReset n e) n e s stOK 0 0 { b with rst := { b.rst with warmAsked := some n.val } })
    ∧ (Accepted cmdBindOff n e s → b.rst.bindOff = none → (∀ x ∈ b.stp.live, x.phase ≠ .opened ∧ x.phase ≠ .confirm) →
        let b1 := { b with rst := { b.rst with bindOff := some ⟨n.val, Entry.cid e, 0, 0, [], []⟩ } }
        (closingOf b1 = none → Works (.bindOff n e) n e s b1)
        ∧ ((closingOf b1).isSome = true → Answers (.bindOff n e) s
            (modCmd n (Entry.cid e) (fun c => { c with wait := some 0x0101, effective := false, stall := .none }) b1)))

/-- The identity, tag, key and firmware commands (R491–R504, R510–R524).
What rests on the model's choices: log entries 9, 119, 120, 122, 123, 124. -/
def Obligations.FirmwareCommands : Prop :=
  ∀ (n : Fin 64) (e : Entry) (s : State), let b := begun n e s
    let a := efld e 8 1
    (Accepted cmdIdRead n e s → Completes (.idRead n e) n e s stOK 0 0 (buffered e (identityPage b) b))
    ∧ (Accepted cmdTagRead n e s → Completes (.tagRead n e) n e s stOK (BitVec.ofNat 64 (tagCount a b)) 0 (buffered e (tagArea a b) b))
    ∧ (Accepted cmdTagWrite n e s → bufferReads e (tagSize a) b → let bs := bufferOf e (tagSize a) b
        (100000 ≤ tagCount a b → Answers (.tagWrite n e) s (complete n (Entry.cid e) stPolicy 0x0005 0 0 b))
        ∧ (tagCount a b < 100000 → bs = tagArea a b → Completes (.tagWrite n e) n e s stOK (BitVec.ofNat 64 (tagCount a b)) 0 b)
        ∧ (tagCount a b < 100000 → bs ≠ tagArea a b → Completes (.tagWrite n e) n e s stOK (BitVec.ofNat 64 (tagCount a b + 1)) 0
            { b with fw := { b.fw with tags := kvSet b.fw.tags a bs, tagCounts := kvSet b.fw.tagCounts a (tagCount a b + 1) } }))
    ∧ (Accepted (cmdKeyUpdate false) n e s → bufferReads e 1024 b → let bs := bufferOf e 1024 b
        keyRefusal bs b = none →
        let g := bytesAt (ofBytes bs) 4 4
        let key : PubKey := .point (bytesAt (ofBytes bs) 32 48) (bytesAt (ofBytes bs) 80 48)
        Completes (.keyUpdate n e false) n e s stOK (BitVec.ofNat 64 g) 0
          { b with fw := { b.fw with slots := vset b.fw.slots (keyTarget b) ⟨true, g, key⟩, key := ⟨g, (keyTarget b).val, false, key⟩ } })
    ∧ (Accepted cmdKeyStatus n e s → Completes (.keyStatus n e) n e s stOK (BitVec.ofNat 64 (b.fw.slots[(0 : Fin 2)]).word)
        (BitVec.ofNat 64 (b.fw.slots[(1 : Fin 2)]).word) b)
    ∧ (∀ d, Accepted cmdFwStage n e s → bufferReads e (efld e 12 4) b → b.rst.recovery = false → efld e 8 4 ≠ 0 →
        b.fw.staging = some d → d.chain = false → d.next = efld e 8 4 → e.getLsbD 128 = false →
        let bs := bufferOf e (efld e 12 4) b
        let all := d.bytes ++ bs
        all.length ≤ d.size →
        let b1 := sendCut (efld e 8 4) false d.version (bs.length / 7888 + 1) bs b
        Completes (.fwStage n e) n e s stOK (BitVec.ofNat 64 all.length) 0
          { b1 with fw := { b1.fw with staging := some { d with bytes := all, next := all.length } } })
    ∧ (Accepted cmdFwActivate n e s → (idleBank b).state = 1 → activatePending b = false → inTrial b = false →
        Entry.periodic e = false → Schedules (.fwActivate n e) n e s 0x0B 0)
    ∧ (Accepted cmdFwStatus n e s → Completes (.fwStatus n e) n e s stOK (BitVec.ofNat 64 (runningVersion b))
        (BitVec.ofNat 64 (stagedVersion b)) { buffered e (fwStatus b) b with freeCtr := b.freeCtr + 1 })
    ∧ (Accepted cmdFwChainSet n e s → b.fw.staging = none → b.fw.applying = none → activatePending b = false → inTrial b = false →
        Completes (.fwChainSet n e) n e s stOK 0 0
          { b with fw := { b.fw with chainUp := efld e 8 1, chainMask := BitVec.ofNat 9 (efld e 10 2) } })
    ∧ (Accepted cmdFwDiscard n e s → inTrial b = false → b.fw.applying = none → activatePending b = false →
        Completes (.fwDiscard n e) n e s stOK 0 0
          { b with fw := { b.fw with staging := none, banks := vset b.fw.banks (otherBank b.fw.running) ⟨0, 0, 0, 0, some []⟩ } })

/-! ### The mailbox engine and BAR0 (06, 07, 26) -/

/-- The mailbox engine's own events (R139–R145, R156–R158, R163, R164, R533).
What rests on the model's choices: log entries 9, 65, 66, 130. -/
def Obligations.MailboxEngine : Prop :=
  ∀ (n : Fin 64) (s : State), awake s = true → let q := s.mb.qps[n]
    (∀ v : W32, barMode s ≠ .unsupported → running s = true → q.state = .enabled → q.stop = none →
        (v.toNat < 2 ^ q.sqLog → Answers (.mbSqTail n v) s (modQp n (fun q => { q with sqTail := v.toNat }) s))
        ∧ (2 ^ q.sqLog ≤ v.toNat → Answers (.mbSqTail n v) s (quarantine n 0x0C (violation 0x0C n.val v.toNat 0 s)))
        ∧ (v.toNat < 2 ^ q.cqLog → (v.toNat + 2 ^ q.cqLog - q.cqHead) % 2 ^ q.cqLog ≤ q.unreleased → q.waiting = [] →
            Answers (.mbCqHead n v) s (modQp n (fun q => { q with cqHead := v.toNat }) s)))
    ∧ (∀ v : W32, barMode s ≠ .unsupported → running s = false →
        Answers (.mbSqTail n v) s { s with mb := { s.mb with
          doorbells := s.mb.doorbells.filter (fun d => !(d.1 == false && d.2.1 == n.val)) ++ [(false, n.val, v)],
          heldValues := kvSet s.mb.heldValues (0x20000 + 8 * n.val) v } }
        ∧ Answers (.mbCqHead n v) s { s with mb := { s.mb with
          doorbells := s.mb.doorbells.filter (fun d => !(d.1 == true && d.2.1 == n.val)) ++ [(true, n.val, v)],
          heldValues := kvSet s.mb.heldValues (0x20004 + 8 * n.val) v } })
    ∧ (mayFetch n s = true → slotsUsed s < (if q.cls = 0 then 1024 else if q.cls = 2 then 768 else 896) →
        claimWaits resMailbox 0 q.cls s = false →
        let a := q.sqBase.toNat + 64 * q.sqHead
        let e : Entry := BitVec.ofNat 512 (ofBytes (cellsRead s.host a 64))
        let next := (q.sqHead + 1) % 2 ^ q.sqLog
        let m := poolMem resMailbox 0 s
        hostRefuses a 64 s = false → cidTaken n e s = false →
        Answers (.commandFetch n false) s
          (modQp n (fun q => { q with sqHead := next
                                      cmds := q.cmds ++ [⟨e, nowPoint s, next, false, false, false, none, 0, 0, 0, .none, false⟩] })
            (setPoolMem resMailbox 0 { m with start := slotsUsed s, taken := 1, sinceC3 := if q.cls = 3 then 0 else m.sinceC3 + 1 } s)))
    ∧ (∀ (cid : BitVec 16) c w, findCmd n cid.toNat s = some c → c.wait = some w → c.interim = false →
        c.effective = false ∨ Entry.opcode c.entry ∈ [0x35, 0x14, 0x11] → mbLive s = true → q.state = .enabled → q.deferAfter ≠ 0 →
        q.deferAfter ≤ beatsSince c.due s →
        Answers (.interimCompletion n cid) s
          (post n ⟨0, 0, c.sqHead, cid.toNat, stDeferred, true, false, w, q.deferAfter, Entry.noIrq c.entry⟩
            (modCmd n cid.toNat (fun c => { c with interim := true }) s)))
    ∧ (q.timer = true → q.irqEn = true →
        Answers (.coalTimeExpiry n) s (raiseQp n (modQp n (fun q => { q with timer := false, sinceRaise := 0 }) s)))
    ∧ (∀ v : W64, barMode s ≠ .unsupported → running s = true →
        let q0 := s.mb.qps[(0 : Fin 64)]
        let kept := fun w : W64 => w &&& 0x000000FFFFFF1FFD
        let set := fun w : W64 => ({ s with mb := { s.mb with ctrl := w }, hl := { s.hl with low := kvErase s.hl.low 0x10008 } } : State)
        let up := v ||| 1
        let down := v &&& ~~~ 3
        let again := v ||| 2
        (logOk (bits up.toNat 4 4) = true → logOk (bits up.toNat 8 4) = true → up.getLsbD 1 = false → q0.state = .disabled →
          s.mb.ctrl.getLsbD 0 = false → ringCause s.mb.sqBaseReg s.mb.cqBaseReg s = none → let c := kept up
          Answers (.qp0Enable v) s (modQp 0 (fun _ =>
            { state := .enabled, sqBase := s.mb.sqBaseReg, cqBase := s.mb.cqBaseReg, sqLog := bits c.toNat 4 4, cqLog := bits c.toNat 8 4
              cls := Fin.ofNat 4 (bits c.toNat 2 2), irqEn := c.getLsbD 12, coalCount := bits c.toNat 16 8, coalTime := bits c.toNat 24 8
              deferAfter := bits c.toNat 32 8 }) (set c)))
        ∧ (logOk (bits down.toNat 4 4) = true → logOk (bits down.toNat 8 4) = true → q0.state = .enabled → s.mb.ctrl.getLsbD 0 = true →
          Answers (.qp0Disable v) s (stopQp 0 none (modQp 0 (ctrlModeration (kept down)) (set (kept down)))))
        ∧ (logOk (bits again.toNat 4 4) = true → logOk (bits again.toNat 8 4) = true → q0.state ≠ .enabled → again.getLsbD 0 = false →
          Answers (.reinit v) s (modQp 0 (fun _ => {}) (set (kept again &&& ~~~ 3)))))

/-- The registers whose read changes the state, in every part of an access (R8, R527, R531, R534).
What rests on the model's choices: log entries 69, 138. -/
def Obligations.RegisterReads : Prop :=
  ∀ s : State, barOpen s = true →
    let inst := sqGet s.sq.sel.toNat s
    let cell := (kvGet s.ram.cells s.ram.memSel.toNat).getD {}
    let k := memStack s
    let stack := s.ram.stack[k]
    Answers .hlViolCount s (emit (.regData 0x8 4 s.hl.violCount.toNat) { s with hl := { s.hl with violCount := 0 } })
    ∧ Answers .hlApRefused s (emit (.regData 0xC 4 s.hl.apRefused.toNat) { s with hl := { s.hl with apRefused := 0 } })
    ∧ (∀ j : Fin 5, Answers (.erCount j) s
        (emit (.regData (0x40020 + 4 * j.val) 4 (s.er.count[j]).toNat) { s with er := { s.er with count := vset s.er.count j 0 } }))
    ∧ Answers .pmThrottleUs s (emit (.regData 0x50018 4 s.pm.throttleUs.toNat) { s with pm := { s.pm with throttleUs := 0 } })
    ∧ ReadsWide .sqInfo 0xA0008 (sqInfoReg s) s (sqPut s.sq.sel.toNat { inst with highWater := 0 } s)
    ∧ ReadsWide .sqCount 0xA0010
        (2 ^ 8 * inst.tailFired.toNat + 2 ^ 24 * inst.frogged.toNat + 2 ^ 40 * inst.uncorrectable.toNat + 2 ^ 48 * inst.corrected.toNat) s
        (sqPut s.sq.sel.toNat { inst with corrected := 0, uncorrectable := 0, frogged := 0, tailFired := 0 } s)
    ∧ ReadsWide .erMemCount 0x40108 (cell.corrected.toNat + 2 ^ 32 * cell.uncorrectable.toNat) s
        { s with ram := { s.ram with cells := kvErase s.ram.cells s.ram.memSel.toNat } }
    ∧ ReadsWide .erMemStack 0x40110 (stack.corrected.toNat + 2 ^ 32 * stack.uncorrectable.toNat + 2 ^ 48 * stack.ondie.toNat) s
        { s with ram := { s.ram with stack := vset s.ram.stack k { stack with corrected := 0, uncorrectable := 0, ondie := 0 } } }
    ∧ ReadsWide .erMemPoison 0x40118 (memPoisonReg s) s
        { s with ram := { s.ram with stack := vset s.ram.stack k { stack with repaired := 0 } } }
    ∧ ReadsWide .ggBeat 0x30008 (if s.gg.state = .unlocked ∨ s.rst.recovery = true then 0 else s.gg.beat.toNat) s
        { s with gg := { s.gg with phaseLatch := some (if s.gg.state = .unlocked then 0 else s.gg.phase) } }
    ∧ (s.gg.state ≠ .unlocked → s.rst.recovery = false →
        Answers .ggPhase s (emit (.regData 0x30010 4 (s.gg.phaseLatch.getD s.gg.phase).toNat) { s with gg := { s.gg with phaseLatch := none } }))

/-- The writes of BAR0, in every part of an access (R7, R8, R124, R125, R127, R527).
What rests on the model's choices: log entry 62. -/
def Obligations.RegisterWrites : Prop :=
  ∀ s : State, barOpen s = true →
    (∀ k : Fin 8, WritesWide (.hlApSlice k) (0x100 + 8 * k.val) (sliceWord s.hl.slices[k] % 2 ^ 32)
      (fun v t =>
        let x : Slice := { en := v.testBit 0, wrEn := v.testBit 1, cls := Fin.ofNat 4 (bits v 2 2), tag := BitVec.ofNat 12 (bits v 4 12)
                           vbase := BitVec.ofNat 22 (bits v 30 22) }
        { t with hl := { t.hl with slices := vset t.hl.slices k x } }) s)
    ∧ WritesWide .tyAlarm 0x80000 0 (fun v t => { t with ty := { t.ty with alarm := t.ty.alarm && v % 2 == 0 } }) s
    ∧ ∀ v : W32,
      (sqIdOk (v.toNat % 4096) = true → Answers (.sqSel v) s { s with sq := { s.sq with sel := v.setWidth 12 } })
      ∧ (sqIdOk (v.toNat % 4096) = false → Answers (.sqSel v) s (logErr .partner 0x10 .none 0 0xA0000 v.toNat s))
      ∧ Answers (.erSummary v) s { s with er := { s.er with pendingBits := s.er.pendingBits &&& ~~~ (v.setWidth 5) } }
      ∧ Answers (.erMemSel v) s { s with ram := { s.ram with memSel := v.setWidth 14 } }
      ∧ Answers (.pmEvent v) s { s with pm := { s.pm with event := s.pm.event &&& ~~~ v } }
      ∧ (v.toNat < 4096 → (v.toNat + 4096 - s.tx.frHead) % 4096 ≤ s.tx.frCount →
          Answers (.txFrHead v) s { s with tx := { s.tx with
            frHead := v.toNat, frCount := s.tx.frCount - (v.toNat + 4096 - s.tx.frHead) % 4096 } })
      ∧ (∀ x : Fin 128, let t := { s with hl := { s.hl with msix := vmod s.hl.msix x (fun y => { y with mask := false }) } }
          Answers (.msixUnmask (some x)) s (sendPending t x))
      ∧ Answers (.msixUnmask none) s (sendAllPending { s with hl := { s.hl with funcMask := false } })
      ∧ Answers (.registerWrite 0x40004 4 (v.setWidth 64)) s { s with er := { s.er with mask := v.setWidth 5 } }
      ∧ Answers (.registerWrite 0x5000C 4 (v.setWidth 64)) s { s with pm := { s.pm with eventMask := v &&& 0xFF } }
      ∧ (∀ off ∈ [(0x0 : BitVec 24), 0x10000, 0x40008, 0x60000, 0x70000], Answers (.registerWrite off 4 (v.setWidth 64)) s s)
      ∧ (∀ off : BitVec 24, off.toNat % 4 = 0 → regAt off.toNat = none →
          Answers (.registerWrite off 4 (v.setWidth 64)) s (violation 0x06 0 off.toNat 0 s))
      ∧ (∀ (off : BitVec 24) (n : Fin 9), ¬(n = 4 ∧ off.toNat % 4 = 0) → ¬(n = 8 ∧ off.toNat % 8 = 0) →
          Answers (.registerWrite off n (v.setWidth 64)) s (violation 0x05 0 off.toNat 0 s))

/-- The aperture, violations, power states and link training (R119–R138).
What rests on the model's choices: log entries 58, 60, 61, 62, 63. -/
def Obligations.HostLinkEvents : Prop :=
  ∀ s : State, awake s = true →
    let released := fun t : State => sendAllPending (t.hl.held.foldl performHeld { t with hl := { t.hl with held := [] } })
    (∀ (off : BitVec 36) (len : BitVec 16) k va, barMode s = .full → 0 < len.toNat → off.toNat + len.toNat ≤ 2 ^ 36 →
        apAccess off.toNat len.toNat false s = (k, va, none) →
        let x := s.hl.slices[k]
        let ps := apPlaces x.tag.toNat va len.toNat false s
        let t := apTouch x va len.toNat false s
        (∀ p ∈ ps, firstPoison p.1 p.2 t = none) →
        Answers (.bar2Read off len .clean) s (emit (.apData (ps.flatMap (fun p => t1Read p.1 p.2 t)) false) t))
    ∧ (∀ (off : BitVec 36) (data : List (Option Byte)) k va, barMode s = .full → 0 < data.length → off.toNat + data.length ≤ 2 ^ 36 →
        apAccess off.toNat data.length true s = (k, va, none) →
        let x := s.hl.slices[k]
        let stores := (enabledRuns data 0).flatMap (fun r => cutPieces (apPlaces x.tag.toNat (va + r.1) r.2.length true s) r.2)
        (∀ p ∈ stores, partialPoison p.1 p.2.length s = none) →
        Answers (.bar2Write off data) s (stores.foldl (fun t p => t1Store p.1 p.2 t) (apTouch x va data.length true s)))
    ∧ (∀ (off : BitVec 36) (len : BitVec 16), barMode s = .full → 0 < len.toNat → off.toNat % 2 ^ 33 + len.toNat ≤ 2 ^ 33 →
        let k : Fin 8 := Fin.ofNat 8 (off.toNat / 2 ^ 33)
        (s.hl.slices[k]).en = false →
        let va := (s.hl.slices[k]).vbase.toNat * 2 ^ 30 + off.toNat % 2 ^ 33
        let t := violation 0x07 k.val 0 va { s with hl := { s.hl with apRefused := satInc s.hl.apRefused } }
        (∀ ecc, Answers (.bar2Read off len ecc) s (emit .completerAbort t))
        ∧ ∀ data : List (Option Byte), data.length = len.toNat → Answers (.bar2Write off data) s t)
    ∧ (∀ addr : W64, s.hl.up = true →
        Answers (.hostTlpViolation .malformed addr) s (violation 0x01 0 0 addr.toNat s)
        ∧ Answers (.hostTlpViolation .unsupported addr) s (emit .unsupported (violation 0x02 0 0 addr.toNat s))
        ∧ Answers (.hostTlpViolation .unexpected addr) s (violation 0x03 0 0 addr.toNat s)
        ∧ Answers .d3hotEntry s { s with hl := { s.hl with d3hot := true } })
    ∧ Answers .busMasterEnableClear s { s with hl := { s.hl with bme := false } }
    ∧ (s.hl.up = true → s.rst.hostOn = true →
        (s.hl.bme = true → s.hl.d3hot = true → Answers .d0Return s (released { s with hl := { s.hl with d3hot := false } }))
        ∧ (s.hl.d3hot = false →
          Answers .busMasterEnableSet s (released { s with hl := { s.hl with bme := true, bmeArmed := true } })))
    ∧ (∀ flit cxl, s.pins.perst = false → s.rst.stage ≠ 0 → s.rst.hostOn = true → s.hl.bme = false → (s.hl.cxl = true → cxl = true ∧ flit = true) →
        Answers (.linkTrainingComplete 16 6 flit cxl) s
          { s with hl := { s.hl with up := true, width := 16, rate := 6, flit := flit, cxl := cxl && flit } })
    ∧ (∀ (u : Fin 64) (addr : W64), hostReach s = true → Answers (.deviceReadRefused (.other u addr)) s
        (logErr .contained 0x0D .operation u.val 0 addr.toNat (logErr .partner 0x0D .operation u.val 0 addr.toNat (countViol s))))
    ∧ ∀ n : Fin 64, mayFetch n s = true →
        Answers (.deviceReadRefused (.ring n)) s (quarantine n 0x0C (violation 0x0C n.val 0 0 s))

/-! ### Stitch queues (03) -/

/-- What each stitch-queue event does to its instance, and that it does nothing else (R47–R64).
What rests on the model's choices: log entries 20, 21, 22. -/
def Obligations.StitchQueues : Prop :=
  ∀ (i : BitVec 12) (s : State), awake s = true → sqIdOk i.toNat = true →
    let id := i.toNat
    let x := sqGet id s
    let flushed : SqInst := { x with epoch := x.epoch + 1, flushPending := false, packets := x.packets.filter (fun p => p.opened) }
    (∀ words : List W64, 0 < words.length → words.length ≤ 64 →
        (x.flushPending = false → x.occupancy + words.length ≤ 2 ^ sqDepthLog id →
          let p : SqPacket := ⟨words, words.length, x.epoch + s.sq.flushes, false⟩
          let y : SqInst := { x with packets := x.packets ++ [p] }
          let w := sqWater id y.occupancy
          Answers (.sqPacketCommit i words) s (emit (.sqCommitted id (x.epoch + s.sq.flushes))
            (sqPut id { y with highWater := if x.highWater.toNat < w then BitVec.ofNat 8 w else x.highWater } s)))
        ∧ (x.flushPending = false → 2 ^ sqDepthLog id < x.occupancy + words.length → Answers (.sqPacketCommit i words) s s)
        ∧ (x.flushPending = true →
          Answers (.sqPacketCommit i words) s (emit (.sqFlushed id) (sqPut id { flushed with frogged := satInc x.frogged } s))))
    ∧ (x.flushPending = false → Answers (.sqBadFlag i) s (sqPut id { x with frogged := satInc x.frogged } s))
    ∧ (x.flushPending = true → Answers (.sqBadFlag i) s (emit (.sqFlushed id) (sqPut id { flushed with frogged := satInc x.frogged } s)))
    ∧ Answers (.sqFlushRequest i) s (sqPut id { x with flushPending := true } s)
    ∧ (x.flushPending = true → Answers (.sqFlushTakesEffect i) s (sqPut id flushed s))
    ∧ (x.flushPending = false → Answers (.sqFlushTakesEffect i) s s)
    ∧ (∀ p ps w ws, x.packets = p :: ps → p.words = w :: ws → p.opened = true ∨ Config.sqIdle id = true ∨ w.toNat / 2 ^ 56 ≠ 0xFF →
        let rest := if ws = [] then ps else { p with words := ws, opened := true } :: ps
        Answers (.sqConsumerRead i .none) s (emit (.sqWord id w p.epoch) (sqPut id { x with tailRun := 0, packets := rest } s))
        ∧ Answers (.sqConsumerRead i .single) s
            (emit (.sqWord id w p.epoch) (sqPut id { x with tailRun := 0, corrected := satInc x.corrected, packets := rest } s))
        ∧ Answers (.sqConsumerRead i .double) s (logErr (sqErrClass id) 0x61 (sqScope id) id p.size 0
            (emit (.sqDiscarded id) (sqPut id { x with packets := ps, uncorrectable := satInc x.uncorrectable, tailRun := 0 } s))))
    ∧ (∀ p ps, x.packets = p :: ps → sqTailExp id s ≠ 255 → x.tailRun ≠ 15 →
        let t := emit (.sqTail id) (sqPut id { x with tailFired := satInc x.tailFired, tailRun := x.tailRun + 1 } s)
        Answers (.staleTailTimeout i false) s t ∧ Answers (.staleTailTimeout i true) s (sqDrain id t) ∧ (sqGet id (sqDrain id t)).packets = [])

/-! ### The gauge (04) -/

/-- The receiver's events (R68, R78–R84, R86, R88).
What rests on the model's choices: log entries 53, 54, 55, 57. -/
def Obligations.GaugeReceiver : Prop :=
  ∀ s : State, awake s = true → operational s = true →
    let g := s.gg
    let c := g.connector
    let passedOn := fun t : State => if t.gg.beat ≠ s.gg.beat then gaugeOriginate t else t
    (∀ (f : BitVec 80) (since : W64) (off : Int), sourceUsed g.cfg 0 = true →
        let num := frameBeat f
        (g.state = .locked → g.selected = 0 → edgeOk g.cfg.rate c since.toNat = true → frameOk f = true → num = c.num + 1 →
          let c' := { c with num := num, periods := (since.toNat :: c.periods).take 16, run := 16, agrees := true }
          Answers (.gwordFrame f since off) s (passedOn { s with gg := { g with connector := c', beat := num, phase := 0 } }))
        ∧ (g.state = .unlocked → frameOk f = true →
          let near := decide (-100000 ≤ off ∧ off ≤ 100000) && decide (num.toNat ≤ g.beat.toNat + 1 ∧ g.beat.toNat ≤ num.toNat + 1)
          let c' := { GaugeSource.good g.cfg.rate c num since.toNat with agrees := near }
          Answers (.gwordFrame f since off) s (raise 72 { s with gg := { g with connector := c', lost := false, state := .locking } }))
        ∧ (g.state ≠ .locked → frameOk f = false →
          Answers (.gwordFrame f since off) s { s with gg := { g with connector := { c with run := 0, periods := [], agrees := false } } }))
    ∧ (∀ i, g.state = .locking → gaugeLost s = false → s.er.fatal = false → lockSource g = some i →
        let num := (g.src i).num
        Answers .gaugeLock s (passedOn (raise 72 { s with gg := { g with
          state := .locked, beat := num, phase := 0, selected := i, lost := false, everLocked := true, rebase := false, rejected := 0
          holdBeats := 0, resume := some (BitVec.ofNat 64 ((num.toNat / 256 + 1) * 256)) } })))
    ∧ (∀ i : Fin 2, sourceUsed g.cfg i.val = true →
        (g.state = .locked → i.val = g.selected → Answers (.missingEdge i) s
          (passedOn (loseSource (logErr .partner 0x50 .none g.selected 2 ((g.src g.selected).num + 1).toNat s))))
        ∧ (g.state ≠ .locked → Answers (.missingEdge i) s { s with gg := g.setSrc i.val { g.src i.val with run := 0, periods := [], agrees := false } }))
    ∧ (g.state ≠ .locked → Answers .localBeat s (passedOn { s with gg := { g with
        beat := g.beat + 1, phase := 0, holdBeats := if gaugeLost s then satInc g.holdBeats else g.holdBeats } }))
    ∧ (g.state = .holdover → 1000 ≤ g.holdBeats.toNat → s.er.fatal = false → (∀ x ∈ g.sched, x.2.kind = 1 → x.2.deferred = false) →
        Answers .holdoverBeat1000 s (raise 72 { s with gg := { g with state := .freeRun } }))
    ∧ (∀ r, g.resume = some r → g.state = .locked → r.toNat ≤ g.beat.toNat → s.er.fatal = false →
        (∀ x ∈ g.sched, x.2.deferred = false → r.toNat ≤ x.2.beat.toNat) →
        Answers .resumeMark s ((schedSorted (g.sched.filter (fun x => x.2.deferred))).foldl runLate { s with gg := { g with resume := none } }))

/-- The marks of the schedule (R75–R84, R167).
What rests on the model's choices: log entries 53, 54, 98. -/
def Obligations.ScheduleMarks : Prop :=
  (∀ (c : Instr) (k : Nat) (i : Fin 256) (s : State), markRowOf c = some (k, i) → awake s = true →
    (∀ e, Due i e s → e.kind = k → gaugeLost s = true → e.needsLock = true →
      Answers c s (noteWait e (deferEntry i.val e (reachMark e s))))
    ∧ (kvGet s.gg.sched i.val = none → Answers c s s)
    ∧ (∀ e, kvGet s.gg.sched i.val = some e → e.kind ≠ k → Answers c s s))
  ∧ ∀ (i : Fin 256) (e : SchedEntry) (s : State), Due i e s → runsNow e s = true →
    let b := atItsMark i e s
    let late := markLate e (reachMark e s)
    let k := namedStep e.cmd
    (e.kind = 2 → windowOpen k b = true → Answers (.speculationWindowDeadline i) s (abandonWindow b).2)
    ∧ (e.kind = 2 → windowOpen k b = false → Answers (.speculationWindowDeadline i) s b)
    ∧ (∀ x, e.kind = 3 → stepOf k b = some x → x.phase = .opened → windowOpen k b = true →
        Answers (.stepConfirmDeadline i) s (logErr .corrected 0x55 .step 0 0 k (abandonWindow b).2))
    ∧ (e.kind = 5 → Answers (.tableVersionFlip i) s (modStep k (fun x => { x with flipReady := true }) b))
    ∧ (e.kind = 8 → e.owner = none → Entry.opcode e.cmd ≠ 0x26 → Answers (.hotSetRefresh i) s (refreshHot b e.tag.toNat))
    ∧ (∀ x, e.kind = 9 → e.owner = none → b.ram.slot = some x → Answers (.scrubSlotBegin i) s { b with ram := { b.ram with
        slot := some { x with active := true }, stack := b.ram.stack.map (fun u => { u with scrubbed := 0 }) } })
    ∧ (e.kind = 10 → e.owner = none → b.gg.state = .locked → atBottom b = false → b.pm.pendingGrant = none → b.pm.ramping = false →
        capTarget b ≤ b.pm.cap → Answers (.tensionSlotFiring i) s b)
    ∧ (e.kind = 10 → e.owner = none → b.gg.state = .locked → atBottom b = false → b.pm.pendingGrant = none → b.pm.ramping = false →
        b.pm.cap < capTarget b → let cap := min (capTarget b) (b.pm.cap + 50)
        Answers (.tensionSlotFiring i) s { b with pm := { b.pm with cap := cap, ramping := decide (cap < capTarget b) } })
    ∧ ∀ m cid, e.owner = some (m, cid) → let n : Fin 64 := Fin.ofNat 64 m
      (∀ x, e.kind = 1 → e.cmd.getLsbD 112 = false → stepOf k b = some x → x.phase = .opened → windowOpen k b = false →
          windowAbandoned k b = false → confirmHeld k b = false →
          Answers (.stepConfirmMark i) s (completeAt n (Entry.cid e.cmd) stOK 0 0 0 late (modStep k (fun x => { x with phase := .confirm }) b)))
      ∧ (e.kind = 4 → closeOk k b = true → Entry.cid e.cmd = cid → m < 64 → Answers (.stepCloseMark i) s
          (modCmd n cid (fun c => { c with effective := true, wait := none }) (closeStart k (m, cid) b)))
      ∧ (e.kind = 6 → openOk k b = true → Answers (.stepOpenMark i) s
          (complete n cid stOK 0 0 0 (disown n (Entry.cid e.cmd) (openStep k b))))
      ∧ (e.kind = 7 → windowOk k b = true → Answers (.speculationWindowOpen i) s
          (complete n cid stOK 0 0 0 (disown n (Entry.cid e.cmd) (openWindow k b))))
      ∧ (e.kind = 11 → Answers (.firmwareActivation i) s (activate n cid late b))

/-! ### Ledgers and log limits, power and monitors (21, 22, 23) -/

/-- Ledger and log timers, monitors and power control (R453, R462, R470–R490).
What rests on the model's choices: log entries 115, 116, 117, 118, 131. -/
def Obligations.PowerAndMonitors : Prop :=
  ∀ s : State, awake s = true → let p := s.pm
    (∀ (l : BitVec 16) c r, s.ty.check = some c → c.rereads.find? (fun r => r.1 == l.toNat) = some r →
        let d := deficit l.toNat s
        let rest := c.rereads.filter (fun x => x.1 != l.toNat)
        let now := fun c' : Check => ({ s with ty := { s.ty with check := some c' } } : State)
        (d = 0 → Answers (.auditReread l) s (now { c with rereads := rest }))
        ∧ (d ≠ 0 → 2 ≤ r.2 → Answers (.auditReread l) s (now { c with rereads := rest, outOf := c.outOf ++ [(l.toNat, d)] }))
        ∧ (d ≠ 0 → r.2 < 2 → Answers (.auditReread l) s
            (now { c with rereads := modFirst (fun x => x.1 == l.toNat) (fun x => (x.1, x.2 + 1)) c.rereads })))
    ∧ (∀ (k : Byte) (u : BitVec 16) l, s.er.limits.find? (fun l => l.cause == k.toNat && l.unit == u.toNat) = some l →
        let t := { s with er := { s.er with limits := s.er.limits.filter (fun x => !(x.cause == l.cause && x.unit == l.unit)) } }
        (l.last = none → Answers (.rateLimitFlush k u) s t)
        ∧ ∀ e, l.last = some e → Answers (.rateLimitFlush k u) s (noteEntry e.cls e.cause s.er.nextSeq
            (pushEntry { e with body := e.body ||| BitVec.ofNat 192 (satTo 16 l.count * 2 ^ 16) } t)))
    ∧ (∀ (m : Fin 88) (v : BitVec 16), m.val < 48 → powered s = true → monExcluded m.val s = false →
        v.toInt < tripThreshold m.val - 50 → let x := p.monitors[m]
        let sampled := fun o => modMonitor m (fun x => { x with
          value := v, valid := true, over_ := o, warn := false, releasing := x.releasing && !o }) s
        (v.toInt ≤ x.limit.toInt → Answers (.monitorSample m v) s (sampled false))
        ∧ (x.limit.toInt < v.toInt → x.over_ = false →
            Answers (.monitorSample m v) s (pmEvent 6 (logErr .corrected 0x56 .none m.val v.toNat 0 (sampled true)))))
    ∧ (∀ m : Fin 88, m.val < 47 → 0 < (p.monitors[m]).press → (p.monitors[m]).value.toInt ≤ (p.monitors[m]).limit.toInt - 30 →
        Answers (.thermalRelease m) s (modMonitor m (fun x => { x with releasing := true, ticks := 0 }) s))
    ∧ (∀ (m : Fin 48) (v : BitVec 16), s.pins.auxValid = true → powered s = true → tripThreshold m.val ≤ v.toInt →
        let t := modMonitor (Fin.ofNat 88 m.val) (fun x => { x with value := v }) s
        let u := { t with pins := { t.pins with thermTrip := true }, pm := { t.pm with cap := 450, ramping := false, ladder := 44 } }
        Answers (.thermTrip m v) s (logErr .fatal 0x58 .device m.val v.toNat 0 (if throttled t then u else pmEvent 2 u)))
    ∧ (∀ w : BitVec 16, atBottom s = false →
        let samples := (w.toNat :: p.samples).take 10
        let d := samples.sum / max 1 samples.length
        let up := { p with samples := samples, monitors := Vector.ofFn (fun m => governMonitor m.val p.monitors[m]) }
        let moved := if p.cap < d then { up with ladder := min 44 (p.ladder + 1), upTicks := 0 }
          else if 97 * p.cap < 100 * d then { up with upTicks := 0 }
          else if p.upTicks + 1 < 10 then { up with upTicks := p.upTicks + 1 } else { up with ladder := p.ladder - 1, upTicks := 0 }
        let t := { s with pm := moved }
        let u := if throttled s = false ∧ throttled t = true then pmEvent 2 t
          else if throttled s = true ∧ throttled t = false then pmEvent 3 t else t
        powered s = true → Answers (.powerControlTick w) s
          (if throttled u then { u with pm := { u.pm with throttleUs := satAdd u.pm.throttleUs 10 } } else u))
    ∧ (p.ramping = true → atBottom s = false → let cap := min (capTarget s) (p.cap + 50)
        Answers .rampStep s { s with pm := { p with cap := cap, ramping := decide (cap < capTarget s) } })
    ∧ (∀ g, p.pendingGrant = some g → tensionOn s = true → p.brake = false → g.watts ≤ p.grant → grantDue g s = true →
        let target := min g.watts p.hostCap
        Answers .grantDecrease s (pmEvent 5 { s with pm := { p with
          grant := g.watts, pendingGrant := none, cap := min p.cap target
          ramping := p.ramping && decide (min p.grant p.hostCap ≤ target) && decide (p.cap < target) } }))
    ∧ (p.brake = false → powered s = true →
        let t := { s with pins := { s.pins with pwrBrake := true }, pm := { p with brake := true, cap := 450, ramping := false, ladder := 44 } }
        Answers .pwrBrakeAssert s (pmEvent 0 (logErr .corrected 0x57 .none 0 0 0 (if throttled s then t else pmEvent 2 t))))
    ∧ (p.brake = true → tensionOn s = true → Answers .pwrBrakeDeassert s
        (pmEvent 1 { s with pins := { s.pins with pwrBrake := false }, pm := { p with brake := false } }))
    ∧ (sbServed s = true →
        (∀ w : BitVec 16, 450 ≤ w.toNat → w.toNat ≤ 1150 →
          Answers (.grantW w) s (emit (.sideband (.values [])) { s with pm := { p with grantW := w.toNat } }))
        ∧ (∀ w : BitVec 16, w.toNat < 450 ∨ 1150 < w.toNat → Answers (.grantW w) s (emit (.sideband (.error .invalidData)) s))
        ∧ ∀ b : W32, tensionOn s = true → Answers (.grantBeat b) s
            (emit (.sideband (.values [])) { s with pm := { p with grantBeat := b, pendingGrant := some ⟨p.grantW, some b⟩ } }))

/-! ### Resets, cast-on and firmware (05, 25, 27) -/

/-- The reset triggers and the end of the quiesce (R91, R98–R101, R108, R541–R548).
What rests on the model's choices: log entries 35, 36, 37, 38, 39, 40, 41. -/
def Obligations.ResetTriggers : Prop :=
  (∀ (k : ResetKind) (ph : Phase) (s : State), let t := coldState k ph s
    t.host = s.host ∧ (∀ i : Fin 4, (t.res.drives[i]).data = (s.res.drives[i]).data) ∧ t.fw.banks = s.fw.banks ∧ t.fw.slots = s.fw.slots
    ∧ t.fw.tags = s.fw.tags ∧ t.stp.durable = s.stp.durable ∧ t.pins = s.pins ∧ t.rst.phase = ph ∧ t.rst.lastReset = k
    ∧ t.mb = State.reset.mb ∧ t.gg = State.reset.gg ∧ t.th = State.reset.th ∧ t.tbl = State.reset.tbl ∧ t.ram = State.reset.ram
    ∧ t.hl = State.reset.hl ∧ t.er = State.reset.er ∧ t.pending = s.pending)
  ∧ ∀ s : State,
    let pinned := fun (k : ResetKind) (s : State) => ({ coldState k .pinWait s with pins := { s.pins with thermTrip := false } } : State)
    let quiescing := fun (k : ResetKind) (s : State) => ({ s with rst := { s.rst with
      ready := false, phase := .quiesce, lastReset := k, warm := true, warmAsked := none, report := { durableValid := granted 3 s } } } : State)
    let dropped := fun s : State => ({ dropHost (configReset s) with
      mb := { negotiated := s.mb.negotiated, features := s.mb.features } } : State)
    (s.rst.phase = .off → (s.pm.monitors[(46 : Fin 88)]).value.toInt < 1300 → (s.pm.monitors[(47 : Fin 88)]).value.toInt < 650 →
        let t := pinned .powerOn s
        Answers .powerGood s { t with
          pins := { t.pins with mainValid := true, auxValid := true, powerGood := true }
          rst := { t.rst with report := { t.rst.report with durableValid := s.rst.report.durableValid } } })
    ∧ (s.rst.phase ≠ .off → let off := { coldState .powerOn .off s with pins := { s.pins with mainValid := false, powerGood := false } }
        (∀ mv : W32, mv.toNat < 38000 ∨ 62000 < mv.toNat → Answers (.inputVoltageExcursion mv) s off)
        ∧ (∀ mv : W32, 38000 ≤ mv.toNat → mv.toNat ≤ 62000 → Answers (.inputVoltageExcursion mv) s s)
        ∧ ∀ (i : Fin 24) (mv : W32), 2 ≤ i.val → railOutside i.val s.pm.speedBin.toNat 2 mv.toNat = true → Answers (.railExcursion i mv) s off)
    ∧ (s.rst.phase ≠ .off → coldBusy s = false →
        Answers .modResetAssert s (pinned .modReset { s with pins := { s.pins with modReset := true } }))
    ∧ Answers .modResetDeassert s { s with pins := { s.pins with modReset := false } }
    ∧ Answers .warmResetDeassert s { s with pins := { s.pins with warmReset := false } }
    ∧ Answers .auxInputRemoved s { s with pins := { s.pins with auxValid := false, thermTrip := false } }
    ∧ (s.rst.phase = .up → s.hl.up = false →
        Answers .perstDeassert s (emit .linkTraining { s with pins := { s.pins with perst := false } }))
    ∧ (s.rst.phase = .up → s.hl.up = true → Answers .perstDeassert s { s with pins := { s.pins with perst := false } })
    ∧ (s.rst.phase = .up → s.rst.ready = true → s.rst.held = false → s.pins.thermTrip = false →
        Answers .warmResetAssert s (quiescing .warmPin { s with pins := { s.pins with warmReset := true } })
        ∧ Answers .perstAssert s (quiescing .perst (dropped { s with
            pins := { s.pins with perst := true }, hl := { s.hl with up := false, width := 0, rate := 0, flit := false, cxl := false } }))
        ∧ (s.hl.up = true → Answers .flr s (quiescing .flr (dropped s))))
    ∧ (∀ ns : W32, s.rst.phase = .quiesce →
        Answers (.quiesceTimeout ns) s (pinned .escalated (logErr .fatal 0x67 .device 0 0 ns.toNat s))
        ∧ ((quiesceDrain s).pu.slots ≠ [] → Answers (.quiesceComplete ns) s s)
        ∧ ((quiesceDrain s).pu.slots = [] → ∃ t, Answers (.quiesceComplete ns) s t ∧ t.rst.phase = .pinWait ∧ t.rst.hostOn = false
            ∧ t.rst.bound = false ∧ t.mb.negotiated = false ∧ t.mb.features = 0 ∧ t.er.fatal = false ∧ t.er.fatalSeq = 0
            ∧ t.ty.check = none ∧ t.sb.spdm = .initial ∧ (∀ x ∈ t.sq.inst, x.2.packets = []) ∧ t.rst.report.quiesceNs = ns.toNat))

/-- Cast-on, stage by stage (R89–R95, R106), and the trial and apply of an image (R512, R519, R520).
What rests on the model's choices: log entries 35, 42, 43, 44, 45, 46, 47, 125, 126, 138. -/
def Obligations.CastOnAndFirmware : Prop :=
  ∀ s : State,
    let r := s.rst
    let failed := fun (k : Nat) (s : State) => logErr .fatal 0x66 .device s.rst.stage k 0 { s with rst := { s.rst with failCode := k, held := true } }
    (r.phase = .pinWait → s.pins.modReset = false → (r.warm = true → s.pins.warmReset = false ∧ s.pins.perst = false) →
        let t := linkStart { s with rst := { r with phase := .up, stage := 1 } }
        (∀ b, r.warm = true → Answers (.castOnS1 b) s t)
        ∧ (∀ b, r.warm = false → b.fuseOk = false → Answers (.castOnS1 b) s (failed 4 t))
        ∧ (∀ b, r.warm = false → b.fuseOk = true →
            let m := markDamage b { t with pins := { t.pins with recovery := b.strap } }
            let m := { m with fw := { m.fw with key := keyAtBoot m } }
            (noKey m = true → Answers (.castOnS1 b) s { m with rst := { m.rst with recovery := true, failCode := 5 } })
            ∧ (noKey m = false → b.strap = true → Answers (.castOnS1 b) s { m with rst := { m.rst with recovery := true, failCode := 0 } })
            ∧ ∀ i is t', noKey m = false → b.strap = false → bootOrder m = (some (i :: is), t') → Answers (.castOnS1 b) s t'))
    ∧ (r.phase = .up → r.ready = false → r.held = false →
        (1 ≤ r.stage → Answers .stageTimeExceeded s (failed 3 s))
        ∧ (r.warm = false → r.recovery = false →
            (∀ is x i, r.stage = 1 → let t := { s with rst := { r with stage := 2 } }
              bootOrder t = (some is, x) → is.find? (fun i => bankBoots t.fw.banks[i] t) = some i →
              Answers .castOnS2 s { t with fw := { t.fw with running := i } })
            ∧ (∀ h, r.stage = 2 → h.stackSet = 0 → Answers (.castOnS3 h) s (failed 2 { s with rst := { r with stage := 3 } }))
            ∧ ∀ h, r.stage = 2 → h.stackSet ≠ 0 → ∃ t, Answers (.castOnS3 h) s t ∧ t.rst.stage = 3 ∧ t.ram.stackSet = h.stackSet
                ∧ t.ram.tiles = h.tiles ∧ t.fab.usable = h.ports ∧ t.rst.recountDone = true)
        ∧ (r.recovery = false → r.stage = 3 →
            Answers .castOnS4 s (releaseHeld { s with rst := { r with stage := 4, hostOn := true } }))
        ∧ (r.stage = 4 → r.warm = false → s.mb.ctrl.getLsbD 0 = false → (s.mb.qps[(0 : Fin 64)]).state ≠ .enabled → s.mb.doorbells = [] →
            s.mb.heldValues = [] → r.resumeAt = 0 → s.fw.fallback = none → closingOf s = none → s.sb.addr ≠ none →
            Answers .castOnS5 s { s with rst := { r with stage := 5, ready := true } }))
    ∧ (running s = true →
        (r.stage = 6 → s.mb.negotiated = true → r.recovery = false →
          Answers .castOnS7 s ((List.finRange 9).foldl portStart (grantAtS7 { s with rst := { r with stage := 7 } })))
        ∧ (∀ st k, closingOf s = some (st, k) → r.resumeAt ≠ 0 →
          Answers .closeResume s (stageBegin st.num r.resumeAt { s with rst := { r with resumeAt := 0 } }))
        ∧ (inTrial s = true → let b := s.fw.running
          Answers .selfConfirmation s (raise 74 { s with fw := { s.fw with
            banks := vmod s.fw.banks b (fun x => { x with state := 3, fallbacks := 0 }), retained := none } })
          ∧ ((s.fw.banks[otherBank b]).fallbacks = 0 →
              let banks := vmod (vmod s.fw.banks b (fun x => { x with state := 4 })) (otherBank b) (fun x => { x with fallbacks := 1 })
              Answers .trialWindowExpiry s { s with
                fw := { s.fw with banks := banks, running := otherBank b, retained := none, fallback := some (b.val, (s.fw.banks[b]).version) }
                rst := { r with ready := false, phase := .quiesce, lastReset := .warmCmd, warm := true, warmAsked := none
                                report := { durableValid := granted 3 s } } }))
        ∧ ∀ a t, s.fw.applying = some a → applyTarget a.bytes s = some t → targetRefusal a.bytes t s = none →
            let done := { s with fw := { s.fw with
              banks := vset s.fw.banks (otherBank s.fw.running) { state := 1, seqNo := 0, version := headVersion t, fallbacks := 0, image := some t }
              applying := none } }
            (a.owner = none → Answers .applyComplete s done)
            ∧ ∀ n cid, a.owner = some (n, cid) → Answers .applyComplete s
                (complete (Fin.ofNat 64 n) cid stOK 0 (BitVec.ofNat 64 a.bytes.length) 0 done))

/-! ### The sideband and attestation (06, 23, 24) -/

/-- The sideband's rows and the SPDM responder (R116, R122, R477–R507, R550).
What rests on the model's choices: log entries 29, 30, 116, 127, 128, 129. -/
def Obligations.SidebandRequests : Prop :=
  (∀ s : State, sbServed s = true →
    let tells := fun (c : Instr) (xs : List Nat) => Answers c s (emit (.sideband (.values xs)) s)
    let refuses := fun (c : Instr) => Answers c s (emit (.sideband (.error .invalidData)) s)
    (∀ a : BitVec 7, s.pm.standalone = false →
      Answers (.entdaa a) s (emit (.sideband (.values [provisionedId])) { s with sb := { s.sb with addr := some a } }))
    ∧ (∀ e : Byte, e ≠ 0 → e ≠ 0xFF →
      Answers (.setEndpointId e) s (emit (.sideband (.values [e.toNat])) { s with sb := { s.sb with eid := some e } }))
    ∧ refuses (.setEndpointId 0) ∧ tells .getEndpointId [(s.sb.eid.getD 0).toNat]
    ∧ tells .getMctpVersionSupport Config.mctpVersions ∧ tells .getMessageTypeSupport [1] ∧ tells .getTid [Config.pldmTid]
    ∧ tells .getPldmTypes [0, 2, 4]
    ∧ (∀ t ∈ [(0 : Byte), 2, 4], tells (.getPldmVersion t) [Config.pldmVersion t.toNat]
        ∧ Answers (.getPldmCommands t) s (emit (.sideband (.names (pldmCommands t.toNat))) s))
    ∧ tells .getPdrRepositoryInfo [96] ∧ tells (.getPdr 200) [200, 2] ∧ tells (.getPdr 110) [110, 1] ∧ tells (.getPdr 88) [88, 0]
    ∧ refuses (.getPdr 0) ∧ refuses (.getPdr 89)
    ∧ (∀ (i : BitVec 16) (m : Fin 88), i.toNat = m.val + 1 → monExcluded m.val s = false → (s.pm.monitors[m]).valid = true →
        tells (.getSensorReading i) [(s.pm.monitors[m]).value.toNat])
    ∧ tells (.getSensorReading 102) [s.pm.grant] ∧ tells (.getStateSensorReadings 111) [s.gg.state.code]
    ∧ tells (.getNumericEffecterValue 200) [s.pm.grantW] ∧ tells (.getNumericEffecterValue 201) [s.pm.grantBeat.toNat]
    ∧ refuses (.getNumericEffecterValue 199)
    ∧ (∀ r, Answers (.setEventReceiver r) s (emit (.sideband (.values [])) { s with sb := { s.sb with receiver := r } }))
    ∧ tells .getFruRecordTableMetadata [1, 2]
    ∧ (let t := { s with sb := { s.sb with fru := some (fruSnapshot s) } }; Answers (.getFruRecordTable true) s (emit (.sideband (.fru (fruFields (fruSnapshot s) t))) t))
    ∧ (∀ f, s.sb.fru = some f → Answers (.getFruRecordTable false) s (emit (.sideband (.fru (fruFields f s))) s))
    ∧ Answers .unsupportedSidebandRequest s (emit (.sideband (.error .unsupported)) s))
  ∧ ∀ s : State, spdmServed s = true →
    let next := fun (p : SpdmPhase) (r : SpdmReply) => emit (.spdm r) { s with sb := { s.sb with spdm := p } }
    let tells := fun (c : Instr) (r : SpdmReply) => Answers c s (emit (.spdm r) s)
    Answers .getVersion s (next .version .version)
    ∧ (s.sb.spdm = .version → Answers (.getCapabilities 0x12) s (next .capabilities .capabilities))
    ∧ (s.sb.spdm = .capabilities → Answers (.negotiateAlgorithms 0x12) s (next .negotiated .algorithms))
    ∧ (∀ ver : Byte, ver ≠ 0x12 → tells (.getCapabilities ver) (.error .versionMismatch) ∧ tells (.getDigests ver) (.error .versionMismatch)
        ∧ ∀ slot, tells (.challenge ver slot) (.error .versionMismatch))
    ∧ (s.sb.spdm ≠ .negotiated → tells (.getDigests 0x12) (.error .unexpectedRequest))
    ∧ (s.sb.spdm = .negotiated →
        let signed := { s with freeCtr := s.freeCtr + 1 }
        let sig := Config.deviceSign s.freeCtr
        tells (.getDigests 0x12) (.digests (sha384 Config.certChain))
        ∧ (∀ off len : BitVec 16, let part := (Config.certChain.drop off.toNat).take len.toNat
            tells (.getCertificate 0x12 0 off len) (if off.toNat < Config.certChain.length
              then .certificate part (Config.certChain.length - off.toNat - part.length) else .error .invalidRequest))
        ∧ (∀ (slot : Fin 8) (off len : BitVec 16), slot ≠ 0 → tells (.getCertificate 0x12 slot off len) (.error .invalidRequest))
        ∧ Answers (.challenge 0x12 0) s (emit (.spdm (.challengeAuth sig)) signed)
        ∧ tells (.getMeasurements 0x12 0xFF false) (.measurements ([1, 2, 3, 4, 5, 6].map (fun i => (i, measurement i s))) none)
        ∧ Answers (.getMeasurements 0x12 0xFF true) s
            (emit (.spdm (.measurements ([1, 2, 3, 4, 5, 6].map (fun i => (i, measurement i s))) (some sig))) signed)
        ∧ tells (.getMeasurements 0x12 7 false) (.error .invalidRequest))
    ∧ tells (.spdmUnsupportedRequest 0x12) (.error .unsupportedRequest)
    ∧ (s.hl.cxl = true → Answers .h2dSnoop s (emit .snoopIHitI s))
    ∧ Answers (.doeDiscovery 0) s (emit (.doe 0 0x0001 0 1) s) ∧ Answers (.doeDiscovery 1) s (emit (.doe 1 0x0001 1 0) s)

/-! ### The engines and the close of a step (01, 16 to 19) -/

/-- What one event of the Hook, the Matrix Unit and the adders does (R349–R416).
What rests on the model's choices: log entries 91, 92, 93, 95, 101. -/
def Obligations.Engines : Prop :=
  (∀ (tile : Fin 16) (id j : Nat) (ecc : Ecc) (x : HookOp) (s : State), awake s = true → hookOf id s = some x → x.tile = tile →
    x.accepted = true → x.ending = none → x.stall = .none → x.halted = false → x.fetched = [] → x.spec = false → x.next = j →
    j < x.count → x.skipTo ≤ j →
    (∀ rows recs u, fetchElem x j ecc s = (.rows rows recs, u) → Answers (.hookElementReturn tile id j ecc) s (hookArrive x j rows recs u))
    ∧ ∀ st xf u, fetchElem x j ecc s = (.fault st xf, u) → Answers (.hookElementReturn tile id j ecc) s
        (hookEnd { x with fetched := [], stall := .none } stPartial (BitVec.ofNat 64 j) (xf ||| BitVec.ofNat 64 st) u))
  ∧ (∀ (tile : Fin 16) (id : Nat) (x : HookOp) (w : Window) (s : State), awake s = true → hookOf id s = some x → s.stp.window = some w →
    x.tile = tile → x.spec = true → w.state = .validating → x.step = w.step → specComplete x = true →
    let u := sendValidations x s
    (∀ r ∈ x.reads, recChanged r u ≠ none) →
    Answers (.operationValidation tile id) s (hookDrive { (validated x u).1 with packetBufs := x.packetBufs } (modWindow (fun w =>
      { w with reread := w.reread + (validated x u).2, deferred := w.deferred + b2n x.halted }) u)))
  ∧ (∀ (tile : Fin 16) (x : MxOp) (s : State),
    let moved := fun y : MxOp => { y with started := true, row := x.row + 1, written := x.written + x.n, stall := .none }
    let va := (x.segs[x.memSeg]).va (x.memOff + x.row * x.memPitch)
    (MxRuns 0 tile x s → x.m = x.row + 1 →
      (∀ bs u out y l, xRead x.who x.tag.toNat va x.memRow .read s = (.data bs, u) → loadRow x bs u = some (out, y, l) →
        Answers (.load tile) s (mxFinish (moved y) (moved y) stOK 0 0
          (putMx x (moved y) (stagePut x.tile (x.cOff + x.row * x.cPitch) (mxRow x.outFmt out) u))))
      ∧ ∀ st u, xRead x.who x.tag.toNat va x.memRow .read s = (.fault st, u) → Answers (.load tile) s
          (mxFinish x x stPartial (BitVec.ofNat 64 x.row) (xfWord st x.memSeg.val false va) u))
    ∧ (MxRuns 1 tile x s → x.m = x.row + 1 → ∀ out y l u, storeRow x s = (out, y, l) →
        xStore x.who x.tag.toNat va (mxRow x.outFmt out) s = (.done, u) → Answers (.store tile) s (mxFinish (moved y) (moved y) stOK 0 0
          (putMx x (moved y) { u with tl := { u.tl with lfsr := vset u.tl.lfsr x.tile l } })))
    ∧ (MxRuns 2 tile x s → x.drain = false →
        let acc := (pairing x.aFmt x.bFmt).getD 0
        let cells := (List.range x.m).flatMap (fun i => (List.range x.n).map (fun j => (accKey x.tile i j, matmulCell x acc i j s)))
        let cnt := x.cnt.plus ((matmulInputs x s).plus { sat := (cells.filter (fun c => c.2.2)).length })
        Answers (.matmul tile) s (mxFinish x { x with cnt := cnt } stOK 0 0
          { s with tl := { s.tl with accs := cells.foldl (fun m c => kvSet m c.1 c.2.1) s.tl.accs } }))
    ∧ (MxRuns 3 tile x s → ∀ rows c l, elemRows x s = (rows, c, l) →
        let t := rows.zipIdx.foldl (fun s r => stagePut x.tile (x.cOff + r.2 * x.cPitch) (mxRow x.outFmt r.1) s) s
        Answers (.elemwise tile) s (mxFinish x { x with cnt := x.cnt.plus c, written := x.m * x.n } stOK 0 0
          { t with tl := { t.tl with lfsr := vset t.tl.lfsr x.tile l } }))
    ∧ (MxRuns 4 tile x s → Answers (.seed tile) s (mxFinish x x stOK 0 0
        { s with tl := { s.tl with lfsr := vset s.tl.lfsr x.tile (BitVec.ofNat 32 x.seed) } }))
    ∧ ∀ st xi xf, awake s = true → engines s = true → mxCurrent tile s = some x → x.ending = some (st, xi, xf) → x.stall = .none →
        let left := fun u : State => opDone x.thread x.counter st xi xf { u with tl := { u.tl with mx := u.tl.mx.erase x } }
        (x.resEn = false → Answers (.matrixOperationComplete tile) s (left s))
        ∧ ∀ u, x.resEn = true → xStore x.who x.tag.toNat ((x.segs[x.resSeg]).va x.resOff) (x.record st) s = (.done, u) →
            Answers (.matrixOperationComplete tile) s (left u))
  ∧ ∀ (src : Fin 17) (i : Nat) (u : Update) (t : Table) (pa : Nat) (s s1 : State),
    (AdderTakes false src i u t pa s s1 → t.addMode ≠ 2 →
      Answers (.floatAdd src i) s (countDone u false (dropSlot u (floatUpdate u t pa (cleanElems t pa s1) s1))))
    ∧ (AdderTakes true src i u t pa s s1 →
      Answers (.exactAdd src i) s (countDone u false (dropSlot u (exactUpdate u t pa (cleanElems t pa s1) s1))))

/-- The stages of a close, each where it ends (R19, R391–R393).
What rests on the model's choices: log entries 46, 98, 99, 100. -/
def Obligations.CloseStages : Prop :=
  ∀ (st : Step) (s : State), let n := st.num
    (Closing 1 st s →
      let gathers := s.tl.hooks.any (fun x => !x.spec && x.stepValid && x.step == n)
      let slots := s.pu.slots.any (fun u => u.step == n)
      (gathers = true → Answers .closeStage1 s s)
      ∧ (gathers = false → slots = false → Answers .closeStage1 s
          (closeWait st (some resCredits) (stageEnd n 1 st.applied st.parked s.pu.store.length (closeWait st none s)))))
    ∧ (Closing 2 st s → let drained := allAcked n s && (peerSet s).all (fun d => s.stp.drainsIn.contains (d, n))
      (drained = true → Answers .closeStage2 s (stageEnd n 2 st.acked st.inApplied st.dups (closeWait st none s)))
      ∧ (drained = false → Answers .closeStage2 s s))
    ∧ (Closing 3 st s →
      (s.rst.recountDone = true → s.ty.check = none → Answers .closeStage3 s (checkBegin (.close n) s))
      ∧ (s.rst.recountDone = false → Answers .closeStage3 s s))
    ∧ (Closing 4 st s → (∀ a ∈ s.pu.accums, a.step ≠ n) → let x := (stepOf n s).getD st
      Answers .closeStage4 s (stageEnd n 4 x.converted x.elements (s.pu.fellTables.filter (fun x => x.1 == n)).length s))
    ∧ (Closing 5 st s → s.tbl.replicas = [] → Answers .closeStage5 s (stageEnd n 5 st.rewritten 0 0 s))
    ∧ (Closing 6 st s →
      (st.flipReady = false → Answers .closeStage6 s s)
      ∧ (st.flipReady = true → s.stp.closed ≠ n → s.pu.held = [] → (∀ u ∈ s.pu.inbound, u.step ≠ n + 1) →
        let t := { s with stp := { s.stp with
          closed := n, drainsIn := s.stp.drainsIn.filter (fun d => decide (n ≤ d.2)), drainsOut := s.stp.drainsOut.filter (fun d => decide (n ≤ d.2)) } }
        Answers .closeStage6 s (stageEnd n 6 n 0 0 (modStep n (fun x => { x with heldApplied := 0 }) t))))
    ∧ (Closing 7 st s → s.tbl.tables = [] → (∀ p : Fin 4, (s.res.drives[p]).usable = false) → s.stp.heldConfirm = none →
      let t := stepJournal 2 7 n (BitVec.allOnes 64) 0 0 s
      let total := fun k => (endRecord n k t).map (fun r => (r.a.toNat, r.b.toNat, r.c.toNat))
      let r0 := ((total 1).map (fun x => BitVec.ofNat 64 (satTo 32 x.1 + satTo 32 x.2.1 * 2 ^ 32))).getD 0
      let r1 := BitVec.ofNat 64 (satTo 32 (((total 4).map (fun x => x.2.2)).getD 0) + 2 ^ 32 * b2n st.damaged)
      let u := { t with
        stp := { t.stp with live := t.stp.live.filter (fun y => y.num != n) }
        pu := { t.pu with fellRows := t.pu.fellRows.filter (fun x => x.1 != n), fellTables := t.pu.fellTables.filter (fun x => x.1 != n) }
        rst := { t.rst with closePending := false } }
      (st.closer = none → Answers .closeStage7 s u)
      ∧ ∀ m cid, st.closer = some (m, cid) → Answers .closeStage7 s (complete (Fin.ofNat 64 m) cid stOK 0 r0 r1 u))

/-! ### Translation, tiers, drives and scrubbing (10, 11, 12) -/

/-- What one event of the Translation Hub, the tiers, the drives and the Scrubber does (R41, R217–R276).
What rests on the model's choices: log entries 76, 77, 79, 80, 81, 82, 83, 85. -/
def Obligations.TiersAndScrubbing : Prop :=
  (∀ s : State, awake s = true →
    (∀ (tag : BitVec 12) (va : BitVec 52), engines s = true →
      (∀ sp level ea e, kvGet s.tx.spaces tag.toNat = some sp → lookup tag.toNat va.toNat s = some (.leaf level ea e) →
        let page := va.toNat / 2 ^ pageLog level * 2 ^ pageLog level
        let t := { s with tx := { s.tx with replayed := s.tx.replayed.filter (fun r => !(r.1 == tag.toNat && r.2 == ea)) } }
        let cached := s.tx.cache.any (fun c => c.tag == tag.toNat && c.gen == sp.gen && c.page == page)
        (cached = true → Answers (.walkComplete tag va) s t)
        ∧ (cached = false → Answers (.walkComplete tag va) s { t with tx := { t.tx with
            cache := (⟨tag.toNat, sp.gen, page, pageLog level, BitVec.ofNat 64 e⟩ :: s.tx.cache).take 65536 } }))
      ∧ ((∀ level ea e, lookup tag.toNat va.toNat s ≠ some (.leaf level ea e)) → Answers (.walkComplete tag va) s s))
    ∧ (∀ (tile : Fin 16) (purl : Bool) (k : Fin 16) x page,
        (s.tx.streams.filter (fun x => x.tile == tile && x.purl == purl))[k.val]? = some x → x.next = some page →
        let t := cacheLeaf x.tag page s
        Answers (.streamPrewalk tile purl k) s { t with tx := { t.tx with
          streams := modFirst (fun y => y == x) (fun y => { y with walked := page + 2 ^ 21 }) t.tx.streams } })
    ∧ (∀ f, s.tx.faults.find? (fun f => !f.written) = some f → s.tx.ringSet = true → s.tx.frCount < 4096 → hostReach s = true →
        let next := (s.tx.frTail + 1) % 4096
        Answers .faultRecordWrite s (raise 64 { s with
          host := cellsWrite s.host (s.tx.ringBase.toNat + 64 * s.tx.frTail) (f.bytes s.tx.frPhase)
          tx := { s.tx with
            frTail := next, frCount := s.tx.frCount + 1, frPhase := if next = 0 then !s.tx.frPhase else s.tx.frPhase
            frAge := if s.tx.faults.any (fun x => x.written) then s.tx.frAge else 0
            faults := modFirst (fun x => x.id == f.id) (fun x => { x with written := true }) s.tx.faults } }))
    ∧ ((∃ f ∈ s.tx.faults, f.written = true) →
        Answers .faultWatchdog s (raise 65 { s with tx := { s.tx with frAge := s.tx.frAge + 1000 } }))
    ∧ ((∀ f ∈ s.tx.faults, f.written = false) → Answers .faultWatchdog s s)
    ∧ (∀ (i : Nat) (k : Fin 58) x, s.tx.invals[i]? = some x → x.waiting.getLsbD k.val = true →
        let y := { x with waiting := x.waiting &&& ~~~ (BitVec.twoPow 58 k.val) }
        let t := { s with tx := { s.tx with invals := s.tx.invals.set i y, ackReceived := s.tx.ackReceived + 1 } }
        (y.waiting ≠ 0 → Answers (.invalAck i k) s t)
        ∧ (y.waiting = 0 → Answers (.invalAck i k) s (invalProgress (rereadPool x.tag x.base (x.base + x.len) t) y)))
    ∧ (∀ (id : BitVec 20) (b : BitVec 41) x d, faultInOf id.toNat b.toNat s = some x → blockDir id.toNat b.toNat s = some d →
        (∀ st, x.failed = some st → Answers (.faultInComplete id b) s (faultInFail id.toNat b.toNat st s))
        ∧ (∀ f bs, x.failed = none → x.frame = some f → (d.loc = 2 → t2Reach d.t2cxl s = true) →
            (d.loc = 3 → nvmeBusy d.t3port (.read id.toNat b.toNat) s = false) → homeBytes d s = some bs →
            let t := blockMod id.toNat b.toNat (fun d => { d with loc := 1, ref := true, busy := false, dirty := d.dirty || d.loc == 0, frame := f })
              (t1Fill f bs d.version s)
            Answers (.faultInComplete id b) s (releaseStalls (.block id.toNat b.toNat) .none { t with res := { t.res with
              faultIns := t.res.faultIns.filter (fun x => !(x.table == id.toNat && x.blk == b.toNat)) } })))
    ∧ (∀ (id : BitVec 20) (b : BitVec 41) w d, s.res.writeBacks.find? (fun w => w.table == id.toNat && w.blk == b.toNat) = some w →
        blockDir id.toNat b.toNat s = some d → w.evict = false → d.home = w.tier → (w.tier = 2 → t2Reach d.t2cxl s = true) →
        (w.tier = 3 → nvmeBusy d.t3port (.write id.toNat b.toNat) s = false) →
        Answers (.writeBackComplete id b) s (blockMod id.toNat b.toNat
          (fun d => { d with home := w.tier, dirty := false, busy := false, xfer := false, noHome := false })
          (wbDrop id.toNat b.toNat (wbJournal 2 w.tier id.toNat b.toNat (wbTarget d w.tier)
            (wbData d w.tier (t1Read (d.frame * 65536) 65536 s) s)))))
    ∧ (∀ link : Fin 4, Answers (.d2dRetryExhausted link) s (logErr .fatal 0x64 .device link.val 0 0 s)))
  ∧ (∀ (p : Fin 4) (s : State), awake s = true → let v := s.res.drives[p]
    let now := fun (f : Drive → Drive) (s : State) => ({ s with res := { s.res with drives := vmod s.res.drives p f } } : State)
    let counted := fun (kind id : Nat) (s : State) => logErr .partner 0x41 .nvmePort p.val kind id (now (fun d => { d with faults := d.faults + 1 }) s)
    let ended := fun (id : Nat) (s : State) => now (fun d => { d with cmds := d.cmds.filter (fun c => c.id != id) }) s
    (∀ (t : BitVec 20) (b : BitVec 41) (lba : W64) c, v.cmds.find? (fun c => c.use == .dealloc t.toNat b.toNat lba.toNat) = some c →
        let u := ended c.id s
        Answers (.deallocateComplete p t b lba) s { u with res := { u.res with
          journal := (⟨s.res.journalSeq, 4, 3, t.toNat, b.toNat, BitVec.ofNat 64 (p.val + 256 * lba.toNat)⟩ :: s.res.journal).take 131072
          journalSeq := s.res.journalSeq + 1 } })
    ∧ (v.usable = true →
        (∀ (id : Nat) (ok : Bool), v.faults + 1 < 16 → Answers (.nvmeCompletion p id false ok) s (counted 2 id s))
        ∧ (∀ (id : Nat) (ok : Bool), 16 ≤ v.faults + 1 → Answers (.nvmeCompletion p id false ok) s (fenceDrive p (counted 2 id s)))
        ∧ (∀ (id : Nat) (ok : Bool), v.faults + 1 < 16 → (∀ c ∈ v.cmds, c.id ≠ id) →
            Answers (.nvmeCompletion p id true ok) s (counted 1 id s))
        ∧ (∀ (id : Nat) c, v.cmds.find? (fun c => c.id == id) = some c →
            (∀ t b, c.use = .read t b ∨ c.use = .write t b → Answers (.nvmeCompletion p id true true) s (ended id s))
            ∧ (∀ n, c.use = .stepRecord n → let u := ended id s
                Answers (.nvmeCompletion p id true true) s { u with stp := { u.stp with durable := max s.stp.durable n } })
            ∧ (∀ t b, v.faults + 1 < 16 → c.use = .read t b → (nvmeFailed (.read t b) 0x22 (ended id s)).res.drives[p].faults = v.faults →
                Answers (.nvmeCompletion p id true false) s (counted 5 id (nvmeFailed (.read t b) 0x22 (ended id s)))))
        ∧ (∀ id : Nat, v.faults + 1 < 16 → (∃ c ∈ v.cmds, c.id = id ∧ c.aborted = false) →
            Answers (.nvmeCommandTimeout p id) s (counted 3 id (emit (.nvmeAbort p id)
              (now (fun d => { d with cmds := modFirst (fun c => c.id == id) (fun c => { c with aborted := true }) d.cmds }) s))))
        ∧ Answers (.controllerFatalStatus p) s (fenceDrive p s) ∧ Answers (.nvmeLinkDown p) s (fenceDrive p s))
    ∧ (v.usable = false → Answers (.controllerFatalStatus p) s s ∧ Answers (.nvmeLinkDown p) s s)
    ∧ (∀ id n, v.faults + 1 < 16 → v.cmds.find? (fun c => c.id == id && c.aborted) = some ⟨id, .stepRecord n, true⟩ →
        Answers (.nvmeAbortTimeout p id) s (counted 3 id (ended id s)))
    ∧ (v.fenced = false → v.cmds = [] → s.res.faultIns = [] → s.tbl.tables = [] →
        let u := now (fun d => { d with fenced := true, usable := false, cmds := [] }) s
        fenceDrive p s = logErr .contained 0x42 .nvmePort p.val v.faults 0 { u with rst := { u.rst with degraded := true } }))
  ∧ ∀ s : State, awake s = true →
    (∀ k : Fin 8, mayScrub k s = true → let u := s.ram.stack[k]
      let sec := stackBase k.val + u.position
      s.res.faultIns.any (fun x => x.frame == some (frameOf sec)) = false → poisoned sec s = false →
      let moved := if 2 ^ 36 ≤ u.position + 32 then { u with scrubbed := u.scrubbed + 32, position := 0, passes := u.passes + 1, late := false }
        else { u with scrubbed := u.scrubbed + 32, position := u.position + 32 }
      let counted := Config.freeValue s.freeCtr
      let t := if 2 ^ 36 ≤ u.position + 32 then
          { s with freeCtr := s.freeCtr + 1
                   ram := { s.ram with stack := vmod s.ram.stack k (fun _ => { moved with ondie := satAdd u.ondie (counted.toNat % 65536) }) } }
        else { s with ram := { s.ram with stack := vmod s.ram.stack k (fun _ => moved) } }
      Answers (.scrubRead k .clean) s t
      ∧ (reserved sec = false → Answers (.scrubRead k .corrected) s (correctedError sec t)
          ∧ Answers (.scrubRead k .uncorrectable) s (uncorrectableSector sec t)))
    ∧ (∀ (sec : BitVec 39) r bs, s.ram.repairs.find? (fun r => r.sector == sec.toNat) = some r → repairReading r s = false → r.failed = false →
        repairBytes sec.toNat r.source s = some bs →
        let t := clearPoison [sec.toNat] (setSectorVersions [sec.toNat] (frameVersion (frameOf sec.toNat) s) (t1Put sec.toNat bs s))
        let u := { t with ram := { t.ram with stack := vmod t.ram.stack (stackOf sec.toNat) (fun x => { x with repaired := satInc x.repaired }) } }
        Answers (.repairComplete sec true) s (releaseStalls (.repair sec.toNat) .none
          (logErr .corrected 0x32 .data (cellOf sec.toNat) r.source sec.toNat u)))
    ∧ (∀ x, s.ram.slot = some x → x.active = true → x.periodic = false →
        Answers .scrubSlotEnd s { s with ram := { s.ram with slot := none } })
    ∧ (∀ x, s.ram.slot = some x → x.active = true → x.periodic = true → (∀ k : Fin 8, x.quota ≤ (s.ram.stack[k]).scrubbed) →
        Answers .scrubSlotEnd s { s with ram := { s.ram with slot := some { x with active := false } } })

/-! ### Henur ports: plies, flits, timers and link state (20) -/

/-- What one event of a Henur port's link does (R420–R437).
What rests on the model's choices: log entries 103, 104, 105, 106, 108, 114. -/
def Obligations.FabricLinks : Prop :=
  (∀ (p : Fin 9) (s : State), awake s = true → let x := s.fab.ports[p]
    let now := fun (y : Port) (s : State) => ({ s with fab := { s.fab with ports := vmod s.fab.ports p (fun _ => y) } } : State)
    let out := (x.txSeq + 1024 - x.txAck) % 1024
    let replayed := fun s : State => logErr .corrected 0x20 .henurPort p.val x.peer out (emit (.replay p x.txAck out)
      (now { x with replayed := satTo 32 (x.replayed + out), replays := x.replays + 1 } s))
    (∀ (t : W64) e, running s = true → s.er.fatal = false → x.enabled = true → x.state = .training ∨ x.state = .down → x.expected = some e →
        let y := { x with state := .training, plies := 0xFF, measuring := true, echo := some t.toNat, helloSent := false }
        Answers (.portTrained p t) s (emit (.fabric p 4 (msgCtrl e 0x02 (mput 16 8 t.toNat 0) [] s)) (now { y with txSeq := (x.txSeq + 1) % 1024 } s)))
    ∧ (∀ ply : Fin 8, x.plies.getLsbD ply.val = true → let left := x.plies &&& ~~~ (BitVec.twoPow 8 ply.val)
        (x.state = .down → Answers (.plyFailure p ply) s (now { x with plies := left } s))
        ∧ (x.state = .joined ∨ x.state = .training →
            Answers (.plyFailure p ply) s (portReset p (logErr .contained 0x29 .henurPort p.val left.toNat 0 (now { x with plies := left } s)))))
    ∧ (∀ ply : Fin 8, x.plies.getLsbD ply.val = false → Answers (.plyFailure p ply) s s)
    ∧ (portLive p s = true →
        (∀ a : Fin 1024, let k := (a.val + 1 + 1024 - x.txAck) % 1024
          (1 ≤ k → k ≤ out → Answers (.linkControlFlit p a true false) s (pump p (now { x with txAck := (a.val + 1) % 1024, replays := 0 } s)))
          ∧ (k = 0 ∨ out < k → Answers (.linkControlFlit p a true false) s s
              ∧ (out ≠ 0 → x.replays < 15 → Answers (.linkControlFlit p a true true) s (replayed s))
              ∧ (out = 0 → Answers (.linkControlFlit p a true true) s s)))
        ∧ (out = 0 → Answers (.replayTimeout p) s s)
        ∧ (out ≠ 0 → x.replays < 15 → Answers (.replayTimeout p) s (replayed s))
        ∧ (out ≠ 0 → 15 ≤ x.replays → Answers (.replayTimeout p) s
            (portReset p (logErr .contained 0x29 .henurPort p.val x.plies.toNat 0 (replayed s))))
        ∧ (0 < x.unacked → Answers (.ackTimer p) s (emit (.linkCtl p ((x.rxSeq + 1023) % 1024) false) (now { x with unacked := 0 } s)))
        ∧ (x.unacked = 0 → Answers (.ackTimer p) s s)
        ∧ ∀ f : BitVec 2048, let bs := toBytes 256 f.toNat
          let h0 := ofBytes (bs.take 2)
          let nak := emit (.linkCtl p ((x.rxSeq + 1023) % 1024) true) (now { x with unacked := 0, nakSent := true } s)
          let bad := logErr .corrected 0x20 .henurPort p.val x.peer 0 nak
          let d := (bits h0 0 10 + 1024 - x.rxSeq) % 1024
          (crc32 (bs.take 252) ≠ ofBytes (bs.drop 252) → x.nakSent = false → Answers (.flit p f) s bad)
          ∧ (crc32 (bs.take 252) ≠ ofBytes (bs.drop 252) → x.nakSent = true → Answers (.flit p f) s s)
          ∧ (crc32 (bs.take 252) = ofBytes (bs.drop 252) → ofBytes ((bs.drop 2).take 2) / 2 ^ 10 % 4 = 0 → bits h0 10 3 < 7 →
              (0 < d → d < 512 → x.nakSent = false → Answers (.flit p f) s bad)
              ∧ (512 ≤ d → Answers (.flit p f) s s)
              ∧ (∀ v : Fin 5, d = 0 → bits h0 10 3 = v.val → h0.testBit 13 = false → x.state = .joined →
                  x.rxHeld[v] + x.rxFreed[v] < ownAlloc[v] → x.unacked < 63 →
                  Answers (.flit p f) s (now { x with rxSeq := (x.rxSeq + 1) % 1024, nakSent := false, unacked := x.unacked + 1
                                                      rxHeld := vmod x.rxHeld v (· + 1) } s))))
    ∧ (x.state = .joined → (∃ v : Fin 5, x.rxFreed[v] ≠ 0) →
        let rest := (List.finRange 5).foldl (fun h v => mput (12 + 2 * v.val) 2 x.rxFreed[v] h) 0
        Answers (.creditReturnTimer p) s (sendOn p 4 false (mhead 0x06 x.peer 48 rest s) (now { x with rxFreed := Vector.replicate 5 0 } s)))
    ∧ (x.state ≠ .joined → ∀ t : W64, Answers (.creditReturnTimer p) s s ∧ Answers (.linkDelayMeasure p t) s s)
    ∧ (x.state = .joined → ∀ t : W64, Answers (.linkDelayMeasure p t) s
        (sendOn p 4 false (msgCtrl x.peer 0x02 (mput 16 8 t.toNat 0) [] s) (now { x with echo := some t.toNat } s))))
  ∧ ∀ s : State, awake s = true →
    (let aged := s.fab.ports.map (fun x => if x.state = .joined then
        (if 10 ≤ x.periods + 1 then { x with periods := 0, inSecond := 0 } else { x with periods := x.periods + 1 }) else x)
      let t := { s with fab := { s.fab with ports := aged } }
      (running s = true → s.er.fatal = false → Answers .linkStatePeriod s
        ((List.finRange 9).foldl (fun s q => if (s.fab.ports[q]).state = .joined
            then sendOn q 4 false (ownLinkState (s.fab.ports[q]).peer s) s else s)
          { t with fab := { t.fab with lsSeq := (s.fab.lsSeq + 1) % 2 ^ 32 } }))
      ∧ (running s = false ∨ s.er.fatal = true → Answers .linkStatePeriod s t))
    ∧ (∀ o : Fin 512, Answers (.originTimeout o) s { s with fab := { s.fab with links := s.fab.links.filter (fun l => l.origin != o.val) } })
    ∧ (computeRoutes s = s.fab.routes → Answers .routeRecompute s s)
    ∧ (running s = true → s.er.fatal = false → computeRoutes s ≠ s.fab.routes → s.fab.gets = [] → s.pu.store = [] →
        Answers .routeRecompute s { s with fab := { s.fab with routes := computeRoutes s } })
    ∧ (∀ (req : W32) g, getOf req.toNat s = some g → g.wait = .answer → engines s = true →
        let t := modCount g.dest (fun c => { c with retired := c.retired + 1 }) s
        let h := { g with req := s.fab.nextReq, wait := .answer }
        Answers (.rowGetReissue req) s (transmitGet h { t with fab := { t.fab with
          nextReq := (s.fab.nextReq + 1) % 2 ^ 32, gets := modFirst (fun x => x.req == g.req) (fun _ => h) s.fab.gets } }))
    ∧ (∀ req : W32, getOf req.toNat s = none → Answers (.rowGetReissue req) s s)
    ∧ (operational s = true → s.er.fatal = false →
        (∀ (d : Fin 512) (q : W64) r p, storedUpdate d.val q.toNat s = some r → r.wait = .answer → routeTo r.upd.dest s = some p →
          Answers (.rowAddResend d q) s (sendOn p r.upd.cls.val true (msgRowAdd r.upd r.upd.cls.val s) s))
        ∧ (∀ d : Fin 512, (∀ g ∈ s.fab.gets, ¬(g.wait = .lag ∧ g.dest = d.val)) →
            (∀ r, s.pu.store.filter (fun r => r.wait == .lag && r.upd.dest == d.val) = [r] → ownerOf r.upd.table r.upd.row s = d.val →
              Answers (.notOwnerResend d) s (sendUpdate r.upd (waitStored r.upd .answer s)))
            ∧ (s.pu.store.filter (fun r => r.wait == .lag && r.upd.dest == d.val) = [] → Answers (.notOwnerResend d) s s)))

/-! ### Henur messages (18, 20) -/

/-- What the arrival of one message does (R69–R71, R380–R392, R425–R441, R516).
What rests on the model's choices: log entries 57, 92, 104, 105, 107, 110, 111, 133, 134, 135. -/
def Obligations.FabricMessages : Prop :=
  ∀ (p : Fin 9) (vc : Fin 5) (m : List Byte) (s : State),
    let x := s.fab.ports[p]
    let u := consumeMsg p vc m s
    let now := fun (f : Port → Port) (s : State) => ({ s with fab := { s.fab with ports := vmod s.fab.ports p f } } : State)
    let lost := now (fun y => { y with dropped := satTo 32 (y.dropped + 1) }) u
    (Arrives 0x01 p vc m s → let g := parseGet p m
      let v := modCount g.src (fun c => { c with inGets := c.inGets + 1 }) u
      let reply := fun (bs : List Byte) (s : State) =>
        (sendRouted g.src g.cls.val false bs (modCount g.src (fun c => { c with inAnswered := c.inAnswered + 1 }) s)).2
      (tableOf g.table v = none → Answers (.rowGet p vc m) s (reply (msgRowNak g.src 0x06 false g.req 0 v) v))
      ∧ ∀ t slot, tableOf g.table v = some t → t.slot g.row = some slot → ownerOf g.table g.row v = ownDev v →
        ((mfld m 16 1).testBit 3 = true →
          let track := mfld m 32 6
          let current := track != 0 && track == v.stp.mapStep
            && primaryCurrent g.table (t.slotBlock slot) (mfld m 40 3 % 2 ^ 23) (BitVec.ofNat 7 (mfld m 17 1)) v
          Answers (.rowGet p vc m) s (reply (msgRowData g.src g.req true current (BitVec.ofNat 7 (mfld m 17 1)).toNat
            (mfld m 40 3 % 2 ^ 23) track [] v) v))
        ∧ ∀ d bs, (mfld m 16 1).testBit 3 = false → rowCopies g.table g.row 0 v = [] → blockDir g.table (t.slotBlock slot) v = some d → d.abset = 0 →
          ∀ w, xRead ⟨3, p.val, g.cls.val, g.spec, 0⟩ t.tag.toNat (t.slotVa slot) t.rowBytes .read v = (.data bs, w) →
            let f := ((blockDir g.table (t.slotBlock slot) w).map (·.frame)).getD 0
            Answers (.rowGet p vc m) s (reply (dataMsg g f (frameVersion f w) bs w) w))
    ∧ (Arrives 0x02 p vc m s → let req := mfld m 12 4
      (getOf req u = none → Answers (.rowData p vc m) s lost)
      ∧ ∀ g t h, getOf req u = some g → g.validate = false → (mfld m 16 1).testBit 0 = false → tableOf g.table u = some t →
        (m.drop 48).length = t.rowBytes → hookOf g.op u = some h →
        let v := modCount g.dest (fun c => { c with answered := c.answered + 1 }) u
        let done := fun y : RowGet => { y with result := some (.row (m.drop 48)), version := mfld m 17 1, track := mfld m 24 6, frame := mfld m 18 3 }
        Answers (.rowData p vc m) s { v with fab := { v.fab with gets := modFirst (fun y => y.req == g.req) done v.fab.gets } })
    ∧ (Arrives 0x05 p vc m s → let reason := mfld m 12 1
      let ref := mfld m 16 8
      (mfld m 13 1 % 2 = 0 → getOf ref u = none → Answers (.rowNak p vc m) s lost)
      ∧ (∀ g h, mfld m 13 1 % 2 = 0 → getOf ref u = some g → g.validate = false → reason = 0x08 ∨ reason = 0x09 → hookOf g.op u = some h →
        let v := modCount g.dest (fun c => { c with answered := c.answered + 1 }) u
        let st := if reason = 0x08 then stPoison else stTranslation
        let done := fun y : RowGet => { y with result := some (.fault st), version := 0, track := 0, frame := 0 }
        Answers (.rowNak p vc m) s { v with fab := { v.fab with gets := modFirst (fun y => y.req == g.req) done v.fab.gets } })
      ∧ ∀ r, mfld m 13 1 % 2 = 1 → storedUpdate (mSrc m) ref u = some r → reason = 0x06 ∨ reason = 0x07 →
        Answers (.rowNak p vc m) s (refuseUpdate r.upd reason { u with pu := { u.pu with
          store := u.pu.store.filter (fun y => !(y.upd.dest == r.upd.dest && y.upd.seqNo == r.upd.seqNo)) } }))
    ∧ (Arrives 0x04 p vc m s →
      (storedUpdate (mSrc m) (mfld m 12 8) u = none → Answers (.rowAck p vc m) s lost)
      ∧ ∀ r, storedUpdate (mSrc m) (mfld m 12 8) u = some r → let a := r.upd
        Answers (.rowAck p vc m) s (modCount a.dest (fun c => { c with acked := c.acked + 1 }) (modStep a.step (fun y => { y with acked := y.acked + 1 })
          { u with pu := { u.pu with store := u.pu.store.filter (fun y => !(y.upd.dest == a.dest && y.upd.seqNo == a.seqNo)) } })))
    ∧ (Arrives 0x03 p vc m s → (peerSet u).contains (mSrc m) = true →
      let src := mSrc m
      let table := mfld m 26 3 % 2 ^ 20
      let a := parseAdd p m (((tableOf table u).map (·.width)).getD 0) u
      let sq := a.seqNo.toNat
      let r := senderOf src u
      let v := modCount src (fun c => { c with received := c.received + 1 }) u
      (r.seen sq = true →
        let w := modStep a.step (fun y => { y with dups := y.dups + 1 })
          (modCount src (fun c => { c with received := c.received + 1, dups := c.dups + 1 }) u)
        Answers (.rowAddReceived p vc m) s (sendRouted src vc.val false (msgRowAck src a.seqNo true false w) w).2)
      ∧ (r.seen sq = false → sq < r.next.toNat + 1024 → (∀ y ∈ u.pu.inbound ++ u.pu.held, ¬(y.sender = src ∧ y.seqNo = a.seqNo)) →
        ∀ t slot, tableOf table u = some t → t.addMode ≠ 0 → addLengthOk t m = true → ownerOf a.table a.row u = ownDev u → t.slot a.row = some slot →
        (tagVerdict a.step u = .hold → Answers (.rowAddReceived p vc m) s { v with pu := { v.pu with held := v.pu.held ++ [a] } })
        ∧ (tagVerdict a.step u = .now → Answers (.rowAddReceived p vc m) s (applyInbound a v))))
    ∧ (Arrives 0x06 p 4 m s → let ret := fun v : Fin 5 => mfld m (12 + 2 * v.val) 2
      (∀ v : Fin 5, x.avail[v] + ret v ≤ x.alloc[v]) → Answers (.credit p m) s
        (pump p (now (fun y => { y with avail := Vector.ofFn (fun v => y.avail[v] + ret v) }) s)))
    ∧ (Arrives 0x07 p 4 m s → let w := consumeMsg p 4 m s
      let hops := mfld m 28 1 % 16
      ∀ (since : W64) (off : Int),
      (s.gg.cfg.upstream ≠ p.val → Answers (.gauge p m since off) s
        (portViol p 0x28 (mfld m 12 8) (now (fun y => { y with gaugeIgnored := satTo 8 (y.gaugeIgnored + 1) }) w)))
      ∧ (s.gg.cfg.upstream = p.val → hops = 15 → Answers (.gauge p m since off) s (logErr .partner 0x2E .henurPort p.val 16 (mfld m 12 8) w))
      ∧ (s.gg.cfg.upstream = p.val → hops < 15 → let heard := { w with gg := { w.gg with root := BitVec.ofNat 9 (mfld m 30 2), hops := hops } }
        let e := gaugeEdge 1 true (BitVec.ofNat 64 (mfld m 12 8)) since.toNat off heard
        (s.gg.cfg.source = 0 → Answers (.gauge p m since off) s heard)
        ∧ (s.gg.cfg.source = 1 → let delay := mfld m 24 4 + (Config.freeValue e.freeCtr).toNat + (e.fab.ports[p]).delay
            Answers (.gauge p m since off) s
              (gaugeSend (mfld m 12 8) (mfld m 20 2) delay (hops + 1) (mfld m 30 2) { e with freeCtr := e.freeCtr + 1 }))))
    ∧ (Arrives 0x08 p 4 m s → let w := consumeMsg p 4 m s
      let drop := { w with fw := { w.fw with dropped := satTo 32 (w.fw.dropped + 1) } }
      let first : Staging := ⟨true, (m.drop 48).length, m.drop 48, false, true, 0, 0, [m]⟩
      (s.fw.chainUp ≠ p.val → Answers (.fwChunk p m) s (portViol p 0x27 0 w))
      ∧ (s.fw.chainUp = p.val → running s = false → Answers (.fwChunk p m) s drop)
      ∧ (s.fw.chainUp = p.val → s.fw.staging = none → mfld m 12 4 ≠ 0 → Answers (.fwChunk p m) s drop)
      ∧ (s.fw.chainUp = p.val → running s = true → s.fw.staging = none → s.fw.applying = none → (idleBank s).state ≠ 1 → activatePending s = false →
          inTrial s = false → mfld m 12 4 = 0 → (m.drop 48).length < 4096 → mfld m 20 1 % 2 = 0 →
          Answers (.fwChunk p m) s { w with fw := { w.fw with staging := some first } }))
    ∧ (awake s = true → mType m = 0x09 → wellFormedMsg 4 m = true →
      let sub := mfld m 12 1
      let w := consumeMsg p 4 m s
      (sub = 0x01 → running s = true → x.state = .training →
        (x.helloSent = false → Answers (.hello p m) s (now (fun y => { y with peerHello := some m }) s))
        ∧ (x.helloSent = true → let peer := mfld m 16 2 % 512
          (s.fab.id ≠ none → peer ≠ ownDev s → x.expected = none ∨ x.expected = some peer → allocOk (helloAlloc m) = true →
            Answers (.hello p m) s (joinPort p m s))
          ∧ (s.fab.id = none ∨ peer = ownDev s ∨ (∃ e, x.expected = some e ∧ e ≠ peer) → Answers (.hello p m) s (refuseJoin p peer s))))
      ∧ (x.state = .joined →
        (∀ hold : W64, sub = 0x02 → Answers (.echoReq p m hold) s
          (sendOn p 4 false (msgCtrl (mSrc m) 0x03 (mput 16 8 (mfld m 16 8) (mput 24 8 hold.toNat 0)) [] w) w))
        ∧ (∀ t : W64, sub = 0x03 → let trip := (t - BitVec.ofNat 64 (mfld m 16 8) - BitVec.ofNat 64 (mfld m 24 8)).toNat
          ((w.fab.ports[p]).echo = some (mfld m 16 8) → Answers (.echoRsp p m t) s
            (now (fun y => { y with echo := none, rtt := satTo 32 (trip / 1000), delay := trip / 2, measuring := false }) w))
          ∧ ((w.fab.ports[p]).echo ≠ some (mfld m 16 8) → Answers (.echoRsp p m t) s w))
        ∧ (sub = 0x04 → let o := mfld m 16 2 % 512
          (o = ownDev w → Answers (.linkState p m) s w)
          ∧ (o ≠ ownDev w → (∀ l ∈ w.fab.links, l.origin ≠ o) → mHops m % 64 = 63 →
              let peers := (List.range 9).map (fun i =>
                let k := mfld m (48 + 2 * i) 2
                if k.testBit 15 then some (k % 512) else none)
              Answers (.linkState p m) s { w with fab := { w.fab with
                links := w.fab.links.filter (fun l => l.origin != o) ++ [⟨o, mfld m 20 4, peers⟩] } }))
        ∧ (sub = 0x05 → mDst m = ownDev s → let n := mfld m 16 6
          (s.stp.closed < n → w.stp.drainsIn.contains (mSrc m, n) = false → w.stp.drainsOut.contains (mSrc m, n) = false →
            Answers (.drain p m) s { w with stp := { w.stp with drainsIn := w.stp.drainsIn ++ [(mSrc m, n)] } })
          ∧ (w.stp.drainsIn.contains (mSrc m, n) = true → w.stp.drainsOut.contains (mSrc m, n) = false → Answers (.drain p m) s w))
        ∧ (sub = 0x06 →
          (mfld m 16 1 ≠ 0 → Answers (.leave p m) s (portDown p (dropArrivals p s)))
          ∧ (mfld m 16 1 = 0 → s.stp.left.contains x.peer = false →
              Answers (.leave p m) s (portDown p (dropArrivals p { s with stp := { s.stp with left := s.stp.left ++ [x.peer] } }))))))
    ∧ (awake s = true → x.state = .joined → wellFormedMsg vc m = true →
      (routedType m = true → mDst m ≠ ownDev s → ∀ q, routeTo (mDst m) u = some q → mHops m % 64 < 63 →
        Answers (.messageForward p vc m) s (sendOn q vc.val (isRequest m) (m.take 1 ++ [BitVec.ofNat 8 (mHops m % 64 + 1)] ++ m.drop 2) u))
      ∧ (routedType m = false ∨ mDst m = ownDev s → Answers (.messageForward p vc m) s s))
end

