-- ==== Sys2Proof/Laws/Lists.lean ====
section
/-! SUPPORT. Laws of the vectors, key-value lists and small list helpers of Machine/Bits.lean. -/

namespace Sys2Proof.Machine

open Sys2Proof

@[simp] theorem vmod_self {α : Type} {n : Nat} (v : Vector α n) (i : Fin n) (f : α → α) : (vmod v i f)[i] = f v[i] := by
  simp [vmod]

@[simp] theorem vset_self {α : Type} {n : Nat} (v : Vector α n) (i : Fin n) (x : α) : (vset v i x)[i] = x := by simp [vset]

theorem vmod_other {α : Type} {n : Nat} (v : Vector α n) {i j : Fin n} (f : α → α) (h : i ≠ j) : (vmod v i f)[j] = v[j] := by
  have : i.val ≠ j.val := fun e => h (Fin.ext e)
  simp [vmod, this]

theorem vset_other {α : Type} {n : Nat} (v : Vector α n) {i j : Fin n} (x : α) (h : i ≠ j) : (vset v i x)[j] = v[j] := by
  have : i.val ≠ j.val := fun e => h (Fin.ext e)
  simp [vset, this]

/-- A change of one element is its replacement by the changed one. -/
theorem vmod_const {α : Type} {n : Nat} (v : Vector α n) (i : Fin n) (f : α → α) : vmod v i f = vmod v i (fun _ => f v[i]) := by
  simp [vmod]

/-- Two changes of one element are one. -/
theorem vmod_vmod {α : Type} {n : Nat} (v : Vector α n) (i : Fin n) (f g : α → α) :
    vmod (vmod v i f) i g = vmod v i (fun x => g (f x)) := by
  simp [vmod]

@[simp] theorem kvGet_kvSet {α : Type} (m : List (Nat × α)) (a : Nat) (v : α) : kvGet (kvSet m a v) a = some v := by
  induction m with
  | nil => simp [kvSet, kvGet]
  | cons x m ih =>
    simp only [kvSet]
    split
    · simp [kvGet]
    · split
      · simp [kvGet]
      · next h => simp [kvGet, Ne.symm h, ih]

theorem kvGet_kvSet_other {α : Type} (m : List (Nat × α)) {a b : Nat} (v : α) (h : a ≠ b) : kvGet (kvSet m a v) b = kvGet m b := by
  induction m with
  | nil => simp [kvSet, kvGet, h]
  | cons x m ih =>
    simp only [kvSet]
    split
    · simp [kvGet, h]
    · split
      · next e => subst e; simp [kvGet, h]
      · simp [kvGet, ih]

@[simp] theorem kvSet_kvSet {α : Type} (m : List (Nat × α)) (a : Nat) (v w : α) : kvSet (kvSet m a v) a w = kvSet m a w := by
  induction m with
  | nil => simp [kvSet]
  | cons x m ih =>
    simp only [kvSet]
    split
    · simp [kvSet]
    · split
      · simp [kvSet]
      · next h1 h2 => simp [kvSet, h1, h2, ih]

theorem kvGet_kvErase_other {α : Type} (m : List (Nat × α)) {a b : Nat} (h : a ≠ b) : kvGet (kvErase m a) b = kvGet m b := by
  induction m with
  | nil => rfl
  | cons x m ih =>
    simp only [kvErase]
    split
    · next e => subst e; simp [kvGet, h]
    · simp [kvGet, ih]

@[simp] theorem kvMod_kvSet {α : Type} (m : List (Nat × α)) (a : Nat) (v : α) (f : α → α) : kvMod (kvSet m a v) a f = kvSet m a (f v) := by
  simp [kvMod]

@[simp] theorem modFirst_id {α : Type} (p : α → Bool) (l : List α) : modFirst p (fun x => x) l = l := by
  induction l with
  | nil => rfl
  | cons x l ih => simp only [modFirst, ih]; split <;> rfl

/-- With no element to change, nothing changes. -/
theorem modFirst_none {α : Type} {p : α → Bool} (f : α → α) {l : List α} (h : ∀ x ∈ l, p x = false) : modFirst p f l = l := by
  induction l with
  | nil => rfl
  | cons x l ih =>
    have hx := h x (by simp)
    simp [modFirst, hx, ih (fun y hy => h y (by simp [hy]))]

/-- A fold keeps what its step keeps. -/
theorem foldl_keeps {α β : Type} (P : β → Prop) (f : β → α → β) (h : ∀ b a, P b → P (f b a)) (l : List α) (b : β) (hb : P b) : P (l.foldl f b) := by
  induction l generalizing b with
  | nil => exact hb
  | cons a l ih => exact ih _ (h _ _ hb)

/-- A fold over a list leaves what its step never changes. -/
theorem foldl_same {α β γ : Type} (g : β → γ) (f : β → α → β) (h : ∀ b a, g (f b a) = g b) (l : List α) (b : β) : g (l.foldl f b) = g b := by
  induction l generalizing b with
  | nil => rfl
  | cons a l ih => exact (ih _).trans (h _ _)

@[simp] theorem bits_zero (x n : Nat) : bits x 0 n = x % 2 ^ n := by simp [bits]

theorem bits_div (x a n : Nat) : bits x a n = x / 2 ^ a % 2 ^ n := by simp [bits, Nat.shiftRight_eq_div_pow]

theorem bits_lt (x a n : Nat) : bits x a n < 2 ^ n := Nat.mod_lt _ (Nat.two_pow_pos n)

theorem toBytes_length (n x : Nat) : (toBytes n x).length = n := by
  induction n generalizing x with
  | zero => rfl
  | succ n ih => simp [toBytes, ih]

theorem ofBytes_lt (bs : List Byte) : ofBytes bs < 256 ^ bs.length := by
  induction bs with
  | nil => simp [ofBytes]
  | cons b bs ih =>
    have := b.isLt
    simp only [ofBytes, List.length_cons, Nat.pow_succ]
    omega

/-- The little-endian bytes of a number spell it (R4). -/
theorem ofBytes_toBytes (n x : Nat) : ofBytes (toBytes n x) = x % 256 ^ n := by
  induction n generalizing x with
  | zero => simp [toBytes, ofBytes, Nat.mod_one]
  | succ n ih =>
    have h : (256 : Nat) ^ (n + 1) = 256 * 256 ^ n := by rw [Nat.pow_succ, Nat.mul_comm]
    rw [toBytes, ofBytes, ih, h, Nat.mod_mul]
    simp

end Sys2Proof.Machine
end

