-- ==== Sys2Proof/Laws/Mem.lean ====
section
/-! SUPPORT. Laws of the byte memories: every operation keeps the canonical form, a read after a write gives the value written, and a
write leaves every other address alone. -/

namespace Sys2Proof.Machine

open Sys2Proof

theorem wfFrom_le {lo lo' : Nat} (h : lo' ≤ lo) {m : List Host.Cell} (w : wfFrom lo m = true) : wfFrom lo' m = true := by
  cases m with
  | nil => rfl
  | cons x m =>
    simp only [wfFrom, Bool.and_eq_true, decide_eq_true_eq] at w ⊢
    exact ⟨⟨by omega, w.1.2⟩, w.2⟩

/-- An empty memory is canonical. -/
theorem wf_nil : Memory.wf [] = true := rfl

theorem wfFrom_kvSet {m : List Host.Cell} {lo a : Nat} {b : Byte} (w : wfFrom lo m = true) (h : lo ≤ a) (hb : b ≠ blankByte) :
    wfFrom lo (kvSet m a b) = true := by
  induction m generalizing lo with
  | nil => simp [kvSet, wfFrom, h, hb]
  | cons x m ih =>
    simp only [wfFrom, Bool.and_eq_true, decide_eq_true_eq] at w
    simp only [kvSet]
    split
    · next e => simp only [wfFrom, Bool.and_eq_true, decide_eq_true_eq]; exact ⟨⟨h, hb⟩, ⟨by omega, w.1.2⟩, w.2⟩
    · split
      · next e => subst e; simp only [wfFrom, Bool.and_eq_true, decide_eq_true_eq]; exact ⟨⟨h, hb⟩, w.2⟩
      · next e1 e2 => simp only [wfFrom, Bool.and_eq_true, decide_eq_true_eq]; exact ⟨⟨w.1.1, w.1.2⟩, ih w.2 (by omega)⟩

theorem wfFrom_kvErase {m : List Host.Cell} {lo a : Nat} (w : wfFrom lo m = true) : wfFrom lo (kvErase m a) = true := by
  induction m generalizing lo with
  | nil => rfl
  | cons x m ih =>
    simp only [wfFrom, Bool.and_eq_true, decide_eq_true_eq] at w
    simp only [kvErase]
    split
    · exact wfFrom_le (by omega) w.2
    · simp only [wfFrom, Bool.and_eq_true, decide_eq_true_eq]; exact ⟨⟨w.1.1, w.1.2⟩, ih w.2⟩

theorem wfFrom_filter {m : List Host.Cell} {lo : Nat} (p : Host.Cell → Bool) (w : wfFrom lo m = true) : wfFrom lo (m.filter p) = true := by
  induction m generalizing lo with
  | nil => rfl
  | cons x m ih =>
    simp only [wfFrom, Bool.and_eq_true, decide_eq_true_eq] at w
    simp only [List.filter_cons]
    split
    · simp only [wfFrom, Bool.and_eq_true, decide_eq_true_eq]; exact ⟨⟨w.1.1, w.1.2⟩, ih w.2⟩
    · exact wfFrom_le (by omega) (ih w.2)

/-- A byte written keeps the canonical form. -/
theorem wf_cellSet {m : List Host.Cell} (w : Memory.wf m = true) (a : Nat) (b : Byte) : Memory.wf (cellSet m a b) = true := by
  unfold cellSet
  split
  · exact wfFrom_kvErase w
  · next h => exact wfFrom_kvSet w (Nat.zero_le _) h

/-- Bytes written keep the canonical form. -/
theorem wf_cellsWrite {m : List Host.Cell} (w : Memory.wf m = true) (a : Nat) (bs : List Byte) : Memory.wf (cellsWrite m a bs) = true := by
  induction bs generalizing m a with
  | nil => exact w
  | cons b bs ih => exact ih (wf_cellSet w a b) (a + 1)

/-- A range blanked keeps the canonical form. -/
theorem wf_cellsBlank {m : List Host.Cell} (w : Memory.wf m = true) (a n : Nat) : Memory.wf (cellsBlank m a n) = true := wfFrom_filter _ w

theorem kvGet_below {m : List Host.Cell} {lo a : Nat} (w : wfFrom lo m = true) (h : a < lo) : kvGet m a = none := by
  induction m generalizing lo with
  | nil => rfl
  | cons x m ih =>
    simp only [wfFrom, Bool.and_eq_true, decide_eq_true_eq] at w
    have : x.1 ≠ a := by omega
    simp only [kvGet, this, if_false]
    exact ih w.2 (by omega)

theorem kvGet_kvErase {m : List Host.Cell} {lo a : Nat} (w : wfFrom lo m = true) : kvGet (kvErase m a) a = none := by
  induction m generalizing lo with
  | nil => rfl
  | cons x m ih =>
    simp only [wfFrom, Bool.and_eq_true, decide_eq_true_eq] at w
    simp only [kvErase]
    split
    · next e => exact kvGet_below w.2 (by omega)
    · next e => simp only [kvGet, e, if_false]; exact ih w.2

/-- A byte written reads back. -/
theorem cellGet_cellSet {m : List Host.Cell} (w : Memory.wf m = true) (a : Nat) (b : Byte) : cellGet (cellSet m a b) a = b := by
  unfold cellGet cellSet
  split
  · next e => rw [kvGet_kvErase w, e]; rfl
  · rw [kvGet_kvSet]; rfl

/-- A byte written leaves every other address alone. -/
theorem cellGet_cellSet_other (m : List Host.Cell) {a c : Nat} (b : Byte) (h : a ≠ c) : cellGet (cellSet m a b) c = cellGet m c := by
  unfold cellGet cellSet
  split
  · rw [kvGet_kvErase_other m h]
  · rw [kvGet_kvSet_other m b h]

/-- Bytes written leave every address outside them alone. -/
theorem cellGet_cellsWrite_other (m : List Host.Cell) (a : Nat) (bs : List Byte) {c : Nat} (h : c < a ∨ a + bs.length ≤ c) :
    cellGet (cellsWrite m a bs) c = cellGet m c := by
  induction bs generalizing m a with
  | nil => rfl
  | cons b bs ih =>
    simp only [List.length_cons] at h
    rw [cellsWrite, ih _ (a + 1) (by omega), cellGet_cellSet_other m b (by omega)]

/-- Bytes written read back. -/
theorem cellGet_cellsWrite {m : List Host.Cell} (w : Memory.wf m = true) (a : Nat) (bs : List Byte) (i : Nat) (h : i < bs.length) :
    cellGet (cellsWrite m a bs) (a + i) = bs[i] := by
  induction bs generalizing m a i with
  | nil => simp at h
  | cons b bs ih =>
    cases i with
    | zero =>
      rw [cellsWrite, cellGet_cellsWrite_other _ (a + 1) bs (by omega)]
      exact cellGet_cellSet w a b
    | succ i =>
      have h' : i < bs.length := by simpa using h
      rw [cellsWrite, show a + (i + 1) = a + 1 + i by omega, ih (wf_cellSet w a b) (a + 1) i h']
      rfl

/-- A blanked range reads blank. -/
theorem cellGet_cellsBlank (m : List Host.Cell) (a n : Nat) {c : Nat} (h : a ≤ c ∧ c < a + n) : cellGet (cellsBlank m a n) c = blankByte := by
  unfold cellGet cellsBlank
  induction m with
  | nil => rfl
  | cons x m ih =>
    simp only [List.filter_cons]
    split
    · next e =>
      have : x.1 ≠ c := by rintro rfl; simp [h] at e
      simp only [kvGet, this, if_false]; exact ih
    · exact ih

/-- What lies outside a blanked range stays. -/
theorem cellGet_cellsBlank_other (m : List Host.Cell) (a n : Nat) {c : Nat} (h : c < a ∨ a + n ≤ c) :
    cellGet (cellsBlank m a n) c = cellGet m c := by
  unfold cellGet cellsBlank
  induction m with
  | nil => rfl
  | cons x m ih =>
    simp only [List.filter_cons]
    split
    · simp only [kvGet]; split
      · rfl
      · exact ih
    · next e =>
      have : x.1 ≠ c := by rintro rfl; simp at e; omega
      simp only [kvGet, this, if_false]; exact ih

theorem cellsRead_length (m : List Host.Cell) (a n : Nat) : (cellsRead m a n).length = n := by
  induction n generalizing a with
  | zero => rfl
  | succ n ih => simp [cellsRead, ih]

/-- Bytes written to a whole range read back. -/
theorem cellsRead_cellsWrite {m : List Host.Cell} (w : Memory.wf m = true) (a : Nat) (bs : List Byte) :
    cellsRead (cellsWrite m a bs) a bs.length = bs := by
  have get : ∀ (k : Nat) (c : List Host.Cell) (b : Nat) (i : Nat) (h : i < (cellsRead c b k).length), (cellsRead c b k)[i] = cellGet c (b + i) := by
    intro k
    induction k with
    | zero => intro c b i h; simp [cellsRead] at h
    | succ k ih =>
      intro c b i h
      cases i with
      | zero => rfl
      | succ i =>
        simp only [cellsRead, List.getElem_cons_succ]
        rw [ih, show b + (i + 1) = b + 1 + i by omega]
  refine List.ext_getElem (cellsRead_length ..) fun i h h' => ?_
  rw [get, cellGet_cellsWrite w a bs i h']

end Sys2Proof.Machine
end

