-- ==== Sys2Proof/Laws/State.lean ====
section
/-! SUPPORT. One law per field of State per named update: what the update leaves alone, and what it changes. Each is true by rfl. -/

namespace Sys2Proof.Machine

open Sys2Proof

/-! ### emit -/

@[simp] theorem emit_pending (o : Output) (s : State) : (emit o s).pending = s.pending := rfl
@[simp] theorem emit_out (o : Output) (s : State) : (emit o s).out = o :: s.out := rfl
@[simp] theorem emit_freeCtr (o : Output) (s : State) : (emit o s).freeCtr = s.freeCtr := rfl
@[simp] theorem emit_host (o : Output) (s : State) : (emit o s).host = s.host := rfl
@[simp] theorem emit_hostBad (o : Output) (s : State) : (emit o s).hostBad = s.hostBad := rfl
@[simp] theorem emit_er (o : Output) (s : State) : (emit o s).er = s.er := rfl
@[simp] theorem emit_gg (o : Output) (s : State) : (emit o s).gg = s.gg := rfl
@[simp] theorem emit_hl (o : Output) (s : State) : (emit o s).hl = s.hl := rfl
@[simp] theorem emit_mb (o : Output) (s : State) : (emit o s).mb = s.mb := rfl
@[simp] theorem emit_rst (o : Output) (s : State) : (emit o s).rst = s.rst := rfl
@[simp] theorem emit_pins (o : Output) (s : State) : (emit o s).pins = s.pins := rfl
@[simp] theorem emit_sq (o : Output) (s : State) : (emit o s).sq = s.sq := rfl
@[simp] theorem emit_ram (o : Output) (s : State) : (emit o s).ram = s.ram := rfl
@[simp] theorem emit_tbl (o : Output) (s : State) : (emit o s).tbl = s.tbl := rfl
@[simp] theorem emit_tx (o : Output) (s : State) : (emit o s).tx = s.tx := rfl
@[simp] theorem emit_res (o : Output) (s : State) : (emit o s).res = s.res := rfl
@[simp] theorem emit_th (o : Output) (s : State) : (emit o s).th = s.th := rfl
@[simp] theorem emit_tl (o : Output) (s : State) : (emit o s).tl = s.tl := rfl
@[simp] theorem emit_pu (o : Output) (s : State) : (emit o s).pu = s.pu := rfl
@[simp] theorem emit_stp (o : Output) (s : State) : (emit o s).stp = s.stp := rfl
@[simp] theorem emit_fab (o : Output) (s : State) : (emit o s).fab = s.fab := rfl
@[simp] theorem emit_pm (o : Output) (s : State) : (emit o s).pm = s.pm := rfl
@[simp] theorem emit_fw (o : Output) (s : State) : (emit o s).fw = s.fw := rfl
@[simp] theorem emit_ty (o : Output) (s : State) : (emit o s).ty = s.ty := rfl
@[simp] theorem emit_sb (o : Output) (s : State) : (emit o s).sb = s.sb := rfl

/-! ### modRst -/

@[simp] theorem modRst_pending (f : ResetUnit → ResetUnit) (s : State) : (modRst f s).pending = s.pending := rfl
@[simp] theorem modRst_out (f : ResetUnit → ResetUnit) (s : State) : (modRst f s).out = s.out := rfl
@[simp] theorem modRst_freeCtr (f : ResetUnit → ResetUnit) (s : State) : (modRst f s).freeCtr = s.freeCtr := rfl
@[simp] theorem modRst_host (f : ResetUnit → ResetUnit) (s : State) : (modRst f s).host = s.host := rfl
@[simp] theorem modRst_hostBad (f : ResetUnit → ResetUnit) (s : State) : (modRst f s).hostBad = s.hostBad := rfl
@[simp] theorem modRst_er (f : ResetUnit → ResetUnit) (s : State) : (modRst f s).er = s.er := rfl
@[simp] theorem modRst_gg (f : ResetUnit → ResetUnit) (s : State) : (modRst f s).gg = s.gg := rfl
@[simp] theorem modRst_hl (f : ResetUnit → ResetUnit) (s : State) : (modRst f s).hl = s.hl := rfl
@[simp] theorem modRst_mb (f : ResetUnit → ResetUnit) (s : State) : (modRst f s).mb = s.mb := rfl
@[simp] theorem modRst_rst (f : ResetUnit → ResetUnit) (s : State) : (modRst f s).rst = f s.rst := rfl
@[simp] theorem modRst_pins (f : ResetUnit → ResetUnit) (s : State) : (modRst f s).pins = s.pins := rfl
@[simp] theorem modRst_sq (f : ResetUnit → ResetUnit) (s : State) : (modRst f s).sq = s.sq := rfl
@[simp] theorem modRst_ram (f : ResetUnit → ResetUnit) (s : State) : (modRst f s).ram = s.ram := rfl
@[simp] theorem modRst_tbl (f : ResetUnit → ResetUnit) (s : State) : (modRst f s).tbl = s.tbl := rfl
@[simp] theorem modRst_tx (f : ResetUnit → ResetUnit) (s : State) : (modRst f s).tx = s.tx := rfl
@[simp] theorem modRst_res (f : ResetUnit → ResetUnit) (s : State) : (modRst f s).res = s.res := rfl
@[simp] theorem modRst_th (f : ResetUnit → ResetUnit) (s : State) : (modRst f s).th = s.th := rfl
@[simp] theorem modRst_tl (f : ResetUnit → ResetUnit) (s : State) : (modRst f s).tl = s.tl := rfl
@[simp] theorem modRst_pu (f : ResetUnit → ResetUnit) (s : State) : (modRst f s).pu = s.pu := rfl
@[simp] theorem modRst_stp (f : ResetUnit → ResetUnit) (s : State) : (modRst f s).stp = s.stp := rfl
@[simp] theorem modRst_fab (f : ResetUnit → ResetUnit) (s : State) : (modRst f s).fab = s.fab := rfl
@[simp] theorem modRst_pm (f : ResetUnit → ResetUnit) (s : State) : (modRst f s).pm = s.pm := rfl
@[simp] theorem modRst_fw (f : ResetUnit → ResetUnit) (s : State) : (modRst f s).fw = s.fw := rfl
@[simp] theorem modRst_ty (f : ResetUnit → ResetUnit) (s : State) : (modRst f s).ty = s.ty := rfl
@[simp] theorem modRst_sb (f : ResetUnit → ResetUnit) (s : State) : (modRst f s).sb = s.sb := rfl

/-! ### modTbl -/

@[simp] theorem modTbl_pending (f : TableUnit → TableUnit) (s : State) : (modTbl f s).pending = s.pending := rfl
@[simp] theorem modTbl_out (f : TableUnit → TableUnit) (s : State) : (modTbl f s).out = s.out := rfl
@[simp] theorem modTbl_freeCtr (f : TableUnit → TableUnit) (s : State) : (modTbl f s).freeCtr = s.freeCtr := rfl
@[simp] theorem modTbl_host (f : TableUnit → TableUnit) (s : State) : (modTbl f s).host = s.host := rfl
@[simp] theorem modTbl_hostBad (f : TableUnit → TableUnit) (s : State) : (modTbl f s).hostBad = s.hostBad := rfl
@[simp] theorem modTbl_er (f : TableUnit → TableUnit) (s : State) : (modTbl f s).er = s.er := rfl
@[simp] theorem modTbl_gg (f : TableUnit → TableUnit) (s : State) : (modTbl f s).gg = s.gg := rfl
@[simp] theorem modTbl_hl (f : TableUnit → TableUnit) (s : State) : (modTbl f s).hl = s.hl := rfl
@[simp] theorem modTbl_mb (f : TableUnit → TableUnit) (s : State) : (modTbl f s).mb = s.mb := rfl
@[simp] theorem modTbl_rst (f : TableUnit → TableUnit) (s : State) : (modTbl f s).rst = s.rst := rfl
@[simp] theorem modTbl_pins (f : TableUnit → TableUnit) (s : State) : (modTbl f s).pins = s.pins := rfl
@[simp] theorem modTbl_sq (f : TableUnit → TableUnit) (s : State) : (modTbl f s).sq = s.sq := rfl
@[simp] theorem modTbl_ram (f : TableUnit → TableUnit) (s : State) : (modTbl f s).ram = s.ram := rfl
@[simp] theorem modTbl_tbl (f : TableUnit → TableUnit) (s : State) : (modTbl f s).tbl = f s.tbl := rfl
@[simp] theorem modTbl_tx (f : TableUnit → TableUnit) (s : State) : (modTbl f s).tx = s.tx := rfl
@[simp] theorem modTbl_res (f : TableUnit → TableUnit) (s : State) : (modTbl f s).res = s.res := rfl
@[simp] theorem modTbl_th (f : TableUnit → TableUnit) (s : State) : (modTbl f s).th = s.th := rfl
@[simp] theorem modTbl_tl (f : TableUnit → TableUnit) (s : State) : (modTbl f s).tl = s.tl := rfl
@[simp] theorem modTbl_pu (f : TableUnit → TableUnit) (s : State) : (modTbl f s).pu = s.pu := rfl
@[simp] theorem modTbl_stp (f : TableUnit → TableUnit) (s : State) : (modTbl f s).stp = s.stp := rfl
@[simp] theorem modTbl_fab (f : TableUnit → TableUnit) (s : State) : (modTbl f s).fab = s.fab := rfl
@[simp] theorem modTbl_pm (f : TableUnit → TableUnit) (s : State) : (modTbl f s).pm = s.pm := rfl
@[simp] theorem modTbl_fw (f : TableUnit → TableUnit) (s : State) : (modTbl f s).fw = s.fw := rfl
@[simp] theorem modTbl_ty (f : TableUnit → TableUnit) (s : State) : (modTbl f s).ty = s.ty := rfl
@[simp] theorem modTbl_sb (f : TableUnit → TableUnit) (s : State) : (modTbl f s).sb = s.sb := rfl

/-! ### modTx -/

@[simp] theorem modTx_pending (f : TxUnit → TxUnit) (s : State) : (modTx f s).pending = s.pending := rfl
@[simp] theorem modTx_out (f : TxUnit → TxUnit) (s : State) : (modTx f s).out = s.out := rfl
@[simp] theorem modTx_freeCtr (f : TxUnit → TxUnit) (s : State) : (modTx f s).freeCtr = s.freeCtr := rfl
@[simp] theorem modTx_host (f : TxUnit → TxUnit) (s : State) : (modTx f s).host = s.host := rfl
@[simp] theorem modTx_hostBad (f : TxUnit → TxUnit) (s : State) : (modTx f s).hostBad = s.hostBad := rfl
@[simp] theorem modTx_er (f : TxUnit → TxUnit) (s : State) : (modTx f s).er = s.er := rfl
@[simp] theorem modTx_gg (f : TxUnit → TxUnit) (s : State) : (modTx f s).gg = s.gg := rfl
@[simp] theorem modTx_hl (f : TxUnit → TxUnit) (s : State) : (modTx f s).hl = s.hl := rfl
@[simp] theorem modTx_mb (f : TxUnit → TxUnit) (s : State) : (modTx f s).mb = s.mb := rfl
@[simp] theorem modTx_rst (f : TxUnit → TxUnit) (s : State) : (modTx f s).rst = s.rst := rfl
@[simp] theorem modTx_pins (f : TxUnit → TxUnit) (s : State) : (modTx f s).pins = s.pins := rfl
@[simp] theorem modTx_sq (f : TxUnit → TxUnit) (s : State) : (modTx f s).sq = s.sq := rfl
@[simp] theorem modTx_ram (f : TxUnit → TxUnit) (s : State) : (modTx f s).ram = s.ram := rfl
@[simp] theorem modTx_tbl (f : TxUnit → TxUnit) (s : State) : (modTx f s).tbl = s.tbl := rfl
@[simp] theorem modTx_tx (f : TxUnit → TxUnit) (s : State) : (modTx f s).tx = f s.tx := rfl
@[simp] theorem modTx_res (f : TxUnit → TxUnit) (s : State) : (modTx f s).res = s.res := rfl
@[simp] theorem modTx_th (f : TxUnit → TxUnit) (s : State) : (modTx f s).th = s.th := rfl
@[simp] theorem modTx_tl (f : TxUnit → TxUnit) (s : State) : (modTx f s).tl = s.tl := rfl
@[simp] theorem modTx_pu (f : TxUnit → TxUnit) (s : State) : (modTx f s).pu = s.pu := rfl
@[simp] theorem modTx_stp (f : TxUnit → TxUnit) (s : State) : (modTx f s).stp = s.stp := rfl
@[simp] theorem modTx_fab (f : TxUnit → TxUnit) (s : State) : (modTx f s).fab = s.fab := rfl
@[simp] theorem modTx_pm (f : TxUnit → TxUnit) (s : State) : (modTx f s).pm = s.pm := rfl
@[simp] theorem modTx_fw (f : TxUnit → TxUnit) (s : State) : (modTx f s).fw = s.fw := rfl
@[simp] theorem modTx_ty (f : TxUnit → TxUnit) (s : State) : (modTx f s).ty = s.ty := rfl
@[simp] theorem modTx_sb (f : TxUnit → TxUnit) (s : State) : (modTx f s).sb = s.sb := rfl

/-! ### modRes -/

@[simp] theorem modRes_pending (f : Residency → Residency) (s : State) : (modRes f s).pending = s.pending := rfl
@[simp] theorem modRes_out (f : Residency → Residency) (s : State) : (modRes f s).out = s.out := rfl
@[simp] theorem modRes_freeCtr (f : Residency → Residency) (s : State) : (modRes f s).freeCtr = s.freeCtr := rfl
@[simp] theorem modRes_host (f : Residency → Residency) (s : State) : (modRes f s).host = s.host := rfl
@[simp] theorem modRes_hostBad (f : Residency → Residency) (s : State) : (modRes f s).hostBad = s.hostBad := rfl
@[simp] theorem modRes_er (f : Residency → Residency) (s : State) : (modRes f s).er = s.er := rfl
@[simp] theorem modRes_gg (f : Residency → Residency) (s : State) : (modRes f s).gg = s.gg := rfl
@[simp] theorem modRes_hl (f : Residency → Residency) (s : State) : (modRes f s).hl = s.hl := rfl
@[simp] theorem modRes_mb (f : Residency → Residency) (s : State) : (modRes f s).mb = s.mb := rfl
@[simp] theorem modRes_rst (f : Residency → Residency) (s : State) : (modRes f s).rst = s.rst := rfl
@[simp] theorem modRes_pins (f : Residency → Residency) (s : State) : (modRes f s).pins = s.pins := rfl
@[simp] theorem modRes_sq (f : Residency → Residency) (s : State) : (modRes f s).sq = s.sq := rfl
@[simp] theorem modRes_ram (f : Residency → Residency) (s : State) : (modRes f s).ram = s.ram := rfl
@[simp] theorem modRes_tbl (f : Residency → Residency) (s : State) : (modRes f s).tbl = s.tbl := rfl
@[simp] theorem modRes_tx (f : Residency → Residency) (s : State) : (modRes f s).tx = s.tx := rfl
@[simp] theorem modRes_res (f : Residency → Residency) (s : State) : (modRes f s).res = f s.res := rfl
@[simp] theorem modRes_th (f : Residency → Residency) (s : State) : (modRes f s).th = s.th := rfl
@[simp] theorem modRes_tl (f : Residency → Residency) (s : State) : (modRes f s).tl = s.tl := rfl
@[simp] theorem modRes_pu (f : Residency → Residency) (s : State) : (modRes f s).pu = s.pu := rfl
@[simp] theorem modRes_stp (f : Residency → Residency) (s : State) : (modRes f s).stp = s.stp := rfl
@[simp] theorem modRes_fab (f : Residency → Residency) (s : State) : (modRes f s).fab = s.fab := rfl
@[simp] theorem modRes_pm (f : Residency → Residency) (s : State) : (modRes f s).pm = s.pm := rfl
@[simp] theorem modRes_fw (f : Residency → Residency) (s : State) : (modRes f s).fw = s.fw := rfl
@[simp] theorem modRes_ty (f : Residency → Residency) (s : State) : (modRes f s).ty = s.ty := rfl
@[simp] theorem modRes_sb (f : Residency → Residency) (s : State) : (modRes f s).sb = s.sb := rfl

/-! ### modTh -/

@[simp] theorem modTh_pending (f : ThreadUnit → ThreadUnit) (s : State) : (modTh f s).pending = s.pending := rfl
@[simp] theorem modTh_out (f : ThreadUnit → ThreadUnit) (s : State) : (modTh f s).out = s.out := rfl
@[simp] theorem modTh_freeCtr (f : ThreadUnit → ThreadUnit) (s : State) : (modTh f s).freeCtr = s.freeCtr := rfl
@[simp] theorem modTh_host (f : ThreadUnit → ThreadUnit) (s : State) : (modTh f s).host = s.host := rfl
@[simp] theorem modTh_hostBad (f : ThreadUnit → ThreadUnit) (s : State) : (modTh f s).hostBad = s.hostBad := rfl
@[simp] theorem modTh_er (f : ThreadUnit → ThreadUnit) (s : State) : (modTh f s).er = s.er := rfl
@[simp] theorem modTh_gg (f : ThreadUnit → ThreadUnit) (s : State) : (modTh f s).gg = s.gg := rfl
@[simp] theorem modTh_hl (f : ThreadUnit → ThreadUnit) (s : State) : (modTh f s).hl = s.hl := rfl
@[simp] theorem modTh_mb (f : ThreadUnit → ThreadUnit) (s : State) : (modTh f s).mb = s.mb := rfl
@[simp] theorem modTh_rst (f : ThreadUnit → ThreadUnit) (s : State) : (modTh f s).rst = s.rst := rfl
@[simp] theorem modTh_pins (f : ThreadUnit → ThreadUnit) (s : State) : (modTh f s).pins = s.pins := rfl
@[simp] theorem modTh_sq (f : ThreadUnit → ThreadUnit) (s : State) : (modTh f s).sq = s.sq := rfl
@[simp] theorem modTh_ram (f : ThreadUnit → ThreadUnit) (s : State) : (modTh f s).ram = s.ram := rfl
@[simp] theorem modTh_tbl (f : ThreadUnit → ThreadUnit) (s : State) : (modTh f s).tbl = s.tbl := rfl
@[simp] theorem modTh_tx (f : ThreadUnit → ThreadUnit) (s : State) : (modTh f s).tx = s.tx := rfl
@[simp] theorem modTh_res (f : ThreadUnit → ThreadUnit) (s : State) : (modTh f s).res = s.res := rfl
@[simp] theorem modTh_th (f : ThreadUnit → ThreadUnit) (s : State) : (modTh f s).th = f s.th := rfl
@[simp] theorem modTh_tl (f : ThreadUnit → ThreadUnit) (s : State) : (modTh f s).tl = s.tl := rfl
@[simp] theorem modTh_pu (f : ThreadUnit → ThreadUnit) (s : State) : (modTh f s).pu = s.pu := rfl
@[simp] theorem modTh_stp (f : ThreadUnit → ThreadUnit) (s : State) : (modTh f s).stp = s.stp := rfl
@[simp] theorem modTh_fab (f : ThreadUnit → ThreadUnit) (s : State) : (modTh f s).fab = s.fab := rfl
@[simp] theorem modTh_pm (f : ThreadUnit → ThreadUnit) (s : State) : (modTh f s).pm = s.pm := rfl
@[simp] theorem modTh_fw (f : ThreadUnit → ThreadUnit) (s : State) : (modTh f s).fw = s.fw := rfl
@[simp] theorem modTh_ty (f : ThreadUnit → ThreadUnit) (s : State) : (modTh f s).ty = s.ty := rfl
@[simp] theorem modTh_sb (f : ThreadUnit → ThreadUnit) (s : State) : (modTh f s).sb = s.sb := rfl

/-! ### modTl -/

@[simp] theorem modTl_pending (f : TileUnit → TileUnit) (s : State) : (modTl f s).pending = s.pending := rfl
@[simp] theorem modTl_out (f : TileUnit → TileUnit) (s : State) : (modTl f s).out = s.out := rfl
@[simp] theorem modTl_freeCtr (f : TileUnit → TileUnit) (s : State) : (modTl f s).freeCtr = s.freeCtr := rfl
@[simp] theorem modTl_host (f : TileUnit → TileUnit) (s : State) : (modTl f s).host = s.host := rfl
@[simp] theorem modTl_hostBad (f : TileUnit → TileUnit) (s : State) : (modTl f s).hostBad = s.hostBad := rfl
@[simp] theorem modTl_er (f : TileUnit → TileUnit) (s : State) : (modTl f s).er = s.er := rfl
@[simp] theorem modTl_gg (f : TileUnit → TileUnit) (s : State) : (modTl f s).gg = s.gg := rfl
@[simp] theorem modTl_hl (f : TileUnit → TileUnit) (s : State) : (modTl f s).hl = s.hl := rfl
@[simp] theorem modTl_mb (f : TileUnit → TileUnit) (s : State) : (modTl f s).mb = s.mb := rfl
@[simp] theorem modTl_rst (f : TileUnit → TileUnit) (s : State) : (modTl f s).rst = s.rst := rfl
@[simp] theorem modTl_pins (f : TileUnit → TileUnit) (s : State) : (modTl f s).pins = s.pins := rfl
@[simp] theorem modTl_sq (f : TileUnit → TileUnit) (s : State) : (modTl f s).sq = s.sq := rfl
@[simp] theorem modTl_ram (f : TileUnit → TileUnit) (s : State) : (modTl f s).ram = s.ram := rfl
@[simp] theorem modTl_tbl (f : TileUnit → TileUnit) (s : State) : (modTl f s).tbl = s.tbl := rfl
@[simp] theorem modTl_tx (f : TileUnit → TileUnit) (s : State) : (modTl f s).tx = s.tx := rfl
@[simp] theorem modTl_res (f : TileUnit → TileUnit) (s : State) : (modTl f s).res = s.res := rfl
@[simp] theorem modTl_th (f : TileUnit → TileUnit) (s : State) : (modTl f s).th = s.th := rfl
@[simp] theorem modTl_tl (f : TileUnit → TileUnit) (s : State) : (modTl f s).tl = f s.tl := rfl
@[simp] theorem modTl_pu (f : TileUnit → TileUnit) (s : State) : (modTl f s).pu = s.pu := rfl
@[simp] theorem modTl_stp (f : TileUnit → TileUnit) (s : State) : (modTl f s).stp = s.stp := rfl
@[simp] theorem modTl_fab (f : TileUnit → TileUnit) (s : State) : (modTl f s).fab = s.fab := rfl
@[simp] theorem modTl_pm (f : TileUnit → TileUnit) (s : State) : (modTl f s).pm = s.pm := rfl
@[simp] theorem modTl_fw (f : TileUnit → TileUnit) (s : State) : (modTl f s).fw = s.fw := rfl
@[simp] theorem modTl_ty (f : TileUnit → TileUnit) (s : State) : (modTl f s).ty = s.ty := rfl
@[simp] theorem modTl_sb (f : TileUnit → TileUnit) (s : State) : (modTl f s).sb = s.sb := rfl

/-! ### modPurl -/

@[simp] theorem modPurl_pending (f : PurlUnit → PurlUnit) (s : State) : (modPurl f s).pending = s.pending := rfl
@[simp] theorem modPurl_out (f : PurlUnit → PurlUnit) (s : State) : (modPurl f s).out = s.out := rfl
@[simp] theorem modPurl_freeCtr (f : PurlUnit → PurlUnit) (s : State) : (modPurl f s).freeCtr = s.freeCtr := rfl
@[simp] theorem modPurl_host (f : PurlUnit → PurlUnit) (s : State) : (modPurl f s).host = s.host := rfl
@[simp] theorem modPurl_hostBad (f : PurlUnit → PurlUnit) (s : State) : (modPurl f s).hostBad = s.hostBad := rfl
@[simp] theorem modPurl_er (f : PurlUnit → PurlUnit) (s : State) : (modPurl f s).er = s.er := rfl
@[simp] theorem modPurl_gg (f : PurlUnit → PurlUnit) (s : State) : (modPurl f s).gg = s.gg := rfl
@[simp] theorem modPurl_hl (f : PurlUnit → PurlUnit) (s : State) : (modPurl f s).hl = s.hl := rfl
@[simp] theorem modPurl_mb (f : PurlUnit → PurlUnit) (s : State) : (modPurl f s).mb = s.mb := rfl
@[simp] theorem modPurl_rst (f : PurlUnit → PurlUnit) (s : State) : (modPurl f s).rst = s.rst := rfl
@[simp] theorem modPurl_pins (f : PurlUnit → PurlUnit) (s : State) : (modPurl f s).pins = s.pins := rfl
@[simp] theorem modPurl_sq (f : PurlUnit → PurlUnit) (s : State) : (modPurl f s).sq = s.sq := rfl
@[simp] theorem modPurl_ram (f : PurlUnit → PurlUnit) (s : State) : (modPurl f s).ram = s.ram := rfl
@[simp] theorem modPurl_tbl (f : PurlUnit → PurlUnit) (s : State) : (modPurl f s).tbl = s.tbl := rfl
@[simp] theorem modPurl_tx (f : PurlUnit → PurlUnit) (s : State) : (modPurl f s).tx = s.tx := rfl
@[simp] theorem modPurl_res (f : PurlUnit → PurlUnit) (s : State) : (modPurl f s).res = s.res := rfl
@[simp] theorem modPurl_th (f : PurlUnit → PurlUnit) (s : State) : (modPurl f s).th = s.th := rfl
@[simp] theorem modPurl_tl (f : PurlUnit → PurlUnit) (s : State) : (modPurl f s).tl = s.tl := rfl
@[simp] theorem modPurl_pu (f : PurlUnit → PurlUnit) (s : State) : (modPurl f s).pu = f s.pu := rfl
@[simp] theorem modPurl_stp (f : PurlUnit → PurlUnit) (s : State) : (modPurl f s).stp = s.stp := rfl
@[simp] theorem modPurl_fab (f : PurlUnit → PurlUnit) (s : State) : (modPurl f s).fab = s.fab := rfl
@[simp] theorem modPurl_pm (f : PurlUnit → PurlUnit) (s : State) : (modPurl f s).pm = s.pm := rfl
@[simp] theorem modPurl_fw (f : PurlUnit → PurlUnit) (s : State) : (modPurl f s).fw = s.fw := rfl
@[simp] theorem modPurl_ty (f : PurlUnit → PurlUnit) (s : State) : (modPurl f s).ty = s.ty := rfl
@[simp] theorem modPurl_sb (f : PurlUnit → PurlUnit) (s : State) : (modPurl f s).sb = s.sb := rfl

/-! ### modStp -/

@[simp] theorem modStp_pending (f : StepUnit → StepUnit) (s : State) : (modStp f s).pending = s.pending := rfl
@[simp] theorem modStp_out (f : StepUnit → StepUnit) (s : State) : (modStp f s).out = s.out := rfl
@[simp] theorem modStp_freeCtr (f : StepUnit → StepUnit) (s : State) : (modStp f s).freeCtr = s.freeCtr := rfl
@[simp] theorem modStp_host (f : StepUnit → StepUnit) (s : State) : (modStp f s).host = s.host := rfl
@[simp] theorem modStp_hostBad (f : StepUnit → StepUnit) (s : State) : (modStp f s).hostBad = s.hostBad := rfl
@[simp] theorem modStp_er (f : StepUnit → StepUnit) (s : State) : (modStp f s).er = s.er := rfl
@[simp] theorem modStp_gg (f : StepUnit → StepUnit) (s : State) : (modStp f s).gg = s.gg := rfl
@[simp] theorem modStp_hl (f : StepUnit → StepUnit) (s : State) : (modStp f s).hl = s.hl := rfl
@[simp] theorem modStp_mb (f : StepUnit → StepUnit) (s : State) : (modStp f s).mb = s.mb := rfl
@[simp] theorem modStp_rst (f : StepUnit → StepUnit) (s : State) : (modStp f s).rst = s.rst := rfl
@[simp] theorem modStp_pins (f : StepUnit → StepUnit) (s : State) : (modStp f s).pins = s.pins := rfl
@[simp] theorem modStp_sq (f : StepUnit → StepUnit) (s : State) : (modStp f s).sq = s.sq := rfl
@[simp] theorem modStp_ram (f : StepUnit → StepUnit) (s : State) : (modStp f s).ram = s.ram := rfl
@[simp] theorem modStp_tbl (f : StepUnit → StepUnit) (s : State) : (modStp f s).tbl = s.tbl := rfl
@[simp] theorem modStp_tx (f : StepUnit → StepUnit) (s : State) : (modStp f s).tx = s.tx := rfl
@[simp] theorem modStp_res (f : StepUnit → StepUnit) (s : State) : (modStp f s).res = s.res := rfl
@[simp] theorem modStp_th (f : StepUnit → StepUnit) (s : State) : (modStp f s).th = s.th := rfl
@[simp] theorem modStp_tl (f : StepUnit → StepUnit) (s : State) : (modStp f s).tl = s.tl := rfl
@[simp] theorem modStp_pu (f : StepUnit → StepUnit) (s : State) : (modStp f s).pu = s.pu := rfl
@[simp] theorem modStp_stp (f : StepUnit → StepUnit) (s : State) : (modStp f s).stp = f s.stp := rfl
@[simp] theorem modStp_fab (f : StepUnit → StepUnit) (s : State) : (modStp f s).fab = s.fab := rfl
@[simp] theorem modStp_pm (f : StepUnit → StepUnit) (s : State) : (modStp f s).pm = s.pm := rfl
@[simp] theorem modStp_fw (f : StepUnit → StepUnit) (s : State) : (modStp f s).fw = s.fw := rfl
@[simp] theorem modStp_ty (f : StepUnit → StepUnit) (s : State) : (modStp f s).ty = s.ty := rfl
@[simp] theorem modStp_sb (f : StepUnit → StepUnit) (s : State) : (modStp f s).sb = s.sb := rfl

/-! ### modFab -/

@[simp] theorem modFab_pending (f : Fabric → Fabric) (s : State) : (modFab f s).pending = s.pending := rfl
@[simp] theorem modFab_out (f : Fabric → Fabric) (s : State) : (modFab f s).out = s.out := rfl
@[simp] theorem modFab_freeCtr (f : Fabric → Fabric) (s : State) : (modFab f s).freeCtr = s.freeCtr := rfl
@[simp] theorem modFab_host (f : Fabric → Fabric) (s : State) : (modFab f s).host = s.host := rfl
@[simp] theorem modFab_hostBad (f : Fabric → Fabric) (s : State) : (modFab f s).hostBad = s.hostBad := rfl
@[simp] theorem modFab_er (f : Fabric → Fabric) (s : State) : (modFab f s).er = s.er := rfl
@[simp] theorem modFab_gg (f : Fabric → Fabric) (s : State) : (modFab f s).gg = s.gg := rfl
@[simp] theorem modFab_hl (f : Fabric → Fabric) (s : State) : (modFab f s).hl = s.hl := rfl
@[simp] theorem modFab_mb (f : Fabric → Fabric) (s : State) : (modFab f s).mb = s.mb := rfl
@[simp] theorem modFab_rst (f : Fabric → Fabric) (s : State) : (modFab f s).rst = s.rst := rfl
@[simp] theorem modFab_pins (f : Fabric → Fabric) (s : State) : (modFab f s).pins = s.pins := rfl
@[simp] theorem modFab_sq (f : Fabric → Fabric) (s : State) : (modFab f s).sq = s.sq := rfl
@[simp] theorem modFab_ram (f : Fabric → Fabric) (s : State) : (modFab f s).ram = s.ram := rfl
@[simp] theorem modFab_tbl (f : Fabric → Fabric) (s : State) : (modFab f s).tbl = s.tbl := rfl
@[simp] theorem modFab_tx (f : Fabric → Fabric) (s : State) : (modFab f s).tx = s.tx := rfl
@[simp] theorem modFab_res (f : Fabric → Fabric) (s : State) : (modFab f s).res = s.res := rfl
@[simp] theorem modFab_th (f : Fabric → Fabric) (s : State) : (modFab f s).th = s.th := rfl
@[simp] theorem modFab_tl (f : Fabric → Fabric) (s : State) : (modFab f s).tl = s.tl := rfl
@[simp] theorem modFab_pu (f : Fabric → Fabric) (s : State) : (modFab f s).pu = s.pu := rfl
@[simp] theorem modFab_stp (f : Fabric → Fabric) (s : State) : (modFab f s).stp = s.stp := rfl
@[simp] theorem modFab_fab (f : Fabric → Fabric) (s : State) : (modFab f s).fab = f s.fab := rfl
@[simp] theorem modFab_pm (f : Fabric → Fabric) (s : State) : (modFab f s).pm = s.pm := rfl
@[simp] theorem modFab_fw (f : Fabric → Fabric) (s : State) : (modFab f s).fw = s.fw := rfl
@[simp] theorem modFab_ty (f : Fabric → Fabric) (s : State) : (modFab f s).ty = s.ty := rfl
@[simp] theorem modFab_sb (f : Fabric → Fabric) (s : State) : (modFab f s).sb = s.sb := rfl

/-! ### modPm -/

@[simp] theorem modPm_pending (f : PowerUnit → PowerUnit) (s : State) : (modPm f s).pending = s.pending := rfl
@[simp] theorem modPm_out (f : PowerUnit → PowerUnit) (s : State) : (modPm f s).out = s.out := rfl
@[simp] theorem modPm_freeCtr (f : PowerUnit → PowerUnit) (s : State) : (modPm f s).freeCtr = s.freeCtr := rfl
@[simp] theorem modPm_host (f : PowerUnit → PowerUnit) (s : State) : (modPm f s).host = s.host := rfl
@[simp] theorem modPm_hostBad (f : PowerUnit → PowerUnit) (s : State) : (modPm f s).hostBad = s.hostBad := rfl
@[simp] theorem modPm_er (f : PowerUnit → PowerUnit) (s : State) : (modPm f s).er = s.er := rfl
@[simp] theorem modPm_gg (f : PowerUnit → PowerUnit) (s : State) : (modPm f s).gg = s.gg := rfl
@[simp] theorem modPm_hl (f : PowerUnit → PowerUnit) (s : State) : (modPm f s).hl = s.hl := rfl
@[simp] theorem modPm_mb (f : PowerUnit → PowerUnit) (s : State) : (modPm f s).mb = s.mb := rfl
@[simp] theorem modPm_rst (f : PowerUnit → PowerUnit) (s : State) : (modPm f s).rst = s.rst := rfl
@[simp] theorem modPm_pins (f : PowerUnit → PowerUnit) (s : State) : (modPm f s).pins = s.pins := rfl
@[simp] theorem modPm_sq (f : PowerUnit → PowerUnit) (s : State) : (modPm f s).sq = s.sq := rfl
@[simp] theorem modPm_ram (f : PowerUnit → PowerUnit) (s : State) : (modPm f s).ram = s.ram := rfl
@[simp] theorem modPm_tbl (f : PowerUnit → PowerUnit) (s : State) : (modPm f s).tbl = s.tbl := rfl
@[simp] theorem modPm_tx (f : PowerUnit → PowerUnit) (s : State) : (modPm f s).tx = s.tx := rfl
@[simp] theorem modPm_res (f : PowerUnit → PowerUnit) (s : State) : (modPm f s).res = s.res := rfl
@[simp] theorem modPm_th (f : PowerUnit → PowerUnit) (s : State) : (modPm f s).th = s.th := rfl
@[simp] theorem modPm_tl (f : PowerUnit → PowerUnit) (s : State) : (modPm f s).tl = s.tl := rfl
@[simp] theorem modPm_pu (f : PowerUnit → PowerUnit) (s : State) : (modPm f s).pu = s.pu := rfl
@[simp] theorem modPm_stp (f : PowerUnit → PowerUnit) (s : State) : (modPm f s).stp = s.stp := rfl
@[simp] theorem modPm_fab (f : PowerUnit → PowerUnit) (s : State) : (modPm f s).fab = s.fab := rfl
@[simp] theorem modPm_pm (f : PowerUnit → PowerUnit) (s : State) : (modPm f s).pm = f s.pm := rfl
@[simp] theorem modPm_fw (f : PowerUnit → PowerUnit) (s : State) : (modPm f s).fw = s.fw := rfl
@[simp] theorem modPm_ty (f : PowerUnit → PowerUnit) (s : State) : (modPm f s).ty = s.ty := rfl
@[simp] theorem modPm_sb (f : PowerUnit → PowerUnit) (s : State) : (modPm f s).sb = s.sb := rfl

/-! ### modFw -/

@[simp] theorem modFw_pending (f : FwUnit → FwUnit) (s : State) : (modFw f s).pending = s.pending := rfl
@[simp] theorem modFw_out (f : FwUnit → FwUnit) (s : State) : (modFw f s).out = s.out := rfl
@[simp] theorem modFw_freeCtr (f : FwUnit → FwUnit) (s : State) : (modFw f s).freeCtr = s.freeCtr := rfl
@[simp] theorem modFw_host (f : FwUnit → FwUnit) (s : State) : (modFw f s).host = s.host := rfl
@[simp] theorem modFw_hostBad (f : FwUnit → FwUnit) (s : State) : (modFw f s).hostBad = s.hostBad := rfl
@[simp] theorem modFw_er (f : FwUnit → FwUnit) (s : State) : (modFw f s).er = s.er := rfl
@[simp] theorem modFw_gg (f : FwUnit → FwUnit) (s : State) : (modFw f s).gg = s.gg := rfl
@[simp] theorem modFw_hl (f : FwUnit → FwUnit) (s : State) : (modFw f s).hl = s.hl := rfl
@[simp] theorem modFw_mb (f : FwUnit → FwUnit) (s : State) : (modFw f s).mb = s.mb := rfl
@[simp] theorem modFw_rst (f : FwUnit → FwUnit) (s : State) : (modFw f s).rst = s.rst := rfl
@[simp] theorem modFw_pins (f : FwUnit → FwUnit) (s : State) : (modFw f s).pins = s.pins := rfl
@[simp] theorem modFw_sq (f : FwUnit → FwUnit) (s : State) : (modFw f s).sq = s.sq := rfl
@[simp] theorem modFw_ram (f : FwUnit → FwUnit) (s : State) : (modFw f s).ram = s.ram := rfl
@[simp] theorem modFw_tbl (f : FwUnit → FwUnit) (s : State) : (modFw f s).tbl = s.tbl := rfl
@[simp] theorem modFw_tx (f : FwUnit → FwUnit) (s : State) : (modFw f s).tx = s.tx := rfl
@[simp] theorem modFw_res (f : FwUnit → FwUnit) (s : State) : (modFw f s).res = s.res := rfl
@[simp] theorem modFw_th (f : FwUnit → FwUnit) (s : State) : (modFw f s).th = s.th := rfl
@[simp] theorem modFw_tl (f : FwUnit → FwUnit) (s : State) : (modFw f s).tl = s.tl := rfl
@[simp] theorem modFw_pu (f : FwUnit → FwUnit) (s : State) : (modFw f s).pu = s.pu := rfl
@[simp] theorem modFw_stp (f : FwUnit → FwUnit) (s : State) : (modFw f s).stp = s.stp := rfl
@[simp] theorem modFw_fab (f : FwUnit → FwUnit) (s : State) : (modFw f s).fab = s.fab := rfl
@[simp] theorem modFw_pm (f : FwUnit → FwUnit) (s : State) : (modFw f s).pm = s.pm := rfl
@[simp] theorem modFw_fw (f : FwUnit → FwUnit) (s : State) : (modFw f s).fw = f s.fw := rfl
@[simp] theorem modFw_ty (f : FwUnit → FwUnit) (s : State) : (modFw f s).ty = s.ty := rfl
@[simp] theorem modFw_sb (f : FwUnit → FwUnit) (s : State) : (modFw f s).sb = s.sb := rfl

/-! ### modSb -/

@[simp] theorem modSb_pending (f : Sideband → Sideband) (s : State) : (modSb f s).pending = s.pending := rfl
@[simp] theorem modSb_out (f : Sideband → Sideband) (s : State) : (modSb f s).out = s.out := rfl
@[simp] theorem modSb_freeCtr (f : Sideband → Sideband) (s : State) : (modSb f s).freeCtr = s.freeCtr := rfl
@[simp] theorem modSb_host (f : Sideband → Sideband) (s : State) : (modSb f s).host = s.host := rfl
@[simp] theorem modSb_hostBad (f : Sideband → Sideband) (s : State) : (modSb f s).hostBad = s.hostBad := rfl
@[simp] theorem modSb_er (f : Sideband → Sideband) (s : State) : (modSb f s).er = s.er := rfl
@[simp] theorem modSb_gg (f : Sideband → Sideband) (s : State) : (modSb f s).gg = s.gg := rfl
@[simp] theorem modSb_hl (f : Sideband → Sideband) (s : State) : (modSb f s).hl = s.hl := rfl
@[simp] theorem modSb_mb (f : Sideband → Sideband) (s : State) : (modSb f s).mb = s.mb := rfl
@[simp] theorem modSb_rst (f : Sideband → Sideband) (s : State) : (modSb f s).rst = s.rst := rfl
@[simp] theorem modSb_pins (f : Sideband → Sideband) (s : State) : (modSb f s).pins = s.pins := rfl
@[simp] theorem modSb_sq (f : Sideband → Sideband) (s : State) : (modSb f s).sq = s.sq := rfl
@[simp] theorem modSb_ram (f : Sideband → Sideband) (s : State) : (modSb f s).ram = s.ram := rfl
@[simp] theorem modSb_tbl (f : Sideband → Sideband) (s : State) : (modSb f s).tbl = s.tbl := rfl
@[simp] theorem modSb_tx (f : Sideband → Sideband) (s : State) : (modSb f s).tx = s.tx := rfl
@[simp] theorem modSb_res (f : Sideband → Sideband) (s : State) : (modSb f s).res = s.res := rfl
@[simp] theorem modSb_th (f : Sideband → Sideband) (s : State) : (modSb f s).th = s.th := rfl
@[simp] theorem modSb_tl (f : Sideband → Sideband) (s : State) : (modSb f s).tl = s.tl := rfl
@[simp] theorem modSb_pu (f : Sideband → Sideband) (s : State) : (modSb f s).pu = s.pu := rfl
@[simp] theorem modSb_stp (f : Sideband → Sideband) (s : State) : (modSb f s).stp = s.stp := rfl
@[simp] theorem modSb_fab (f : Sideband → Sideband) (s : State) : (modSb f s).fab = s.fab := rfl
@[simp] theorem modSb_pm (f : Sideband → Sideband) (s : State) : (modSb f s).pm = s.pm := rfl
@[simp] theorem modSb_fw (f : Sideband → Sideband) (s : State) : (modSb f s).fw = s.fw := rfl
@[simp] theorem modSb_ty (f : Sideband → Sideband) (s : State) : (modSb f s).ty = s.ty := rfl
@[simp] theorem modSb_sb (f : Sideband → Sideband) (s : State) : (modSb f s).sb = f s.sb := rfl

/-! ### modQp -/

@[simp] theorem modQp_pending (n : Fin 64) (f : QueuePair → QueuePair) (s : State) : (modQp n f s).pending = s.pending := rfl
@[simp] theorem modQp_out (n : Fin 64) (f : QueuePair → QueuePair) (s : State) : (modQp n f s).out = s.out := rfl
@[simp] theorem modQp_freeCtr (n : Fin 64) (f : QueuePair → QueuePair) (s : State) : (modQp n f s).freeCtr = s.freeCtr := rfl
@[simp] theorem modQp_host (n : Fin 64) (f : QueuePair → QueuePair) (s : State) : (modQp n f s).host = s.host := rfl
@[simp] theorem modQp_hostBad (n : Fin 64) (f : QueuePair → QueuePair) (s : State) : (modQp n f s).hostBad = s.hostBad := rfl
@[simp] theorem modQp_er (n : Fin 64) (f : QueuePair → QueuePair) (s : State) : (modQp n f s).er = s.er := rfl
@[simp] theorem modQp_gg (n : Fin 64) (f : QueuePair → QueuePair) (s : State) : (modQp n f s).gg = s.gg := rfl
@[simp] theorem modQp_hl (n : Fin 64) (f : QueuePair → QueuePair) (s : State) : (modQp n f s).hl = s.hl := rfl
@[simp] theorem modQp_mb (n : Fin 64) (f : QueuePair → QueuePair) (s : State) : (modQp n f s).mb = { s.mb with qps := vmod s.mb.qps n f } := rfl
@[simp] theorem modQp_rst (n : Fin 64) (f : QueuePair → QueuePair) (s : State) : (modQp n f s).rst = s.rst := rfl
@[simp] theorem modQp_pins (n : Fin 64) (f : QueuePair → QueuePair) (s : State) : (modQp n f s).pins = s.pins := rfl
@[simp] theorem modQp_sq (n : Fin 64) (f : QueuePair → QueuePair) (s : State) : (modQp n f s).sq = s.sq := rfl
@[simp] theorem modQp_ram (n : Fin 64) (f : QueuePair → QueuePair) (s : State) : (modQp n f s).ram = s.ram := rfl
@[simp] theorem modQp_tbl (n : Fin 64) (f : QueuePair → QueuePair) (s : State) : (modQp n f s).tbl = s.tbl := rfl
@[simp] theorem modQp_tx (n : Fin 64) (f : QueuePair → QueuePair) (s : State) : (modQp n f s).tx = s.tx := rfl
@[simp] theorem modQp_res (n : Fin 64) (f : QueuePair → QueuePair) (s : State) : (modQp n f s).res = s.res := rfl
@[simp] theorem modQp_th (n : Fin 64) (f : QueuePair → QueuePair) (s : State) : (modQp n f s).th = s.th := rfl
@[simp] theorem modQp_tl (n : Fin 64) (f : QueuePair → QueuePair) (s : State) : (modQp n f s).tl = s.tl := rfl
@[simp] theorem modQp_pu (n : Fin 64) (f : QueuePair → QueuePair) (s : State) : (modQp n f s).pu = s.pu := rfl
@[simp] theorem modQp_stp (n : Fin 64) (f : QueuePair → QueuePair) (s : State) : (modQp n f s).stp = s.stp := rfl
@[simp] theorem modQp_fab (n : Fin 64) (f : QueuePair → QueuePair) (s : State) : (modQp n f s).fab = s.fab := rfl
@[simp] theorem modQp_pm (n : Fin 64) (f : QueuePair → QueuePair) (s : State) : (modQp n f s).pm = s.pm := rfl
@[simp] theorem modQp_fw (n : Fin 64) (f : QueuePair → QueuePair) (s : State) : (modQp n f s).fw = s.fw := rfl
@[simp] theorem modQp_ty (n : Fin 64) (f : QueuePair → QueuePair) (s : State) : (modQp n f s).ty = s.ty := rfl
@[simp] theorem modQp_sb (n : Fin 64) (f : QueuePair → QueuePair) (s : State) : (modQp n f s).sb = s.sb := rfl

/-! ### modPort -/

@[simp] theorem modPort_pending (p : Fin 9) (f : Port → Port) (s : State) : (modPort p f s).pending = s.pending := rfl
@[simp] theorem modPort_out (p : Fin 9) (f : Port → Port) (s : State) : (modPort p f s).out = s.out := rfl
@[simp] theorem modPort_freeCtr (p : Fin 9) (f : Port → Port) (s : State) : (modPort p f s).freeCtr = s.freeCtr := rfl
@[simp] theorem modPort_host (p : Fin 9) (f : Port → Port) (s : State) : (modPort p f s).host = s.host := rfl
@[simp] theorem modPort_hostBad (p : Fin 9) (f : Port → Port) (s : State) : (modPort p f s).hostBad = s.hostBad := rfl
@[simp] theorem modPort_er (p : Fin 9) (f : Port → Port) (s : State) : (modPort p f s).er = s.er := rfl
@[simp] theorem modPort_gg (p : Fin 9) (f : Port → Port) (s : State) : (modPort p f s).gg = s.gg := rfl
@[simp] theorem modPort_hl (p : Fin 9) (f : Port → Port) (s : State) : (modPort p f s).hl = s.hl := rfl
@[simp] theorem modPort_mb (p : Fin 9) (f : Port → Port) (s : State) : (modPort p f s).mb = s.mb := rfl
@[simp] theorem modPort_rst (p : Fin 9) (f : Port → Port) (s : State) : (modPort p f s).rst = s.rst := rfl
@[simp] theorem modPort_pins (p : Fin 9) (f : Port → Port) (s : State) : (modPort p f s).pins = s.pins := rfl
@[simp] theorem modPort_sq (p : Fin 9) (f : Port → Port) (s : State) : (modPort p f s).sq = s.sq := rfl
@[simp] theorem modPort_ram (p : Fin 9) (f : Port → Port) (s : State) : (modPort p f s).ram = s.ram := rfl
@[simp] theorem modPort_tbl (p : Fin 9) (f : Port → Port) (s : State) : (modPort p f s).tbl = s.tbl := rfl
@[simp] theorem modPort_tx (p : Fin 9) (f : Port → Port) (s : State) : (modPort p f s).tx = s.tx := rfl
@[simp] theorem modPort_res (p : Fin 9) (f : Port → Port) (s : State) : (modPort p f s).res = s.res := rfl
@[simp] theorem modPort_th (p : Fin 9) (f : Port → Port) (s : State) : (modPort p f s).th = s.th := rfl
@[simp] theorem modPort_tl (p : Fin 9) (f : Port → Port) (s : State) : (modPort p f s).tl = s.tl := rfl
@[simp] theorem modPort_pu (p : Fin 9) (f : Port → Port) (s : State) : (modPort p f s).pu = s.pu := rfl
@[simp] theorem modPort_stp (p : Fin 9) (f : Port → Port) (s : State) : (modPort p f s).stp = s.stp := rfl
@[simp] theorem modPort_fab (p : Fin 9) (f : Port → Port) (s : State) : (modPort p f s).fab = { s.fab with ports := vmod s.fab.ports p f } := rfl
@[simp] theorem modPort_pm (p : Fin 9) (f : Port → Port) (s : State) : (modPort p f s).pm = s.pm := rfl
@[simp] theorem modPort_fw (p : Fin 9) (f : Port → Port) (s : State) : (modPort p f s).fw = s.fw := rfl
@[simp] theorem modPort_ty (p : Fin 9) (f : Port → Port) (s : State) : (modPort p f s).ty = s.ty := rfl
@[simp] theorem modPort_sb (p : Fin 9) (f : Port → Port) (s : State) : (modPort p f s).sb = s.sb := rfl

/-! ### modDrive -/

@[simp] theorem modDrive_pending (p : Fin 4) (f : Drive → Drive) (s : State) : (modDrive p f s).pending = s.pending := rfl
@[simp] theorem modDrive_out (p : Fin 4) (f : Drive → Drive) (s : State) : (modDrive p f s).out = s.out := rfl
@[simp] theorem modDrive_freeCtr (p : Fin 4) (f : Drive → Drive) (s : State) : (modDrive p f s).freeCtr = s.freeCtr := rfl
@[simp] theorem modDrive_host (p : Fin 4) (f : Drive → Drive) (s : State) : (modDrive p f s).host = s.host := rfl
@[simp] theorem modDrive_hostBad (p : Fin 4) (f : Drive → Drive) (s : State) : (modDrive p f s).hostBad = s.hostBad := rfl
@[simp] theorem modDrive_er (p : Fin 4) (f : Drive → Drive) (s : State) : (modDrive p f s).er = s.er := rfl
@[simp] theorem modDrive_gg (p : Fin 4) (f : Drive → Drive) (s : State) : (modDrive p f s).gg = s.gg := rfl
@[simp] theorem modDrive_hl (p : Fin 4) (f : Drive → Drive) (s : State) : (modDrive p f s).hl = s.hl := rfl
@[simp] theorem modDrive_mb (p : Fin 4) (f : Drive → Drive) (s : State) : (modDrive p f s).mb = s.mb := rfl
@[simp] theorem modDrive_rst (p : Fin 4) (f : Drive → Drive) (s : State) : (modDrive p f s).rst = s.rst := rfl
@[simp] theorem modDrive_pins (p : Fin 4) (f : Drive → Drive) (s : State) : (modDrive p f s).pins = s.pins := rfl
@[simp] theorem modDrive_sq (p : Fin 4) (f : Drive → Drive) (s : State) : (modDrive p f s).sq = s.sq := rfl
@[simp] theorem modDrive_ram (p : Fin 4) (f : Drive → Drive) (s : State) : (modDrive p f s).ram = s.ram := rfl
@[simp] theorem modDrive_tbl (p : Fin 4) (f : Drive → Drive) (s : State) : (modDrive p f s).tbl = s.tbl := rfl
@[simp] theorem modDrive_tx (p : Fin 4) (f : Drive → Drive) (s : State) : (modDrive p f s).tx = s.tx := rfl
@[simp] theorem modDrive_res (p : Fin 4) (f : Drive → Drive) (s : State) : (modDrive p f s).res = { s.res with drives := vmod s.res.drives p f } := rfl
@[simp] theorem modDrive_th (p : Fin 4) (f : Drive → Drive) (s : State) : (modDrive p f s).th = s.th := rfl
@[simp] theorem modDrive_tl (p : Fin 4) (f : Drive → Drive) (s : State) : (modDrive p f s).tl = s.tl := rfl
@[simp] theorem modDrive_pu (p : Fin 4) (f : Drive → Drive) (s : State) : (modDrive p f s).pu = s.pu := rfl
@[simp] theorem modDrive_stp (p : Fin 4) (f : Drive → Drive) (s : State) : (modDrive p f s).stp = s.stp := rfl
@[simp] theorem modDrive_fab (p : Fin 4) (f : Drive → Drive) (s : State) : (modDrive p f s).fab = s.fab := rfl
@[simp] theorem modDrive_pm (p : Fin 4) (f : Drive → Drive) (s : State) : (modDrive p f s).pm = s.pm := rfl
@[simp] theorem modDrive_fw (p : Fin 4) (f : Drive → Drive) (s : State) : (modDrive p f s).fw = s.fw := rfl
@[simp] theorem modDrive_ty (p : Fin 4) (f : Drive → Drive) (s : State) : (modDrive p f s).ty = s.ty := rfl
@[simp] theorem modDrive_sb (p : Fin 4) (f : Drive → Drive) (s : State) : (modDrive p f s).sb = s.sb := rfl

/-! ### modMonitor -/

@[simp] theorem modMonitor_pending (m : Fin 88) (f : Monitor → Monitor) (s : State) : (modMonitor m f s).pending = s.pending := rfl
@[simp] theorem modMonitor_out (m : Fin 88) (f : Monitor → Monitor) (s : State) : (modMonitor m f s).out = s.out := rfl
@[simp] theorem modMonitor_freeCtr (m : Fin 88) (f : Monitor → Monitor) (s : State) : (modMonitor m f s).freeCtr = s.freeCtr := rfl
@[simp] theorem modMonitor_host (m : Fin 88) (f : Monitor → Monitor) (s : State) : (modMonitor m f s).host = s.host := rfl
@[simp] theorem modMonitor_hostBad (m : Fin 88) (f : Monitor → Monitor) (s : State) : (modMonitor m f s).hostBad = s.hostBad := rfl
@[simp] theorem modMonitor_er (m : Fin 88) (f : Monitor → Monitor) (s : State) : (modMonitor m f s).er = s.er := rfl
@[simp] theorem modMonitor_gg (m : Fin 88) (f : Monitor → Monitor) (s : State) : (modMonitor m f s).gg = s.gg := rfl
@[simp] theorem modMonitor_hl (m : Fin 88) (f : Monitor → Monitor) (s : State) : (modMonitor m f s).hl = s.hl := rfl
@[simp] theorem modMonitor_mb (m : Fin 88) (f : Monitor → Monitor) (s : State) : (modMonitor m f s).mb = s.mb := rfl
@[simp] theorem modMonitor_rst (m : Fin 88) (f : Monitor → Monitor) (s : State) : (modMonitor m f s).rst = s.rst := rfl
@[simp] theorem modMonitor_pins (m : Fin 88) (f : Monitor → Monitor) (s : State) : (modMonitor m f s).pins = s.pins := rfl
@[simp] theorem modMonitor_sq (m : Fin 88) (f : Monitor → Monitor) (s : State) : (modMonitor m f s).sq = s.sq := rfl
@[simp] theorem modMonitor_ram (m : Fin 88) (f : Monitor → Monitor) (s : State) : (modMonitor m f s).ram = s.ram := rfl
@[simp] theorem modMonitor_tbl (m : Fin 88) (f : Monitor → Monitor) (s : State) : (modMonitor m f s).tbl = s.tbl := rfl
@[simp] theorem modMonitor_tx (m : Fin 88) (f : Monitor → Monitor) (s : State) : (modMonitor m f s).tx = s.tx := rfl
@[simp] theorem modMonitor_res (m : Fin 88) (f : Monitor → Monitor) (s : State) : (modMonitor m f s).res = s.res := rfl
@[simp] theorem modMonitor_th (m : Fin 88) (f : Monitor → Monitor) (s : State) : (modMonitor m f s).th = s.th := rfl
@[simp] theorem modMonitor_tl (m : Fin 88) (f : Monitor → Monitor) (s : State) : (modMonitor m f s).tl = s.tl := rfl
@[simp] theorem modMonitor_pu (m : Fin 88) (f : Monitor → Monitor) (s : State) : (modMonitor m f s).pu = s.pu := rfl
@[simp] theorem modMonitor_stp (m : Fin 88) (f : Monitor → Monitor) (s : State) : (modMonitor m f s).stp = s.stp := rfl
@[simp] theorem modMonitor_fab (m : Fin 88) (f : Monitor → Monitor) (s : State) : (modMonitor m f s).fab = s.fab := rfl
@[simp] theorem modMonitor_pm (m : Fin 88) (f : Monitor → Monitor) (s : State) : (modMonitor m f s).pm = { s.pm with monitors := vmod s.pm.monitors m f } := rfl
@[simp] theorem modMonitor_fw (m : Fin 88) (f : Monitor → Monitor) (s : State) : (modMonitor m f s).fw = s.fw := rfl
@[simp] theorem modMonitor_ty (m : Fin 88) (f : Monitor → Monitor) (s : State) : (modMonitor m f s).ty = s.ty := rfl
@[simp] theorem modMonitor_sb (m : Fin 88) (f : Monitor → Monitor) (s : State) : (modMonitor m f s).sb = s.sb := rfl

/-! ### modStack -/

@[simp] theorem modStack_pending (k : Fin 8) (f : StackUnit → StackUnit) (s : State) : (modStack k f s).pending = s.pending := rfl
@[simp] theorem modStack_out (k : Fin 8) (f : StackUnit → StackUnit) (s : State) : (modStack k f s).out = s.out := rfl
@[simp] theorem modStack_freeCtr (k : Fin 8) (f : StackUnit → StackUnit) (s : State) : (modStack k f s).freeCtr = s.freeCtr := rfl
@[simp] theorem modStack_host (k : Fin 8) (f : StackUnit → StackUnit) (s : State) : (modStack k f s).host = s.host := rfl
@[simp] theorem modStack_hostBad (k : Fin 8) (f : StackUnit → StackUnit) (s : State) : (modStack k f s).hostBad = s.hostBad := rfl
@[simp] theorem modStack_er (k : Fin 8) (f : StackUnit → StackUnit) (s : State) : (modStack k f s).er = s.er := rfl
@[simp] theorem modStack_gg (k : Fin 8) (f : StackUnit → StackUnit) (s : State) : (modStack k f s).gg = s.gg := rfl
@[simp] theorem modStack_hl (k : Fin 8) (f : StackUnit → StackUnit) (s : State) : (modStack k f s).hl = s.hl := rfl
@[simp] theorem modStack_mb (k : Fin 8) (f : StackUnit → StackUnit) (s : State) : (modStack k f s).mb = s.mb := rfl
@[simp] theorem modStack_rst (k : Fin 8) (f : StackUnit → StackUnit) (s : State) : (modStack k f s).rst = s.rst := rfl
@[simp] theorem modStack_pins (k : Fin 8) (f : StackUnit → StackUnit) (s : State) : (modStack k f s).pins = s.pins := rfl
@[simp] theorem modStack_sq (k : Fin 8) (f : StackUnit → StackUnit) (s : State) : (modStack k f s).sq = s.sq := rfl
@[simp] theorem modStack_ram (k : Fin 8) (f : StackUnit → StackUnit) (s : State) : (modStack k f s).ram = { s.ram with stack := vmod s.ram.stack k f } := rfl
@[simp] theorem modStack_tbl (k : Fin 8) (f : StackUnit → StackUnit) (s : State) : (modStack k f s).tbl = s.tbl := rfl
@[simp] theorem modStack_tx (k : Fin 8) (f : StackUnit → StackUnit) (s : State) : (modStack k f s).tx = s.tx := rfl
@[simp] theorem modStack_res (k : Fin 8) (f : StackUnit → StackUnit) (s : State) : (modStack k f s).res = s.res := rfl
@[simp] theorem modStack_th (k : Fin 8) (f : StackUnit → StackUnit) (s : State) : (modStack k f s).th = s.th := rfl
@[simp] theorem modStack_tl (k : Fin 8) (f : StackUnit → StackUnit) (s : State) : (modStack k f s).tl = s.tl := rfl
@[simp] theorem modStack_pu (k : Fin 8) (f : StackUnit → StackUnit) (s : State) : (modStack k f s).pu = s.pu := rfl
@[simp] theorem modStack_stp (k : Fin 8) (f : StackUnit → StackUnit) (s : State) : (modStack k f s).stp = s.stp := rfl
@[simp] theorem modStack_fab (k : Fin 8) (f : StackUnit → StackUnit) (s : State) : (modStack k f s).fab = s.fab := rfl
@[simp] theorem modStack_pm (k : Fin 8) (f : StackUnit → StackUnit) (s : State) : (modStack k f s).pm = s.pm := rfl
@[simp] theorem modStack_fw (k : Fin 8) (f : StackUnit → StackUnit) (s : State) : (modStack k f s).fw = s.fw := rfl
@[simp] theorem modStack_ty (k : Fin 8) (f : StackUnit → StackUnit) (s : State) : (modStack k f s).ty = s.ty := rfl
@[simp] theorem modStack_sb (k : Fin 8) (f : StackUnit → StackUnit) (s : State) : (modStack k f s).sb = s.sb := rfl

end Sys2Proof.Machine
end

