-- ==== Sys2Proof/Laws/Frames.lean ====
section
/-! SUPPORT. What the shared operations can change: an interrupt, a log entry and a device-initiated write (`LogsOnly`); a completion
(`PostsOnly`); a message of the fabric (`SendsOnly`). -/

namespace Sys2Proof.Machine

open Sys2Proof

/-! ### Interrupts, the log, host writes -/

/-- `t` differs from `s` in what it has sent, in host memory, in the error log and in the host link's pending bits, held writes, armed
hold entry and violation count, and in nothing else. -/
def LogsOnly (s t : State) : Prop :=
  ∃ out host er pba held armed viol, t = { s with
    out := out, host := host, er := er, hl := { s.hl with pba := pba, held := held, bmeArmed := armed, violCount := viol } }

theorem LogsOnly.refl (s : State) : LogsOnly s s := ⟨s.out, s.host, s.er, s.hl.pba, s.hl.held, s.hl.bmeArmed, s.hl.violCount, rfl⟩

theorem LogsOnly.trans {s t u : State} (h : LogsOnly s t) (k : LogsOnly t u) : LogsOnly s u := by
  obtain ⟨_, _, _, _, _, _, _, rfl⟩ := h
  obtain ⟨o, m, e, p, l, a, v, rfl⟩ := k
  exact ⟨o, m, e, p, l, a, v, rfl⟩

theorem LogsOnly.of_er (s : State) (e : ErrUnit) : LogsOnly s { s with er := e } :=
  ⟨s.out, s.host, e, s.hl.pba, s.hl.held, s.hl.bmeArmed, s.hl.violCount, rfl⟩

/-- An interrupt is sent or left pending (R135, R136). -/
theorem raise_logs (v : Fin 128) (s : State) : LogsOnly s (raise v s) := by
  simp only [raise]
  split
  · exact ⟨s.out, s.host, s.er, _, s.hl.held, s.hl.bmeArmed, s.hl.violCount, rfl⟩
  · exact ⟨_, s.host, s.er, s.hl.pba, s.hl.held, s.hl.bmeArmed, s.hl.violCount, rfl⟩

theorem mirror_logs (e : LogEntry) (s : State) : LogsOnly s (mirror e s) := by
  simp only [mirror]
  split
  · split
    · exact ⟨s.out, _, s.er, s.hl.pba, s.hl.held, s.hl.bmeArmed, s.hl.violCount, rfl⟩
    · exact ⟨s.out, s.host, s.er, s.hl.pba, _, s.hl.bmeArmed, s.hl.violCount, rfl⟩
  · exact LogsOnly.refl s

theorem pushEntry_logs (e : LogEntry) (s : State) : LogsOnly s (pushEntry e s) :=
  (LogsOnly.of_er s _).trans (mirror_logs _ _)

theorem noteEntry_logs (cls : ErrClass) (cause : Nat) (seq : W32) (s : State) : LogsOnly s (noteEntry cls cause seq s) := by
  simp only [noteEntry]
  split
  · split
    · exact LogsOnly.of_er s _
    · exact (LogsOnly.of_er s _).trans (raise_logs _ _)
  · split
    · exact LogsOnly.of_er s _
    · exact (LogsOnly.of_er s _).trans (raise_logs _ _)

theorem countClass_logs (cls : ErrClass) (s : State) : LogsOnly s (countClass cls s) := LogsOnly.of_er s _
theorem mergeEntry_logs (u : Nat) (e : LogEntry) (s : State) : LogsOnly s (mergeEntry u e s) := LogsOnly.of_er s _
theorem openLimit_logs (cause u : Nat) (s : State) : LogsOnly s (openLimit cause u s) := LogsOnly.of_er s _

theorem writeEntry_logs (e : LogEntry) (cont : Option (BitVec 192)) (s : State) : LogsOnly s (writeEntry e cont s) := by
  unfold writeEntry
  split
  · exact (pushEntry_logs _ s).trans ((pushEntry_logs _ _).trans (noteEntry_logs _ _ _ _))
  · exact (pushEntry_logs _ s).trans (noteEntry_logs _ _ _ _)

theorem toContain_logs (e : LogEntry) (unit : Nat) (s : State) : LogsOnly s (toContain e unit s) := by
  unfold toContain
  split
  · exact LogsOnly.of_er s _
  · exact LogsOnly.refl s

/-- One occurrence is counted, and merged or written (R458–R466). -/
theorem logFull_logs (cls : ErrClass) (cause : Nat) (scope : Scope) (unit a b : Nat) (cont : Option (BitVec 192)) (s : State) :
    LogsOnly s (logFull cls cause scope unit a b cont s) := by
  simp only [logFull]
  refine (countClass_logs cls s).trans ?_
  split
  · exact mergeEntry_logs _ _ _
  · split
    · exact (openLimit_logs _ _ _).trans ((writeEntry_logs _ _ _).trans (toContain_logs _ _ _))
    · exact (writeEntry_logs _ _ _).trans (toContain_logs _ _ _)

theorem countViol_logs (s : State) : LogsOnly s (countViol s) :=
  ⟨s.out, s.host, s.er, s.hl.pba, s.hl.held, s.hl.bmeArmed, _, rfl⟩

theorem disarm_logs (s : State) : LogsOnly s { s with hl := { s.hl with bmeArmed := false } } :=
  ⟨s.out, s.host, s.er, s.hl.pba, s.hl.held, false, s.hl.violCount, rfl⟩

/-- A log entry, and the hold that its mirror write may be (R121, R458–R466). -/
theorem logErr_logs (cls : ErrClass) (cause : Nat) (scope : Scope) (unit a b : Nat) (s : State) :
    LogsOnly s (logErr cls cause scope unit a b s) := by
  simp only [logErr]
  split
  · exact (logFull_logs _ _ _ _ _ _ _ s).trans ((disarm_logs _).trans ((countViol_logs _).trans (logFull_logs _ _ _ _ _ _ _ _)))
  · exact logFull_logs _ _ _ _ _ _ _ s

theorem violation_logs (cause unit a b : Nat) (s : State) : LogsOnly s (violation cause unit a b s) :=
  (countViol_logs s).trans (logErr_logs _ _ _ _ _ _ _)

theorem flushLimit_logs (l : Limiter) (s : State) : LogsOnly s (flushLimit l s) := by
  unfold flushLimit
  cases l.last with
  | none => exact LogsOnly.of_er s _
  | some e =>
    have h1 := LogsOnly.of_er s { s.er with limits := s.er.limits.filter (fun x => !(x.cause == l.cause && x.unit == l.unit)) }
    exact h1.trans ((pushEntry_logs _ _).trans (noteEntry_logs _ _ _ _))

/-- A device-initiated write is performed, or held (R120, R121, R133). -/
theorem hostWrite_logs (a : Nat) (bs : List Byte) (s : State) : LogsOnly s (hostWrite a bs s) := by
  have hold : LogsOnly s { s with hl := { s.hl with held := s.hl.held ++ [.bytes a bs] } } :=
    ⟨s.out, s.host, s.er, s.hl.pba, _, s.hl.bmeArmed, s.hl.violCount, rfl⟩
  simp only [hostWrite]
  split
  · exact ⟨s.out, _, s.er, s.hl.pba, s.hl.held, s.hl.bmeArmed, s.hl.violCount, rfl⟩
  · split
    · exact hold.trans ((disarm_logs _).trans ((countViol_logs _).trans (logFull_logs _ _ _ _ _ _ _ _)))
    · exact hold

/-- Whether the host can be reached does not change. -/
theorem LogsOnly.hostReach {s t : State} (h : LogsOnly s t) : Machine.hostReach t = Machine.hostReach s := by
  obtain ⟨_, _, _, _, _, _, _, rfl⟩ := h; rfl

theorem LogsOnly.awake {s t : State} (h : LogsOnly s t) : Machine.awake t = Machine.awake s := by
  obtain ⟨_, _, _, _, _, _, _, rfl⟩ := h; rfl

theorem LogsOnly.running {s t : State} (h : LogsOnly s t) : Machine.running t = Machine.running s := by
  obtain ⟨_, _, _, _, _, _, _, rfl⟩ := h; rfl

@[simp] theorem raise_pending (v : Fin 128) (s : State) : (raise v s).pending = s.pending := by
  obtain ⟨_, _, _, _, _, _, _, h⟩ := raise_logs v s; rw [h]

@[simp] theorem raise_freeCtr (v : Fin 128) (s : State) : (raise v s).freeCtr = s.freeCtr := by
  obtain ⟨_, _, _, _, _, _, _, h⟩ := raise_logs v s; rw [h]

@[simp] theorem raise_hostBad (v : Fin 128) (s : State) : (raise v s).hostBad = s.hostBad := by
  obtain ⟨_, _, _, _, _, _, _, h⟩ := raise_logs v s; rw [h]

@[simp] theorem raise_gg (v : Fin 128) (s : State) : (raise v s).gg = s.gg := by
  obtain ⟨_, _, _, _, _, _, _, h⟩ := raise_logs v s; rw [h]

@[simp] theorem raise_mb (v : Fin 128) (s : State) : (raise v s).mb = s.mb := by
  obtain ⟨_, _, _, _, _, _, _, h⟩ := raise_logs v s; rw [h]

@[simp] theorem raise_rst (v : Fin 128) (s : State) : (raise v s).rst = s.rst := by
  obtain ⟨_, _, _, _, _, _, _, h⟩ := raise_logs v s; rw [h]

@[simp] theorem raise_pins (v : Fin 128) (s : State) : (raise v s).pins = s.pins := by
  obtain ⟨_, _, _, _, _, _, _, h⟩ := raise_logs v s; rw [h]

@[simp] theorem raise_sq (v : Fin 128) (s : State) : (raise v s).sq = s.sq := by
  obtain ⟨_, _, _, _, _, _, _, h⟩ := raise_logs v s; rw [h]

@[simp] theorem raise_ram (v : Fin 128) (s : State) : (raise v s).ram = s.ram := by
  obtain ⟨_, _, _, _, _, _, _, h⟩ := raise_logs v s; rw [h]

@[simp] theorem raise_tbl (v : Fin 128) (s : State) : (raise v s).tbl = s.tbl := by
  obtain ⟨_, _, _, _, _, _, _, h⟩ := raise_logs v s; rw [h]

@[simp] theorem raise_tx (v : Fin 128) (s : State) : (raise v s).tx = s.tx := by
  obtain ⟨_, _, _, _, _, _, _, h⟩ := raise_logs v s; rw [h]

@[simp] theorem raise_res (v : Fin 128) (s : State) : (raise v s).res = s.res := by
  obtain ⟨_, _, _, _, _, _, _, h⟩ := raise_logs v s; rw [h]

@[simp] theorem raise_th (v : Fin 128) (s : State) : (raise v s).th = s.th := by
  obtain ⟨_, _, _, _, _, _, _, h⟩ := raise_logs v s; rw [h]

@[simp] theorem raise_tl (v : Fin 128) (s : State) : (raise v s).tl = s.tl := by
  obtain ⟨_, _, _, _, _, _, _, h⟩ := raise_logs v s; rw [h]

@[simp] theorem raise_pu (v : Fin 128) (s : State) : (raise v s).pu = s.pu := by
  obtain ⟨_, _, _, _, _, _, _, h⟩ := raise_logs v s; rw [h]

@[simp] theorem raise_stp (v : Fin 128) (s : State) : (raise v s).stp = s.stp := by
  obtain ⟨_, _, _, _, _, _, _, h⟩ := raise_logs v s; rw [h]

@[simp] theorem raise_fab (v : Fin 128) (s : State) : (raise v s).fab = s.fab := by
  obtain ⟨_, _, _, _, _, _, _, h⟩ := raise_logs v s; rw [h]

@[simp] theorem raise_pm (v : Fin 128) (s : State) : (raise v s).pm = s.pm := by
  obtain ⟨_, _, _, _, _, _, _, h⟩ := raise_logs v s; rw [h]

@[simp] theorem raise_fw (v : Fin 128) (s : State) : (raise v s).fw = s.fw := by
  obtain ⟨_, _, _, _, _, _, _, h⟩ := raise_logs v s; rw [h]

@[simp] theorem raise_ty (v : Fin 128) (s : State) : (raise v s).ty = s.ty := by
  obtain ⟨_, _, _, _, _, _, _, h⟩ := raise_logs v s; rw [h]

@[simp] theorem raise_sb (v : Fin 128) (s : State) : (raise v s).sb = s.sb := by
  obtain ⟨_, _, _, _, _, _, _, h⟩ := raise_logs v s; rw [h]

@[simp] theorem logErr_pending (cls : ErrClass) (cause : Nat) (scope : Scope) (unit a b : Nat) (s : State) : (logErr cls cause scope unit a b s).pending = s.pending := by
  obtain ⟨_, _, _, _, _, _, _, h⟩ := logErr_logs cls cause scope unit a b s; rw [h]

@[simp] theorem logErr_freeCtr (cls : ErrClass) (cause : Nat) (scope : Scope) (unit a b : Nat) (s : State) : (logErr cls cause scope unit a b s).freeCtr = s.freeCtr := by
  obtain ⟨_, _, _, _, _, _, _, h⟩ := logErr_logs cls cause scope unit a b s; rw [h]

@[simp] theorem logErr_hostBad (cls : ErrClass) (cause : Nat) (scope : Scope) (unit a b : Nat) (s : State) : (logErr cls cause scope unit a b s).hostBad = s.hostBad := by
  obtain ⟨_, _, _, _, _, _, _, h⟩ := logErr_logs cls cause scope unit a b s; rw [h]

@[simp] theorem logErr_gg (cls : ErrClass) (cause : Nat) (scope : Scope) (unit a b : Nat) (s : State) : (logErr cls cause scope unit a b s).gg = s.gg := by
  obtain ⟨_, _, _, _, _, _, _, h⟩ := logErr_logs cls cause scope unit a b s; rw [h]

@[simp] theorem logErr_mb (cls : ErrClass) (cause : Nat) (scope : Scope) (unit a b : Nat) (s : State) : (logErr cls cause scope unit a b s).mb = s.mb := by
  obtain ⟨_, _, _, _, _, _, _, h⟩ := logErr_logs cls cause scope unit a b s; rw [h]

@[simp] theorem logErr_rst (cls : ErrClass) (cause : Nat) (scope : Scope) (unit a b : Nat) (s : State) : (logErr cls cause scope unit a b s).rst = s.rst := by
  obtain ⟨_, _, _, _, _, _, _, h⟩ := logErr_logs cls cause scope unit a b s; rw [h]

@[simp] theorem logErr_pins (cls : ErrClass) (cause : Nat) (scope : Scope) (unit a b : Nat) (s : State) : (logErr cls cause scope unit a b s).pins = s.pins := by
  obtain ⟨_, _, _, _, _, _, _, h⟩ := logErr_logs cls cause scope unit a b s; rw [h]

@[simp] theorem logErr_sq (cls : ErrClass) (cause : Nat) (scope : Scope) (unit a b : Nat) (s : State) : (logErr cls cause scope unit a b s).sq = s.sq := by
  obtain ⟨_, _, _, _, _, _, _, h⟩ := logErr_logs cls cause scope unit a b s; rw [h]

@[simp] theorem logErr_ram (cls : ErrClass) (cause : Nat) (scope : Scope) (unit a b : Nat) (s : State) : (logErr cls cause scope unit a b s).ram = s.ram := by
  obtain ⟨_, _, _, _, _, _, _, h⟩ := logErr_logs cls cause scope unit a b s; rw [h]

@[simp] theorem logErr_tbl (cls : ErrClass) (cause : Nat) (scope : Scope) (unit a b : Nat) (s : State) : (logErr cls cause scope unit a b s).tbl = s.tbl := by
  obtain ⟨_, _, _, _, _, _, _, h⟩ := logErr_logs cls cause scope unit a b s; rw [h]

@[simp] theorem logErr_tx (cls : ErrClass) (cause : Nat) (scope : Scope) (unit a b : Nat) (s : State) : (logErr cls cause scope unit a b s).tx = s.tx := by
  obtain ⟨_, _, _, _, _, _, _, h⟩ := logErr_logs cls cause scope unit a b s; rw [h]

@[simp] theorem logErr_res (cls : ErrClass) (cause : Nat) (scope : Scope) (unit a b : Nat) (s : State) : (logErr cls cause scope unit a b s).res = s.res := by
  obtain ⟨_, _, _, _, _, _, _, h⟩ := logErr_logs cls cause scope unit a b s; rw [h]

@[simp] theorem logErr_th (cls : ErrClass) (cause : Nat) (scope : Scope) (unit a b : Nat) (s : State) : (logErr cls cause scope unit a b s).th = s.th := by
  obtain ⟨_, _, _, _, _, _, _, h⟩ := logErr_logs cls cause scope unit a b s; rw [h]

@[simp] theorem logErr_tl (cls : ErrClass) (cause : Nat) (scope : Scope) (unit a b : Nat) (s : State) : (logErr cls cause scope unit a b s).tl = s.tl := by
  obtain ⟨_, _, _, _, _, _, _, h⟩ := logErr_logs cls cause scope unit a b s; rw [h]

@[simp] theorem logErr_pu (cls : ErrClass) (cause : Nat) (scope : Scope) (unit a b : Nat) (s : State) : (logErr cls cause scope unit a b s).pu = s.pu := by
  obtain ⟨_, _, _, _, _, _, _, h⟩ := logErr_logs cls cause scope unit a b s; rw [h]

@[simp] theorem logErr_stp (cls : ErrClass) (cause : Nat) (scope : Scope) (unit a b : Nat) (s : State) : (logErr cls cause scope unit a b s).stp = s.stp := by
  obtain ⟨_, _, _, _, _, _, _, h⟩ := logErr_logs cls cause scope unit a b s; rw [h]

@[simp] theorem logErr_fab (cls : ErrClass) (cause : Nat) (scope : Scope) (unit a b : Nat) (s : State) : (logErr cls cause scope unit a b s).fab = s.fab := by
  obtain ⟨_, _, _, _, _, _, _, h⟩ := logErr_logs cls cause scope unit a b s; rw [h]

@[simp] theorem logErr_pm (cls : ErrClass) (cause : Nat) (scope : Scope) (unit a b : Nat) (s : State) : (logErr cls cause scope unit a b s).pm = s.pm := by
  obtain ⟨_, _, _, _, _, _, _, h⟩ := logErr_logs cls cause scope unit a b s; rw [h]

@[simp] theorem logErr_fw (cls : ErrClass) (cause : Nat) (scope : Scope) (unit a b : Nat) (s : State) : (logErr cls cause scope unit a b s).fw = s.fw := by
  obtain ⟨_, _, _, _, _, _, _, h⟩ := logErr_logs cls cause scope unit a b s; rw [h]

@[simp] theorem logErr_ty (cls : ErrClass) (cause : Nat) (scope : Scope) (unit a b : Nat) (s : State) : (logErr cls cause scope unit a b s).ty = s.ty := by
  obtain ⟨_, _, _, _, _, _, _, h⟩ := logErr_logs cls cause scope unit a b s; rw [h]

@[simp] theorem logErr_sb (cls : ErrClass) (cause : Nat) (scope : Scope) (unit a b : Nat) (s : State) : (logErr cls cause scope unit a b s).sb = s.sb := by
  obtain ⟨_, _, _, _, _, _, _, h⟩ := logErr_logs cls cause scope unit a b s; rw [h]

@[simp] theorem hostWrite_pending (a : Nat) (bs : List Byte) (s : State) : (hostWrite a bs s).pending = s.pending := by
  obtain ⟨_, _, _, _, _, _, _, h⟩ := hostWrite_logs a bs s; rw [h]

@[simp] theorem hostWrite_freeCtr (a : Nat) (bs : List Byte) (s : State) : (hostWrite a bs s).freeCtr = s.freeCtr := by
  obtain ⟨_, _, _, _, _, _, _, h⟩ := hostWrite_logs a bs s; rw [h]

@[simp] theorem hostWrite_hostBad (a : Nat) (bs : List Byte) (s : State) : (hostWrite a bs s).hostBad = s.hostBad := by
  obtain ⟨_, _, _, _, _, _, _, h⟩ := hostWrite_logs a bs s; rw [h]

@[simp] theorem hostWrite_gg (a : Nat) (bs : List Byte) (s : State) : (hostWrite a bs s).gg = s.gg := by
  obtain ⟨_, _, _, _, _, _, _, h⟩ := hostWrite_logs a bs s; rw [h]

@[simp] theorem hostWrite_mb (a : Nat) (bs : List Byte) (s : State) : (hostWrite a bs s).mb = s.mb := by
  obtain ⟨_, _, _, _, _, _, _, h⟩ := hostWrite_logs a bs s; rw [h]

@[simp] theorem hostWrite_rst (a : Nat) (bs : List Byte) (s : State) : (hostWrite a bs s).rst = s.rst := by
  obtain ⟨_, _, _, _, _, _, _, h⟩ := hostWrite_logs a bs s; rw [h]

@[simp] theorem hostWrite_pins (a : Nat) (bs : List Byte) (s : State) : (hostWrite a bs s).pins = s.pins := by
  obtain ⟨_, _, _, _, _, _, _, h⟩ := hostWrite_logs a bs s; rw [h]

@[simp] theorem hostWrite_sq (a : Nat) (bs : List Byte) (s : State) : (hostWrite a bs s).sq = s.sq := by
  obtain ⟨_, _, _, _, _, _, _, h⟩ := hostWrite_logs a bs s; rw [h]

@[simp] theorem hostWrite_ram (a : Nat) (bs : List Byte) (s : State) : (hostWrite a bs s).ram = s.ram := by
  obtain ⟨_, _, _, _, _, _, _, h⟩ := hostWrite_logs a bs s; rw [h]

@[simp] theorem hostWrite_tbl (a : Nat) (bs : List Byte) (s : State) : (hostWrite a bs s).tbl = s.tbl := by
  obtain ⟨_, _, _, _, _, _, _, h⟩ := hostWrite_logs a bs s; rw [h]

@[simp] theorem hostWrite_tx (a : Nat) (bs : List Byte) (s : State) : (hostWrite a bs s).tx = s.tx := by
  obtain ⟨_, _, _, _, _, _, _, h⟩ := hostWrite_logs a bs s; rw [h]

@[simp] theorem hostWrite_res (a : Nat) (bs : List Byte) (s : State) : (hostWrite a bs s).res = s.res := by
  obtain ⟨_, _, _, _, _, _, _, h⟩ := hostWrite_logs a bs s; rw [h]

@[simp] theorem hostWrite_th (a : Nat) (bs : List Byte) (s : State) : (hostWrite a bs s).th = s.th := by
  obtain ⟨_, _, _, _, _, _, _, h⟩ := hostWrite_logs a bs s; rw [h]

@[simp] theorem hostWrite_tl (a : Nat) (bs : List Byte) (s : State) : (hostWrite a bs s).tl = s.tl := by
  obtain ⟨_, _, _, _, _, _, _, h⟩ := hostWrite_logs a bs s; rw [h]

@[simp] theorem hostWrite_pu (a : Nat) (bs : List Byte) (s : State) : (hostWrite a bs s).pu = s.pu := by
  obtain ⟨_, _, _, _, _, _, _, h⟩ := hostWrite_logs a bs s; rw [h]

@[simp] theorem hostWrite_stp (a : Nat) (bs : List Byte) (s : State) : (hostWrite a bs s).stp = s.stp := by
  obtain ⟨_, _, _, _, _, _, _, h⟩ := hostWrite_logs a bs s; rw [h]

@[simp] theorem hostWrite_fab (a : Nat) (bs : List Byte) (s : State) : (hostWrite a bs s).fab = s.fab := by
  obtain ⟨_, _, _, _, _, _, _, h⟩ := hostWrite_logs a bs s; rw [h]

@[simp] theorem hostWrite_pm (a : Nat) (bs : List Byte) (s : State) : (hostWrite a bs s).pm = s.pm := by
  obtain ⟨_, _, _, _, _, _, _, h⟩ := hostWrite_logs a bs s; rw [h]

@[simp] theorem hostWrite_fw (a : Nat) (bs : List Byte) (s : State) : (hostWrite a bs s).fw = s.fw := by
  obtain ⟨_, _, _, _, _, _, _, h⟩ := hostWrite_logs a bs s; rw [h]

@[simp] theorem hostWrite_ty (a : Nat) (bs : List Byte) (s : State) : (hostWrite a bs s).ty = s.ty := by
  obtain ⟨_, _, _, _, _, _, _, h⟩ := hostWrite_logs a bs s; rw [h]

@[simp] theorem hostWrite_sb (a : Nat) (bs : List Byte) (s : State) : (hostWrite a bs s).sb = s.sb := by
  obtain ⟨_, _, _, _, _, _, _, h⟩ := hostWrite_logs a bs s; rw [h]

/-! ### Completions -/

/-- `t` differs from `s` as `LogsOnly` allows, in the queue pairs, and in the schedule. -/
def PostsOnly (s t : State) : Prop :=
  ∃ qps sched, LogsOnly { s with mb := { s.mb with qps := qps }, gg := { s.gg with sched := sched } } t

theorem LogsOnly.posts {s t : State} (h : LogsOnly s t) : PostsOnly s t := ⟨s.mb.qps, s.gg.sched, h⟩

theorem PostsOnly.refl (s : State) : PostsOnly s s := (LogsOnly.refl s).posts

theorem PostsOnly.trans {s t u : State} (h : PostsOnly s t) (k : PostsOnly t u) : PostsOnly s u := by
  obtain ⟨_, _, _, _, _, _, _, _, _, rfl⟩ := h
  obtain ⟨q, d, o, m, e, p, l, a, v, rfl⟩ := k
  exact ⟨q, d, o, m, e, p, l, a, v, rfl⟩

theorem modQp_posts (n : Fin 64) (f : QueuePair → QueuePair) (s : State) : PostsOnly s (modQp n f s) :=
  ⟨_, s.gg.sched, LogsOnly.refl _⟩

theorem cancelMarks_posts (n : Fin 64) (cid : Nat) (s : State) : PostsOnly s (cancelMarks n cid s) :=
  ⟨s.mb.qps, _, LogsOnly.refl _⟩

theorem qpBecomes_posts (n : Fin 64) (r : QueuePair × Bool) (s : State) : PostsOnly s (qpBecomes n r s) := by
  simp only [qpBecomes]
  split
  · exact (modQp_posts _ _ s).trans (raise_logs _ _).posts
  · exact modQp_posts _ _ s

theorem postNow_posts (n : Fin 64) (c : Completion) (s : State) : PostsOnly s (postNow n c s) :=
  (hostWrite_logs _ _ s).posts.trans (qpBecomes_posts _ _ _)

/-- A completion is posted, or waits, or is dropped (R139, R149–R151, R158). -/
theorem post_posts (n : Fin 64) (c : Completion) (s : State) : PostsOnly s (post n c s) := by
  simp only [post]
  split
  · exact PostsOnly.refl s
  · split
    · exact postNow_posts n c s
    · exact modQp_posts _ _ s

theorem drainWaiting_posts (n : Fin 64) (fuel : Nat) (s : State) : PostsOnly s (drainWaiting n fuel s) := by
  induction fuel generalizing s with
  | zero => exact PostsOnly.refl s
  | succ fuel ih =>
    simp only [drainWaiting]
    split
    · exact PostsOnly.refl s
    · split
      · exact (modQp_posts _ _ s).trans ((postNow_posts n _ _).trans (ih _))
      · exact PostsOnly.refl s

theorem finishCmd_posts (n : Fin 64) (cid status sub : Nat) (r0 r1 : W64) (late : Bool) (s : State) :
    PostsOnly s (finishCmd n cid status sub r0 r1 late s) := by
  simp only [finishCmd]
  split
  · exact PostsOnly.refl s
  · exact (cancelMarks_posts n cid s).trans ((modQp_posts _ _ _).trans (post_posts _ _ _))

theorem finishUnstarted_posts (n : Fin 64) (status sub : Nat) (s : State) : PostsOnly s (finishUnstarted n status sub s) :=
  foldl_keeps (PostsOnly s) _ (fun _ _ h => h.trans (finishCmd_posts _ _ _ _ _ _ _ _)) _ _ (PostsOnly.refl s)

theorem releaseIfStopped_posts (n : Fin 64) (s : State) : PostsOnly s (releaseIfStopped n s) := by
  simp only [releaseIfStopped]
  split
  · exact PostsOnly.refl s
  · split
    · exact PostsOnly.refl s
    · refine (finishUnstarted_posts n stAbandoned 0 s).trans ?_
      split
      · exact modQp_posts _ _ _
      · exact (modQp_posts _ _ _).trans (finishCmd_posts _ _ _ _ _ _ _ _)

/-- A command's final completion, with what it releases (R157, R161, R163). -/
theorem complete_posts (n : Fin 64) (cid status sub : Nat) (r0 r1 : W64) (s : State) : PostsOnly s (complete n cid status sub r0 r1 s) :=
  (finishCmd_posts _ _ _ _ _ _ _ s).trans (releaseIfStopped_posts _ _)

theorem completeAt_posts (n : Fin 64) (cid status sub : Nat) (r0 r1 : W64) (late : Bool) (s : State) :
    PostsOnly s (completeAt n cid status sub r0 r1 late s) :=
  (finishCmd_posts _ _ _ _ _ _ _ s).trans (releaseIfStopped_posts _ _)

theorem stopQp_posts (n : Fin 64) (who : Option Nat) (s : State) : PostsOnly s (stopQp n who s) :=
  (modQp_posts _ _ s).trans (releaseIfStopped_posts _ _)

/-- A quarantined queue pair ends what it has not started (R139). -/
theorem quarantine_posts (n : Fin 64) (cause : Nat) (s : State) : PostsOnly s (quarantine n cause s) := by
  simp only [quarantine]
  split
  · exact (finishUnstarted_posts n stQuarantined cause s).trans (modQp_posts _ _ _)
  · exact PostsOnly.refl s

@[simp] theorem complete_pending (n : Fin 64) (cid status sub : Nat) (r0 r1 : W64) (s : State) : (complete n cid status sub r0 r1 s).pending = s.pending := by
  obtain ⟨_, _, _, _, _, _, _, _, _, h⟩ := complete_posts n cid status sub r0 r1 s; rw [h]

@[simp] theorem complete_freeCtr (n : Fin 64) (cid status sub : Nat) (r0 r1 : W64) (s : State) : (complete n cid status sub r0 r1 s).freeCtr = s.freeCtr := by
  obtain ⟨_, _, _, _, _, _, _, _, _, h⟩ := complete_posts n cid status sub r0 r1 s; rw [h]

@[simp] theorem complete_hostBad (n : Fin 64) (cid status sub : Nat) (r0 r1 : W64) (s : State) : (complete n cid status sub r0 r1 s).hostBad = s.hostBad := by
  obtain ⟨_, _, _, _, _, _, _, _, _, h⟩ := complete_posts n cid status sub r0 r1 s; rw [h]

@[simp] theorem complete_rst (n : Fin 64) (cid status sub : Nat) (r0 r1 : W64) (s : State) : (complete n cid status sub r0 r1 s).rst = s.rst := by
  obtain ⟨_, _, _, _, _, _, _, _, _, h⟩ := complete_posts n cid status sub r0 r1 s; rw [h]

@[simp] theorem complete_pins (n : Fin 64) (cid status sub : Nat) (r0 r1 : W64) (s : State) : (complete n cid status sub r0 r1 s).pins = s.pins := by
  obtain ⟨_, _, _, _, _, _, _, _, _, h⟩ := complete_posts n cid status sub r0 r1 s; rw [h]

@[simp] theorem complete_sq (n : Fin 64) (cid status sub : Nat) (r0 r1 : W64) (s : State) : (complete n cid status sub r0 r1 s).sq = s.sq := by
  obtain ⟨_, _, _, _, _, _, _, _, _, h⟩ := complete_posts n cid status sub r0 r1 s; rw [h]

@[simp] theorem complete_ram (n : Fin 64) (cid status sub : Nat) (r0 r1 : W64) (s : State) : (complete n cid status sub r0 r1 s).ram = s.ram := by
  obtain ⟨_, _, _, _, _, _, _, _, _, h⟩ := complete_posts n cid status sub r0 r1 s; rw [h]

@[simp] theorem complete_tbl (n : Fin 64) (cid status sub : Nat) (r0 r1 : W64) (s : State) : (complete n cid status sub r0 r1 s).tbl = s.tbl := by
  obtain ⟨_, _, _, _, _, _, _, _, _, h⟩ := complete_posts n cid status sub r0 r1 s; rw [h]

@[simp] theorem complete_tx (n : Fin 64) (cid status sub : Nat) (r0 r1 : W64) (s : State) : (complete n cid status sub r0 r1 s).tx = s.tx := by
  obtain ⟨_, _, _, _, _, _, _, _, _, h⟩ := complete_posts n cid status sub r0 r1 s; rw [h]

@[simp] theorem complete_res (n : Fin 64) (cid status sub : Nat) (r0 r1 : W64) (s : State) : (complete n cid status sub r0 r1 s).res = s.res := by
  obtain ⟨_, _, _, _, _, _, _, _, _, h⟩ := complete_posts n cid status sub r0 r1 s; rw [h]

@[simp] theorem complete_th (n : Fin 64) (cid status sub : Nat) (r0 r1 : W64) (s : State) : (complete n cid status sub r0 r1 s).th = s.th := by
  obtain ⟨_, _, _, _, _, _, _, _, _, h⟩ := complete_posts n cid status sub r0 r1 s; rw [h]

@[simp] theorem complete_tl (n : Fin 64) (cid status sub : Nat) (r0 r1 : W64) (s : State) : (complete n cid status sub r0 r1 s).tl = s.tl := by
  obtain ⟨_, _, _, _, _, _, _, _, _, h⟩ := complete_posts n cid status sub r0 r1 s; rw [h]

@[simp] theorem complete_pu (n : Fin 64) (cid status sub : Nat) (r0 r1 : W64) (s : State) : (complete n cid status sub r0 r1 s).pu = s.pu := by
  obtain ⟨_, _, _, _, _, _, _, _, _, h⟩ := complete_posts n cid status sub r0 r1 s; rw [h]

@[simp] theorem complete_stp (n : Fin 64) (cid status sub : Nat) (r0 r1 : W64) (s : State) : (complete n cid status sub r0 r1 s).stp = s.stp := by
  obtain ⟨_, _, _, _, _, _, _, _, _, h⟩ := complete_posts n cid status sub r0 r1 s; rw [h]

@[simp] theorem complete_fab (n : Fin 64) (cid status sub : Nat) (r0 r1 : W64) (s : State) : (complete n cid status sub r0 r1 s).fab = s.fab := by
  obtain ⟨_, _, _, _, _, _, _, _, _, h⟩ := complete_posts n cid status sub r0 r1 s; rw [h]

@[simp] theorem complete_pm (n : Fin 64) (cid status sub : Nat) (r0 r1 : W64) (s : State) : (complete n cid status sub r0 r1 s).pm = s.pm := by
  obtain ⟨_, _, _, _, _, _, _, _, _, h⟩ := complete_posts n cid status sub r0 r1 s; rw [h]

@[simp] theorem complete_fw (n : Fin 64) (cid status sub : Nat) (r0 r1 : W64) (s : State) : (complete n cid status sub r0 r1 s).fw = s.fw := by
  obtain ⟨_, _, _, _, _, _, _, _, _, h⟩ := complete_posts n cid status sub r0 r1 s; rw [h]

@[simp] theorem complete_ty (n : Fin 64) (cid status sub : Nat) (r0 r1 : W64) (s : State) : (complete n cid status sub r0 r1 s).ty = s.ty := by
  obtain ⟨_, _, _, _, _, _, _, _, _, h⟩ := complete_posts n cid status sub r0 r1 s; rw [h]

@[simp] theorem complete_sb (n : Fin 64) (cid status sub : Nat) (r0 r1 : W64) (s : State) : (complete n cid status sub r0 r1 s).sb = s.sb := by
  obtain ⟨_, _, _, _, _, _, _, _, _, h⟩ := complete_posts n cid status sub r0 r1 s; rw [h]

/-! ### Messages of the fabric -/

/-- `t` differs from `s` in what it has sent and in its Henur ports, and in nothing else. -/
def SendsOnly (s t : State) : Prop := ∃ out ports, t = { s with out := out, fab := { s.fab with ports := ports } }

theorem SendsOnly.refl (s : State) : SendsOnly s s := ⟨s.out, s.fab.ports, rfl⟩

theorem SendsOnly.trans {s t u : State} (h : SendsOnly s t) (k : SendsOnly t u) : SendsOnly s u := by
  obtain ⟨_, _, rfl⟩ := h
  obtain ⟨o, p, rfl⟩ := k
  exact ⟨o, p, rfl⟩

theorem emit_sends (o : Output) (s : State) : SendsOnly s (emit o s) := ⟨_, s.fab.ports, rfl⟩

theorem modPort_sends (p : Fin 9) (f : Port → Port) (s : State) : SendsOnly s (modPort p f s) := ⟨s.out, _, rfl⟩

theorem sendNow_sends (p : Fin 9) (m : TxMsg) (s : State) : SendsOnly s (sendNow p m s) := (modPort_sends _ _ s).trans (emit_sends _ _)

theorem pumpVc_sends (p : Fin 9) (vc : Fin 5) (fuel : Nat) (s : State) : SendsOnly s (pumpVc p vc fuel s) := by
  induction fuel generalizing s with
  | zero => exact SendsOnly.refl s
  | succ fuel ih =>
    simp only [pumpVc]
    split
    · exact SendsOnly.refl s
    · split
      · exact (modPort_sends _ _ s).trans ((sendNow_sends _ _ _).trans (ih _))
      · exact SendsOnly.refl s

theorem pump_sends (p : Fin 9) (s : State) : SendsOnly s (pump p s) :=
  foldl_keeps (SendsOnly s) _ (fun _ _ h => h.trans (pumpVc_sends _ _ _ _)) _ _ (SendsOnly.refl s)

/-- A message is handed to a port (R422–R425). -/
theorem sendOn_sends (p : Fin 9) (vc : Nat) (request : Bool) (m : List Byte) (s : State) : SendsOnly s (sendOn p vc request m s) := by
  simp only [sendOn]
  split
  · exact (modPort_sends _ _ s).trans (pump_sends _ _)
  · exact SendsOnly.refl s

/-- A routed message goes to the routed port (R431). -/
theorem sendRouted_sends (dst vc : Nat) (request : Bool) (m : List Byte) (s : State) : SendsOnly s (sendRouted dst vc request m s).2 := by
  simp only [sendRouted]
  split
  · exact sendOn_sends _ _ _ _ s
  · exact SendsOnly.refl s

theorem rawSend_sends (p : Fin 9) (m : List Byte) (s : State) : SendsOnly s (rawSend p m s) := (modPort_sends _ _ s).trans (emit_sends _ _)

theorem sendAck_sends (p : Fin 9) (nak : Bool) (s : State) : SendsOnly s (sendAck p nak s) := (modPort_sends _ _ s).trans (emit_sends _ _)

theorem sendCredit_sends (p : Fin 9) (s : State) : SendsOnly s (sendCredit p s) := by
  simp only [sendCredit]
  split
  · exact SendsOnly.refl s
  · exact (modPort_sends _ _ s).trans (sendOn_sends _ _ _ _ _)

/-- A received message is taken and its flits are freed (R425). -/
theorem consumeMsg_sends (p : Fin 9) (vc : Fin 5) (m : List Byte) (s : State) : SendsOnly s (consumeMsg p vc m s) := by
  simp only [consumeMsg]
  split
  · exact SendsOnly.refl s
  · split
    · exact (modPort_sends _ _ s).trans (sendCredit_sends _ _)
    · exact modPort_sends _ _ s

/-- This device's id does not change. -/
theorem SendsOnly.ownDev {s t : State} (h : SendsOnly s t) : Machine.ownDev t = Machine.ownDev s := by
  obtain ⟨_, _, rfl⟩ := h; rfl

@[simp] theorem consumeMsg_pending (p : Fin 9) (vc : Fin 5) (m : List Byte) (s : State) : (consumeMsg p vc m s).pending = s.pending := by
  obtain ⟨_, _, h⟩ := consumeMsg_sends p vc m s; rw [h]

@[simp] theorem consumeMsg_freeCtr (p : Fin 9) (vc : Fin 5) (m : List Byte) (s : State) : (consumeMsg p vc m s).freeCtr = s.freeCtr := by
  obtain ⟨_, _, h⟩ := consumeMsg_sends p vc m s; rw [h]

@[simp] theorem consumeMsg_host (p : Fin 9) (vc : Fin 5) (m : List Byte) (s : State) : (consumeMsg p vc m s).host = s.host := by
  obtain ⟨_, _, h⟩ := consumeMsg_sends p vc m s; rw [h]

@[simp] theorem consumeMsg_hostBad (p : Fin 9) (vc : Fin 5) (m : List Byte) (s : State) : (consumeMsg p vc m s).hostBad = s.hostBad := by
  obtain ⟨_, _, h⟩ := consumeMsg_sends p vc m s; rw [h]

@[simp] theorem consumeMsg_er (p : Fin 9) (vc : Fin 5) (m : List Byte) (s : State) : (consumeMsg p vc m s).er = s.er := by
  obtain ⟨_, _, h⟩ := consumeMsg_sends p vc m s; rw [h]

@[simp] theorem consumeMsg_gg (p : Fin 9) (vc : Fin 5) (m : List Byte) (s : State) : (consumeMsg p vc m s).gg = s.gg := by
  obtain ⟨_, _, h⟩ := consumeMsg_sends p vc m s; rw [h]

@[simp] theorem consumeMsg_hl (p : Fin 9) (vc : Fin 5) (m : List Byte) (s : State) : (consumeMsg p vc m s).hl = s.hl := by
  obtain ⟨_, _, h⟩ := consumeMsg_sends p vc m s; rw [h]

@[simp] theorem consumeMsg_mb (p : Fin 9) (vc : Fin 5) (m : List Byte) (s : State) : (consumeMsg p vc m s).mb = s.mb := by
  obtain ⟨_, _, h⟩ := consumeMsg_sends p vc m s; rw [h]

@[simp] theorem consumeMsg_rst (p : Fin 9) (vc : Fin 5) (m : List Byte) (s : State) : (consumeMsg p vc m s).rst = s.rst := by
  obtain ⟨_, _, h⟩ := consumeMsg_sends p vc m s; rw [h]

@[simp] theorem consumeMsg_pins (p : Fin 9) (vc : Fin 5) (m : List Byte) (s : State) : (consumeMsg p vc m s).pins = s.pins := by
  obtain ⟨_, _, h⟩ := consumeMsg_sends p vc m s; rw [h]

@[simp] theorem consumeMsg_sq (p : Fin 9) (vc : Fin 5) (m : List Byte) (s : State) : (consumeMsg p vc m s).sq = s.sq := by
  obtain ⟨_, _, h⟩ := consumeMsg_sends p vc m s; rw [h]

@[simp] theorem consumeMsg_ram (p : Fin 9) (vc : Fin 5) (m : List Byte) (s : State) : (consumeMsg p vc m s).ram = s.ram := by
  obtain ⟨_, _, h⟩ := consumeMsg_sends p vc m s; rw [h]

@[simp] theorem consumeMsg_tbl (p : Fin 9) (vc : Fin 5) (m : List Byte) (s : State) : (consumeMsg p vc m s).tbl = s.tbl := by
  obtain ⟨_, _, h⟩ := consumeMsg_sends p vc m s; rw [h]

@[simp] theorem consumeMsg_tx (p : Fin 9) (vc : Fin 5) (m : List Byte) (s : State) : (consumeMsg p vc m s).tx = s.tx := by
  obtain ⟨_, _, h⟩ := consumeMsg_sends p vc m s; rw [h]

@[simp] theorem consumeMsg_res (p : Fin 9) (vc : Fin 5) (m : List Byte) (s : State) : (consumeMsg p vc m s).res = s.res := by
  obtain ⟨_, _, h⟩ := consumeMsg_sends p vc m s; rw [h]

@[simp] theorem consumeMsg_th (p : Fin 9) (vc : Fin 5) (m : List Byte) (s : State) : (consumeMsg p vc m s).th = s.th := by
  obtain ⟨_, _, h⟩ := consumeMsg_sends p vc m s; rw [h]

@[simp] theorem consumeMsg_tl (p : Fin 9) (vc : Fin 5) (m : List Byte) (s : State) : (consumeMsg p vc m s).tl = s.tl := by
  obtain ⟨_, _, h⟩ := consumeMsg_sends p vc m s; rw [h]

@[simp] theorem consumeMsg_pu (p : Fin 9) (vc : Fin 5) (m : List Byte) (s : State) : (consumeMsg p vc m s).pu = s.pu := by
  obtain ⟨_, _, h⟩ := consumeMsg_sends p vc m s; rw [h]

@[simp] theorem consumeMsg_stp (p : Fin 9) (vc : Fin 5) (m : List Byte) (s : State) : (consumeMsg p vc m s).stp = s.stp := by
  obtain ⟨_, _, h⟩ := consumeMsg_sends p vc m s; rw [h]

@[simp] theorem consumeMsg_pm (p : Fin 9) (vc : Fin 5) (m : List Byte) (s : State) : (consumeMsg p vc m s).pm = s.pm := by
  obtain ⟨_, _, h⟩ := consumeMsg_sends p vc m s; rw [h]

@[simp] theorem consumeMsg_fw (p : Fin 9) (vc : Fin 5) (m : List Byte) (s : State) : (consumeMsg p vc m s).fw = s.fw := by
  obtain ⟨_, _, h⟩ := consumeMsg_sends p vc m s; rw [h]

@[simp] theorem consumeMsg_ty (p : Fin 9) (vc : Fin 5) (m : List Byte) (s : State) : (consumeMsg p vc m s).ty = s.ty := by
  obtain ⟨_, _, h⟩ := consumeMsg_sends p vc m s; rw [h]

@[simp] theorem consumeMsg_sb (p : Fin 9) (vc : Fin 5) (m : List Byte) (s : State) : (consumeMsg p vc m s).sb = s.sb := by
  obtain ⟨_, _, h⟩ := consumeMsg_sends p vc m s; rw [h]

@[simp] theorem sendOn_pending (p : Fin 9) (vc : Nat) (request : Bool) (m : List Byte) (s : State) : (sendOn p vc request m s).pending = s.pending := by
  obtain ⟨_, _, h⟩ := sendOn_sends p vc request m s; rw [h]

@[simp] theorem sendOn_freeCtr (p : Fin 9) (vc : Nat) (request : Bool) (m : List Byte) (s : State) : (sendOn p vc request m s).freeCtr = s.freeCtr := by
  obtain ⟨_, _, h⟩ := sendOn_sends p vc request m s; rw [h]

@[simp] theorem sendOn_host (p : Fin 9) (vc : Nat) (request : Bool) (m : List Byte) (s : State) : (sendOn p vc request m s).host = s.host := by
  obtain ⟨_, _, h⟩ := sendOn_sends p vc request m s; rw [h]

@[simp] theorem sendOn_hostBad (p : Fin 9) (vc : Nat) (request : Bool) (m : List Byte) (s : State) : (sendOn p vc request m s).hostBad = s.hostBad := by
  obtain ⟨_, _, h⟩ := sendOn_sends p vc request m s; rw [h]

@[simp] theorem sendOn_er (p : Fin 9) (vc : Nat) (request : Bool) (m : List Byte) (s : State) : (sendOn p vc request m s).er = s.er := by
  obtain ⟨_, _, h⟩ := sendOn_sends p vc request m s; rw [h]

@[simp] theorem sendOn_gg (p : Fin 9) (vc : Nat) (request : Bool) (m : List Byte) (s : State) : (sendOn p vc request m s).gg = s.gg := by
  obtain ⟨_, _, h⟩ := sendOn_sends p vc request m s; rw [h]

@[simp] theorem sendOn_hl (p : Fin 9) (vc : Nat) (request : Bool) (m : List Byte) (s : State) : (sendOn p vc request m s).hl = s.hl := by
  obtain ⟨_, _, h⟩ := sendOn_sends p vc request m s; rw [h]

@[simp] theorem sendOn_mb (p : Fin 9) (vc : Nat) (request : Bool) (m : List Byte) (s : State) : (sendOn p vc request m s).mb = s.mb := by
  obtain ⟨_, _, h⟩ := sendOn_sends p vc request m s; rw [h]

@[simp] theorem sendOn_rst (p : Fin 9) (vc : Nat) (request : Bool) (m : List Byte) (s : State) : (sendOn p vc request m s).rst = s.rst := by
  obtain ⟨_, _, h⟩ := sendOn_sends p vc request m s; rw [h]

@[simp] theorem sendOn_pins (p : Fin 9) (vc : Nat) (request : Bool) (m : List Byte) (s : State) : (sendOn p vc request m s).pins = s.pins := by
  obtain ⟨_, _, h⟩ := sendOn_sends p vc request m s; rw [h]

@[simp] theorem sendOn_sq (p : Fin 9) (vc : Nat) (request : Bool) (m : List Byte) (s : State) : (sendOn p vc request m s).sq = s.sq := by
  obtain ⟨_, _, h⟩ := sendOn_sends p vc request m s; rw [h]

@[simp] theorem sendOn_ram (p : Fin 9) (vc : Nat) (request : Bool) (m : List Byte) (s : State) : (sendOn p vc request m s).ram = s.ram := by
  obtain ⟨_, _, h⟩ := sendOn_sends p vc request m s; rw [h]

@[simp] theorem sendOn_tbl (p : Fin 9) (vc : Nat) (request : Bool) (m : List Byte) (s : State) : (sendOn p vc request m s).tbl = s.tbl := by
  obtain ⟨_, _, h⟩ := sendOn_sends p vc request m s; rw [h]

@[simp] theorem sendOn_tx (p : Fin 9) (vc : Nat) (request : Bool) (m : List Byte) (s : State) : (sendOn p vc request m s).tx = s.tx := by
  obtain ⟨_, _, h⟩ := sendOn_sends p vc request m s; rw [h]

@[simp] theorem sendOn_res (p : Fin 9) (vc : Nat) (request : Bool) (m : List Byte) (s : State) : (sendOn p vc request m s).res = s.res := by
  obtain ⟨_, _, h⟩ := sendOn_sends p vc request m s; rw [h]

@[simp] theorem sendOn_th (p : Fin 9) (vc : Nat) (request : Bool) (m : List Byte) (s : State) : (sendOn p vc request m s).th = s.th := by
  obtain ⟨_, _, h⟩ := sendOn_sends p vc request m s; rw [h]

@[simp] theorem sendOn_tl (p : Fin 9) (vc : Nat) (request : Bool) (m : List Byte) (s : State) : (sendOn p vc request m s).tl = s.tl := by
  obtain ⟨_, _, h⟩ := sendOn_sends p vc request m s; rw [h]

@[simp] theorem sendOn_pu (p : Fin 9) (vc : Nat) (request : Bool) (m : List Byte) (s : State) : (sendOn p vc request m s).pu = s.pu := by
  obtain ⟨_, _, h⟩ := sendOn_sends p vc request m s; rw [h]

@[simp] theorem sendOn_stp (p : Fin 9) (vc : Nat) (request : Bool) (m : List Byte) (s : State) : (sendOn p vc request m s).stp = s.stp := by
  obtain ⟨_, _, h⟩ := sendOn_sends p vc request m s; rw [h]

@[simp] theorem sendOn_pm (p : Fin 9) (vc : Nat) (request : Bool) (m : List Byte) (s : State) : (sendOn p vc request m s).pm = s.pm := by
  obtain ⟨_, _, h⟩ := sendOn_sends p vc request m s; rw [h]

@[simp] theorem sendOn_fw (p : Fin 9) (vc : Nat) (request : Bool) (m : List Byte) (s : State) : (sendOn p vc request m s).fw = s.fw := by
  obtain ⟨_, _, h⟩ := sendOn_sends p vc request m s; rw [h]

@[simp] theorem sendOn_ty (p : Fin 9) (vc : Nat) (request : Bool) (m : List Byte) (s : State) : (sendOn p vc request m s).ty = s.ty := by
  obtain ⟨_, _, h⟩ := sendOn_sends p vc request m s; rw [h]

@[simp] theorem sendOn_sb (p : Fin 9) (vc : Nat) (request : Bool) (m : List Byte) (s : State) : (sendOn p vc request m s).sb = s.sb := by
  obtain ⟨_, _, h⟩ := sendOn_sends p vc request m s; rw [h]

end Sys2Proof.Machine
end

