-- ==== Sys2Proof/Laws/Rows.lean ====
section
/-! SUPPORT. How a row's answer follows from its meaning: rows in general, mailbox commands, Pyrat instructions, halves of registers,
messages. -/

namespace Sys2Proof.Machine

open Sys2Proof

/-! ### Rows -/

theorem act_awake (f : State → State) {s : State} (h : awake s = true) : act f s = .next (settle (f s)) := by
  simp [act, h]

theorem act_asleep (f : State → State) {s : State} (h : awake s = false) : act f s = .next s := by simp [act, h]

/-- A row of an awake module answers what its effect gives. -/
theorem answers_act {c : Instr} {f : State → State} {s t : State} (hx : exec c s = act f s) (h : awake s = true) (ht : f s = t) :
    Answers c s t := by
  rw [Answers, hx, act_awake _ h, ht]

/-- A row of the inputs and of cast-on answers what its effect gives in every phase. -/
theorem answers_actAny {c : Instr} {f : State → State} {s t : State} (hx : exec c s = actAny f s) (ht : f s = t) : Answers c s t := by
  rw [Answers, hx, actAny, ht]

/-! ### Mailbox commands -/

/-- The front command that may begin runs (R153, R154, R166). -/
theorem command_front {d : CmdDef} {n : Fin 64} {e : Entry} {x : Cmd} {earlier : List Cmd} {s : State} (ho : Entry.withOpcode e d.op = e)
    (hf : frontCmd n s = some (x, earlier)) (hx : x.entry = e) (hm : mayBegin n x earlier s = true) (hh : hostReach s = true) :
    command d n e s = settleCmd n (Entry.cid e) (runCmd d n e (begun n e s)) := by
  simp only [command, ho, hf, Option.isNone_some, Bool.false_and, beginFront, hx, hm, hh]
  simp [begun]

/-- An accepted command does what its definition runs (R166). -/
theorem command_accepted {d : CmdDef} {n : Fin 64} {e : Entry} {s : State} (h : Accepted d n e s) :
    command d n e s = settleCmd n (Entry.cid e) (d.run n e (begun n e s)) := by
  obtain ⟨_, ho, ⟨c, earlier, hf, he, hm⟩, hh, hfr, hc⟩ := h
  rw [command_front ho hf he hm hh]
  have : ¬(d.op = 0x01 ∧ (begun n e s).mb.negotiated = true) := hfr
  simp only [runCmd, this, if_false, hc]

theorem exec_accepted {d : CmdDef} {n : Fin 64} {e : Entry} {s : State} {c : Instr} {r : CmdEnd × State}
    (hx : exec c s = act (command d n e) s) (h : Accepted d n e s) (hr : d.run n e (begun n e s) = r) :
    exec c s = .next (settle (settleCmd n (Entry.cid e) r)) := by
  rw [hx, act_awake _ h.awake, command_accepted h, hr]

theorem accepted_done {d : CmdDef} {n : Fin 64} {e : Entry} {s t : State} {c : Instr} {st sub : Nat} {r0 r1 : W64}
    (hx : exec c s = act (command d n e) s) (h : Accepted d n e s) (hr : d.run n e (begun n e s) = (.done st sub r0 r1, t)) :
    Answers c s (complete n (Entry.cid e) st sub r0 r1 t) := by
  simpa only [Answers, settleCmd] using exec_accepted hx h hr

theorem accepted_fail {d : CmdDef} {n : Fin 64} {e : Entry} {s t : State} {c : Instr} {st sub : Nat} {r0 : W64}
    (hx : exec c s = act (command d n e) s) (h : Accepted d n e s) (hr : d.run n e (begun n e s) = (.fail st sub r0, t)) :
    Answers c s (complete n (Entry.cid e) st sub r0 0 t) := by
  simpa only [Answers, settleCmd] using exec_accepted hx h hr

theorem accepted_works {d : CmdDef} {n : Fin 64} {e : Entry} {s t : State} {c : Instr}
    (hx : exec c s = act (command d n e) s) (h : Accepted d n e s) (hr : d.run n e (begun n e s) = (.works, t)) : Works c n e s t := by
  simpa only [Answers, Works, settleCmd] using exec_accepted hx h hr

theorem accepted_marked {d : CmdDef} {n : Fin 64} {e : Entry} {s t : State} {c : Instr}
    (hx : exec c s = act (command d n e) s) (h : Accepted d n e s) (hr : d.run n e (begun n e s) = (.marked, t)) : Answers c s t := by
  simpa only [Answers, settleCmd] using exec_accepted hx h hr

theorem Accepted.reach {d : CmdDef} {n : Fin 64} {e : Entry} {s : State} (h : Accepted d n e s) : hostReach (begun n e s) = true := h.host

/-- A write to the buffer of an accepted command lands. -/
theorem writeBuf_accepted {d : CmdDef} {n : Fin 64} {e : Entry} {s : State} (h : Accepted d n e s) (bs : List Byte) :
    writeBuf e bs (begun n e s) = buffered e bs (begun n e s) := by
  simp [writeBuf, hostWrite, h.reach, buffered]

/-- A command whose own part is its mark schedules as `Schedules` says (R166, R168). -/
theorem accepted_schedules {d : CmdDef} {n : Fin 64} {e : Entry} {s : State} {c : Instr} {kind tag : Nat}
    (hx : exec c s = act (command d n e) s) (h : Accepted d n e s)
    (hr : d.run n e (begun n e s) = schedule [ownEntry n e kind tag] (begun n e s)) : Schedules c n e s kind tag := by
  intro h1
  have hp : (ownEntry n e kind tag).periodic = Entry.periodic e := rfl
  constructor
  · intro hq
    refine accepted_marked hx h ?_
    rw [hr]; simp [schedule, h1, hp, hq]
  · intro hq i hi
    refine accepted_done hx h ?_
    have hi : kvFree (begun n e s).gg.sched 0 256 = some i := hi
    rw [hr]; simp [schedule, h1, hp, hq, hi, okEnd]

/-! ### Pyrat instructions -/

theorem issue_runs {op : POp} {key : Nat} {s : State} {t : Thread} {u : PUnit} {left : Nat} (h : Issues op key s t u left) (m : Meaning) :
    issue op m key s = iterate m key u left t s := by
  obtain ⟨_, hc, hr, hf, hn, hcount⟩ := h
  rcases hcount with h1 | ⟨h1, ⟨h2, h3⟩ | h2⟩ <;> simp [issue, hc, hr, hf, hn, runUnit, *]

@[simp] theorem iterating_sd (u : PUnit) (left : Nat) (t : Thread) : (iterating u left t).sd = t.sd := by
  simp only [iterating]; split <;> rfl

/-- An iteration whose meaning is done retires (R309, R312). -/
theorem issue_done {op : POp} {key : Nat} {s s' : State} {t t' : Thread} {u : PUnit} {left : Nat} {jump : Option Nat}
    (h : Runs op key s t u left) (m : Meaning) (hm : m key u.ins (iterating u left t) s = .done t' jump s') :
    issue op m key s = putThread key (retire key u left jump t') s' := by
  rw [issue_runs h.issues]
  have hg := h.guard
  simp only [iterating] at hm hg
  simp only [iterate, hg, hm]
  simp

/-- An iteration whose meaning holds leaves the context held (R317). -/
theorem issue_hold {op : POp} {key : Nat} {s s' : State} {t : Thread} {u : PUnit} {left : Nat} {w : Hold}
    (h : Runs op key s t u left) (m : Meaning) (hm : m key u.ins (iterating u left t) s = .hold w s') :
    issue op m key s = putThread key { iterating u left t with hold := w } s' := by
  rw [issue_runs h.issues]
  have hg := h.guard
  simp only [iterating] at hm hg ⊢
  simp only [iterate, hg, hm]
  simp

theorem retires_of {c : Instr} {op : POp} {key : Nat} {s s' : State} {t t' : Thread} {u : PUnit} {left : Nat} {m : Meaning}
    {jump : Option Nat} (hx : ∀ s, exec c s = act (issue op m key) s) (h : Runs op key s t u left)
    (hm : m key u.ins (iterating u left t) s = .done t' jump s') : Retires c key u left jump s t' s' :=
  answers_act (hx s) h.issues.awake (issue_done h m hm)

/-! ### Halves of registers -/

theorem barOpen_awake {s : State} (h : barOpen s = true) : awake s = true := by
  simp only [barOpen, Bool.and_eq_true] at h; exact h.1

theorem barOpen_full {s : State} (h : barOpen s = true) : barMode s = .full := by
  simp only [barOpen, Bool.and_eq_true, decide_eq_true_eq] at h; exact h.2

theorem reads_wide {c : RegPart → Instr} {off v : Nat} {s t : State} (r : Reg) (hx : ∀ p, exec (c p) s = act (partRead off p) s)
    (h : barOpen s = true) (h1 : regAt off = some (r, false)) (h2 : regAt (off + 4) = some (r, true)) (hw : r.wide = true)
    (ha : off % 8 = 0) (hv : r.value s = v) (ht : r.onRead s = t) : ReadsWide c off v s t := by
  have hm := barOpen_full h
  have h4 : off % 4 = 0 := by omega
  refine ⟨?_, ?_, ?_, ?_⟩
  · refine answers_act (hx _) (barOpen_awake h) ?_
    simp [partRead, barRead, hm, tooEarly, ha, read8, h1, hw, hv, ht]
  · refine answers_act (hx _) (barOpen_awake h) ?_
    simp [partRead, barRead, hm, tooEarly, h4, read4, h1, hw, hv, ht]
  · intro x hl
    refine answers_act (hx _) (barOpen_awake h) ?_
    simp [partRead, barRead, hm, tooEarly, h4, read4, h2, hl]
  · intro hl
    refine answers_act (hx _) (barOpen_awake h) ?_
    simp [partRead, barRead, hm, tooEarly, h4, read4, h2, hl, hv]

/-! ### Messages -/

/-- A message that has arrived for this device is handled, its flits freed (R425, R432, R438). -/
theorem receiveMsg_arrives {type : Nat} {p : Fin 9} {vc : Fin 5} {m : List Byte} {s : State} (h : Arrives type p vc m s)
    (handle : State → State) : receiveMsg type p vc m handle s = handle (consumeMsg p vc m s) := by
  have ho : otherType type m = false := by simp [otherType, h.type]
  simp only [receiveMsg, h.joined, ho, h.form]
  simp
  intro h1 h2
  exact absurd (h.here h1) (by rw [(consumeMsg_sends p vc m s).ownDev] at h2; exact h2)

end Sys2Proof.Machine
end

