-- ==== Sys2Proof/Tests/Slice0.lean ====
section
/-! SUPPORT. The author's own tests: ill-formed operands are refused, some rows step as the spec's rules say, and every hypothesis of an
obligation is met by some state. A `witness_` theorem is named after its obligation. -/

namespace Sys2Proof.Tests

set_option Elab.async false

open Sys2Proof Sys2Proof.Machine

/-! ### Small states -/

/-- An operational module: queue pair 0 is enabled and every feature is granted. -/
def live : State := { State.reset with
  rst := { State.reset.rst with phase := .up, stage := 7, ready := true, hostOn := true, recountDone := true }
  hl := { State.reset.hl with up := true, width := 16, rate := 6, bme := true, bmeArmed := true }
  pins := { State.reset.pins with mainValid := true, auxValid := true, powerGood := true }
  mb := { State.reset.mb with
    negotiated := true, features := BitVec.allOnes 128
    qps := vset State.reset.mb.qps 0 { state := .enabled, sqBase := 0x10000, cqBase := 0x20000, irqEn := true } } }

/-- Before NEGOTIATE, in stage S5. -/
def fresh : State := { live with rst := { live.rst with stage := 5 }, mb := { live.mb with negotiated := false, features := 0 } }

/-- A submission entry with CID 7; the other fields are byte offsets and values. -/
def ent (op : Nat) (fs : List (Nat × Nat)) : Entry :=
  BitVec.ofNat 512 (op + 7 * 2 ^ 16 + (fs.map (fun f => f.2 * 2 ^ (8 * f.1))).sum)

/-- The entry has been fetched on queue pair `n` and nothing else is there. -/
def onQp (n : Fin 64) (e : Entry) (s : State) : State :=
  modQp n (fun q => { q with sqHead := 1, sqTail := 1
                             cmds := q.cmds ++ [⟨e, nowPoint s, 1, false, false, false, none, 0, 0, 0, .none, false⟩] }) s

def queued (e : Entry) (s : State) : State := onQp 0 e s

/-- `Accepted` as a check. -/
def accepts (d : CmdDef) (n : Fin 64) (e : Entry) (s : State) : Bool :=
  awake s && decide (Entry.withOpcode e d.op = e)
    && (match frontCmd n s with | some (c, earlier) => decide (c.entry = e) && mayBegin n c earlier s | none => false)
    && hostReach s && !(decide (d.op = 0x01) && s.mb.negotiated) && decide (cmdRefusal d n e (begun n e s) = none)

theorem accepted_of_accepts {d : CmdDef} {n : Fin 64} {e : Entry} {s : State} (h : accepts d n e s = true) : Accepted d n e s := by
  simp only [accepts, Bool.and_eq_true, decide_eq_true_eq, Bool.not_eq_true', Bool.and_eq_false_imp] at h
  obtain ⟨⟨⟨⟨⟨h1, h2⟩, h3⟩, h4⟩, h5⟩, h6⟩ := h
  refine ⟨h1, h2, ?_, h4, fun hh => ?_, h6⟩
  · cases hf : frontCmd n s with
    | none => simp [hf] at h3
    | some x => obtain ⟨c, l⟩ := x; simp [hf] at h3; exact ⟨c, l, rfl, h3.1, h3.2⟩
  · simp [hh.1, hh.2] at h5

/-- What a row's answer holds: `f` of the next state. -/
def after {α : Type} (c : Instr) (s : State) (f : State → α) : Option α :=
  match exec c s with
  | .next t => some (f t)
  | .fault _ | .refused _ => none

/-- The newest completion of queue pair 0 at index 0: status, SUBCODE, RESULT0, RESULT1. -/
def answer (c : Instr) (s : State) : Option (Nat × Nat × Nat × Nat) :=
  after c s (fun t => let b := fun o n => ofBytes (cellsRead t.host (0x20000 + o) n); (b 20 1, b 22 2, b 0 8, b 8 8))

/-- A drive that is fitted and usable. -/
def goodDrive : DriveReport := ⟨true, 0, 1000000, 131072⟩

/-! ### Well-formed operands (each check has an ill-formed term that it refuses) -/

theorem test_wf_drive : (Instr.driveUnfence 0 0 ⟨true, 8, 0, 0⟩).wf = false ∧ (Instr.portReset 0 0 ⟨true, 8, 0, 0⟩).wf = false
    ∧ (Instr.castOnS3 ⟨1, 1, 1, goodDrive, goodDrive, goodDrive, ⟨true, 8, 0, 0⟩⟩).wf = false
    ∧ (Instr.castOnS3 ⟨1, 1, 1, goodDrive, goodDrive, ⟨true, 9, 0, 0⟩, goodDrive⟩).wf = false
    ∧ (Instr.castOnS3 ⟨1, 1, 1, goodDrive, ⟨true, 8, 0, 0⟩, goodDrive, goodDrive⟩).wf = false
    ∧ (Instr.castOnS3 ⟨1, 1, 1, ⟨true, 8, 0, 0⟩, goodDrive, goodDrive, goodDrive⟩).wf = false
    ∧ (Instr.driveUnfence 0 0 ⟨true, 7, 0, 0⟩).wf = true := by decide

theorem test_wf_host : (Instr.registerWrite 0 0 0).wf = false ∧ (Instr.registerWrite 0 4 (2 ^ 32)).wf = false
    ∧ (Instr.registerWrite 0 4 (2 ^ 32 - 1)).wf = true ∧ (Instr.bar2Read 0 0 .clean).wf = false ∧ (Instr.bar2Read 0 4097 .clean).wf = false
    ∧ (Instr.bar2Write 0 []).wf = false ∧ (Instr.linkTrainingComplete 3 6 true false).wf = false
    ∧ (Instr.linkTrainingComplete 16 0 true false).wf = false ∧ (Instr.linkTrainingComplete 16 6 true false).wf = true
    ∧ (Instr.railExcursion 1 0).wf = false := by decide

theorem test_wf_queues : (∀ c ∈ [Instr.sqBadFlag 0xA00, .sqFlushRequest 0xA00, .sqFlushTakesEffect 0xA00, .sqConsumerRead 0xA00 .none,
      .staleTailTimeout 0xA00 true, .sqPacketCommit 0xA00 [0], .sqPacketCommit 0 [], .sqPacketCommit 0 (List.replicate 65 0)], c.wf = false)
    ∧ (Instr.sqPacketCommit 0x9FF (List.replicate 64 0)).wf = true := by decide

theorem test_wf_contexts : (∀ f ∈ [Instr.nop, .dup, .swap, .drop, .over_, .rot, .pick, .pushi, .pushx, .add, .sub, .and, .or, .xor, .andn, .neg,
      .not, .mins, .maxs, .minu, .maxu, .shl, .shr, .sar, .rol, .clz, .popc, .bperm, .bfx, .bfi, .mul, .mulh, .cmp, .plog, .pfrom, .pto,
      (.ld · · .clean), .loadDataArrival, .st, .aadd, .bcopy, .br, .bz, .bnz, .call, .calli, .bri, .ret, .end_, .rds, .wrs, .rdwait, .sgrd,
      .waitc, .fenceT, .fenceD, .fenceS, (.gather · · true), (.pool · · true), (.gatherAddr · · true), (.gatherResume · · true),
      (.rowAdd · · true), .stream, .mxop, (.accessPerformed · · .thread)], (f 16 1).wf = false ∧ (f 16 0).wf = true ∧ (f 15 511).wf = true) := by
  decide

theorem test_wf_messages : ∀ f ∈ [Instr.rowGet 0 0, .rowData 0 0, .rowAddReceived 0 0, .rowAck 0 0, .rowNak 0 0, .credit 0, (.gauge 0 · 0 0),
    .fwChunk 0, .hello 0, (.echoReq 0 · 0), (.echoRsp 0 · 0), .linkState 0, .drain 0, .leave 0, .messageForward 0 0],
    (f []).wf = false ∧ (f (List.replicate 47 0)).wf = false ∧ (f (List.replicate 48 0)).wf = true := by decide

/-! ### Pyrat (14, 15) -/

/-- Virtual addresses below 2^30 of tag 5 are the same addresses of T1, with every right. -/
def mapped (s : State) : State := { s with tx := { s.tx with
  spaces := kvSet s.tx.spaces 5 ⟨0x10000, 0⟩, gens := kvSet s.tx.gens 5 0, cache := [⟨5, 0, 0, 30, 0xF3⟩] } }

/-- A context with these words on its operand stack, the last of them on top. -/
def ctx (st : List W64) : Thread := {
  launch := 0, index := 0, cls := 2, tag := 5, pattern := 1, sd := st.length
  slots := Vector.ofFn (fun i => st.getD i.val 0)
  segs := Vector.ofFn (fun i => if i.val = 0 then { limit := 64, x := true } else
    { base := 0x1000 * i.val, limit := 0x1000, r := true, w := true, a := true }) }

/-- Context `key` stands at the start of this code. -/
def coded (key : Nat) (code : List Byte) (t : Thread) (s : State) : State := { mapped s with th := { s.th with
  patterns := [(1, ⟨keyPlain key, code⟩)], threads := [(key, t)] } }

/-- One 32-bit instruction. -/
def ins (op : POp) (sub imm : Nat) : Machine.PUnit := ⟨.once, ⟨op, sub, imm, false, 0, 4⟩, 4⟩

/-- Context 0 of tile 0 stands at one instruction. -/
def at0 (op : POp) (sub imm : Nat) (t : Thread) : State := coded 0 (encodeUnit (ins op sub imm)) t live

/-- `Runs`, as a check. -/
def runs (op : POp) (key : Nat) (s : State) (t : Thread) (u : Machine.PUnit) (left : Nat) : Bool :=
  awake s && decide (threadAt key s = some t) && canIssue t s && decide (fetchUnit (t.code s) t.pc = .unit u) && decide (u.ins.op = op)
    && (decide (t.rep = some left) || decide (t.rep = none) && (decide (u.rep = .once ∧ left = 1) || decide (u.rep = .repu left)))
    && (iterating u left t).guard u.ins

theorem runs_of_check {op : POp} {key : Nat} {s : State} {t : Thread} {u : Machine.PUnit} {left : Nat} (h : runs op key s t u left = true) :
    Runs op key s t u left := by
  simp only [runs, Bool.and_eq_true, Bool.or_eq_true, decide_eq_true_eq] at h
  exact ⟨⟨h.1.1.1.1.1.1, h.1.1.1.1.1.2, h.1.1.1.1.2, h.1.1.1.2, h.1.1.2, h.1.2⟩, h.2⟩

/-- The words on the operand stack of context 0, the last of them on top. -/
def wordsOf (s : State) : Option (List W64) := (threadAt 0 s).map (fun t => (List.range t.sd).map (fun i => t.slots[(Fin.ofNat 16 i : Fin 16)]))

/-- Each row, from the stack before to the stack after. -/
def stacked (rows : List ((Fin 17 → Fin 512 → Instr) × POp × Nat × Nat × List W64 × List W64)) : Bool :=
  rows.all (fun (c, op, sub, imm, a, b) => after (c 0 0) (at0 op sub imm (ctx a)) wordsOf == some (some b))

/-- R326. -/
theorem test_stack : stacked [(.nop, .nop, 0, 0, [1], [1]), (.dup, .dup, 1, 0, [1, 2], [1, 2, 2]), (.swap, .swap, 2, 0, [1, 2], [2, 1]),
    (.drop, .drop, 3, 0, [1, 2], [1]), (.over_, .over_, 4, 0, [1, 2], [1, 2, 1]), (.rot, .rot, 5, 0, [1, 2, 3], [2, 3, 1]),
    (.pick, .pick, 6, 2, [1, 2, 3], [1, 2, 3, 1]), (.pushi, .pushi, 0, 0x8000, [], [0xFFFFFFFFFFFF8000]),
    (.pushx, .pushx, 0, 0x8001, [0x5], [0x58001])] = true := by decide +kernel

/-- R328. -/
theorem test_arithmetic : stacked [(.add, .add, 0, 0, [0xFFFFFFFFFFFFFFFF, 2], [1]), (.sub, .sub, 1, 0, [1, 2], [0xFFFFFFFFFFFFFFFF]),
    (.and, .and, 2, 0, [6, 3], [2]), (.or, .or, 3, 0, [6, 3], [7]), (.xor, .xor, 4, 0, [6, 3], [5]), (.andn, .andn, 5, 0, [6, 3], [4]),
    (.neg, .neg, 6, 0, [1], [0xFFFFFFFFFFFFFFFF]), (.not, .not, 7, 0, [0], [0xFFFFFFFFFFFFFFFF]),
    (.mins, .mins, 8, 0, [0x8000000000000000, 1], [0x8000000000000000]), (.maxs, .maxs, 9, 0, [0x8000000000000000, 1], [1]),
    (.minu, .minu, 10, 0, [0x8000000000000000, 1], [1]), (.maxu, .maxu, 11, 0, [0x8000000000000000, 1], [0x8000000000000000])] = true := by
  decide +kernel

/-- R328–R330. -/
theorem test_bits : stacked [(.shl, .shl, 0, 63, [3], [0x8000000000000000]), (.shl, .shl, 4, 0, [3, 65], [6]),
    (.shr, .shr, 1, 63, [0x8000000000000000], [1]), (.shr, .shr, 5, 0, [4, 66], [1]), (.sar, .sar, 2, 63, [0x8000000000000000], [0xFFFFFFFFFFFFFFFF]),
    (.sar, .sar, 6, 0, [0x8000000000000000, 62], [0xFFFFFFFFFFFFFFFE]), (.rol, .rol, 3, 4, [0xF000000000000001], [0x1F]),
    (.rol, .rol, 7, 0, [0x8000000000000000, 1], [1]), (.clz, .clz, 0, 0, [0], [64]), (.clz, .clz, 0, 0, [1], [63]),
    (.popc, .popc, 1, 0, [0xFF00], [8]), (.bperm, .bperm, 2, 0, [0x8877665544332211, 0x01234567], [0x1122334455667788]),
    (.bperm, .bperm, 2, 0, [0x8877665544332211, 0xF], [0x11111111111111FF]), (.bfx, .bfx, 0, 8 + 64 * 8, [0x1234], [0x12]),
    (.bfx, .bfx, 3, 0, [0xFF00, 8, 8], [0xFFFFFFFFFFFFFFFF]), (.bfi, .bfi, 0, 8 + 64 * 8, [0x1234, 0xAB], [0xAB34]),
    (.bfi, .bfi, 1, 0, [0x1234, 0xAB, 8, 0], [0x1234])] = true := by
  decide +kernel

/-- R331–R333: the product of MUL and the high half of MULH stand as pending deliveries, CMP, PLOG and PFROM write their predicate. -/
theorem test_results : after (.mul 0 0) (at0 .mul 0 0 (ctx [0xFFFFFFFFFFFFFFFF, 2])) (fun s => (threadAt 0 s).map (·.muls)) =
      some (some [⟨1, 0xFFFFFFFFFFFFFFFE, 1⟩])
    ∧ after (.mulh 0 0) (at0 .mulh 1 0 (ctx [0xFFFFFFFFFFFFFFFF, 2])) (fun s => (threadAt 0 s).map (·.muls)) =
      some (some [⟨1, 0xFFFFFFFFFFFFFFFE, 0xFFFFFFFFFFFFFFFF⟩])
    ∧ after (.cmp 0 0) (at0 .cmp 2 3 (ctx [0xFFFFFFFFFFFFFFFF, 0])) (fun s => (threadAt 0 s).map (·.preds)) = some (some 9)
    ∧ after (.plog 0 0) (at0 .plog 3 (2 + 64 * 1) { ctx [] with preds := 1 }) (fun s => (threadAt 0 s).map (·.preds)) = some (some 5)
    ∧ after (.pfrom 0 0) (at0 .pfrom 0 7 (ctx [4])) (fun s => (threadAt 0 s).map (·.preds)) = some (some 0x81) := by decide +kernel

/-- Pop `n` words, then push `m`. -/
def popPush (key n m : Nat) (t : Thread) (s : State) : Bool :=
  match (popAll key n t s).andThen fun _ t s => pushAll key (List.replicate m 0) t s with
  | .ok _ _ _ => true
  | .stop _ => false

/-- The instruction runs on this stack, and its pops and pushes go through. -/
def fits (op : POp) (sub imm n m : Nat) (st : List W64) : Bool :=
  runs op 0 (at0 op sub imm (ctx st)) (ctx st) (ins op sub imm) 1 && decide (n ≤ st.length) && popPush 0 n m (ctx st) (at0 op sub imm (ctx st))

theorem witness_PyratUnary : ([(.neg, 6, 0), (.not, 7, 0), (.pushx, 0, 9), (.clz, 0, 0), (.popc, 1, 0), (.shl, 0, 63), (.shr, 1, 63), (.sar, 2, 63),
    (.rol, 3, 63), (.bfx, 0, 63 + 64), (.bfx, 2, 64 * 64)] : List (POp × Nat × Nat)).all (fun x => fits x.1 x.2.1 x.2.2 1 1 [5]) = true := by
  decide +kernel

theorem witness_PyratBinary : ([(.add, 0, 0), (.sub, 1, 0), (.and, 2, 0), (.or, 3, 0), (.xor, 4, 0), (.andn, 5, 0), (.mins, 8, 0), (.maxs, 9, 0),
    (.minu, 10, 0), (.maxu, 11, 0), (.bperm, 2, 0), (.shl, 4, 0), (.shr, 5, 0), (.sar, 6, 0), (.rol, 7, 0), (.bfi, 0, 63 + 64)] :
      List (POp × Nat × Nat)).all (fun x => fits x.1 x.2.1 x.2.2 2 1 [5, 6]) = true := by decide +kernel

theorem witness_PyratStackFields : fits .bfx 1 0 3 1 [9, 8, 64] = true ∧ fits .bfi 1 0 4 1 [9, 8, 7, 127] = true := by decide +kernel

theorem witness_PyratBitResults : (63 : Nat) < 64 ∧ (64 : Nat) ≤ 64 ∧ (7 : Nat) < 8 ∧ (1 : W64) ≠ 0 ∧ (1 : W64).getLsbD 0 = true := by decide

theorem witness_PyratStack : fits .nop 0 0 0 0 [] = true ∧ fits .dup 1 0 1 2 [1] = true ∧ fits .drop 3 0 1 0 [1] = true
    ∧ fits .swap 2 0 2 2 [1, 2] = true ∧ fits .over_ 4 0 2 3 [1, 2] = true ∧ fits .rot 5 0 3 3 [1, 2, 3] = true ∧ fits .pick 6 0 1 1 [1] = true
    ∧ fits .pushi 0 0xFFFF 0 1 [] = true ∧ fits .pto 1 7 0 1 [] = true ∧ fits .rds 0 6 0 1 [] = true ∧ fits .sgrd 0 7 0 2 [] = true
    ∧ fits .rdwait 0 1 0 1 [] = true := by decide +kernel

/-- A context with `n` words on its stack, the deepest of them spilled. -/
def deep (n : Nat) : Thread := { ctx [] with sd := n }

theorem witness_PyratStackWindow : (deep 15).sd < 16 ∧ (deep 16).sd ≤ 16
    ∧ popPush 0 0 1 (deep 16) (at0 .nop 0 0 (deep 16)) = true ∧ popPush 0 1 0 (deep 17) (at0 .nop 0 0 (deep 17)) = true := by decide +kernel

theorem witness_PyratResults : fits .mul 0 0 2 0 [1, 2] = true ∧ fits .mulh 1 0 2 0 [1, 2] = true ∧ fits .cmp 9 7 2 0 [1, 2] = true
    ∧ fits .pfrom 0 0 1 0 [1] = true ∧ fits .wrs 0 4 1 0 [1] = true ∧ fits .plog 3 0x1FF 0 0 [] = true := by decide +kernel

/-- A step on a context goes through. -/
def ok {α : Type} (x : TStep α) : Bool :=
  match x with
  | .ok _ _ _ => true
  | .stop _ => false

/-- R334, R335: a signed load from segment 2, a store, an AADD that returns the old value; the bytes stand at 0x2000 of T1. -/
theorem test_memory :
    after (.ld 0 0 .clean) (t1Put 0x2008 [0xFE, 0xFF] (at0 .ld 5 0x4008 (ctx []))) wordsOf = some (some [0xFFFFFFFFFFFFFFFE])
    ∧ after (.st 0 0) (at0 .st 1 0x4008 (ctx [0x12345])) (fun s => t1Read 0x2008 3 s) = some [0x45, 0x23, 0]
    ∧ after (.aadd 0 0) (t1Put 0x2008 [0xFF, 0xFF, 0xFF, 0xFF] (at0 .aadd 6 0x4008 (ctx [2]))) (fun s => (wordsOf s, t1Read 0x2008 4 s))
      = some (some [0xFFFFFFFF], [1, 0, 0, 0]) := by decide +kernel

theorem witness_PyratMemory :
    (let t := ctx [1]; let s := at0 .ld 8 0x4000 t
      runs .ld 0 s t (ins .ld 8 0x4000) 1 = true ∧ ok ((accessOff 0 (ins .ld 8 0x4000).ins t s).andThen fun o t s =>
        (threadRead 0 2 o 1 .clean t s).andThen fun bs t s => pushLoaded 0 (loadValue (ins .ld 8 0x4000).ins bs) t s) = true)
    ∧ (let t := ctx [1]; let s := at0 .st 3 0x4000 t
      runs .st 0 s t (ins .st 3 0x4000) 1 = true ∧ ok ((accessOff 0 (ins .st 3 0x4000).ins t s).andThen fun o t s =>
        (pop 0 t s).andThen fun v t s => threadStore 0 2 o (toBytes 8 v.toNat) t s) = true)
    ∧ (∀ sub ∈ [2, 3, 6, 7], let t := ctx [1]; let s := at0 .aadd sub 0x4000 t
      runs .aadd 0 s t (ins .aadd sub 0x4000) 1 = true ∧ ok ((accessOff 0 (ins .aadd sub 0x4000).ins t s).andThen fun o t s =>
        (pop 0 t s).andThen fun v t s => (atomicRead 0 2 o (2 ^ (sub % 4)) (sub.testBit 2) t s).andThen fun old t s =>
          (atomicWrite 0 2 o (toBytes (2 ^ (sub % 4)) (ofBytes old + v.toNat)) t s).andThen fun _ t s => pushLoaded 0 0 t s) = true)
    ∧ fits .bcopy 3 (1 + 8 * 2) 3 0 [0, 0, 32] = true ∧ ((ctx []).cc[(3 : Fin 4)]).out < 255 := by decide +kernel

theorem witness_PyratSegmentFault : runs .ld 0 (at0 .ld 3 0x5FF9 (ctx [])) (ctx []) (ins .ld 3 0x5FF9) 1 = true
    ∧ ((ctx []).segs[immSeg 0x5FF9]).limit < immOff 0x5FF9 + 8 ∧ runs .st 0 (at0 .st 3 0 (ctx [1])) (ctx [1]) (ins .st 3 0) 1 = true
    ∧ ((ctx [1]).segs[immSeg 0]).w = false := by decide +kernel

/-- R337, R338: a taken BNZ counts halfwords from its own start; CALL pushes the offset after it. -/
theorem test_control : after (.bnz 0 0) (at0 .bnz 0 8 (ctx [1])) (fun s => (threadAt 0 s).map (·.pc)) = some (some 16)
    ∧ after (.call 0 0) (at0 .call 0 0xFFFE (ctx [])) (fun s => (wordsOf s, (threadAt 0 s).map (·.pc))) = some (some [4], some (2 ^ 64 - 4)) := by
  decide +kernel

theorem witness_PyratControl : fits .br 0 8 0 0 [] = true ∧ fits .bz 0 8 1 0 [0] = true ∧ fits .bnz 0 8 1 0 [0] = true
    ∧ fits .bri 0 0 1 0 [6] = true ∧ fits .ret 2 0 1 0 [6] = true ∧ fits .calli 1 0 1 1 [6] = true ∧ fits .call 0 8 0 1 [] = true
    ∧ fits .end_ 0 0 0 0 [] = true := by decide +kernel

theorem witness_PyratWaits : fits .waitc 0 3 0 1 [] = true ∧ ((ctx []).cc[(3 : Fin 4)]).out ≤ 3 / 256 % 256
    ∧ (let t := { ctx [] with cc := vset (ctx []).cc 1 { out := 1 } }
      runs .waitc 0 (at0 .waitc 0 1 t) t (ins .waitc 0 1) 1 = true ∧ 1 / 256 % 256 < (t.cc[(1 : Fin 4)]).out)
    ∧ (∀ x ∈ [(POp.fenceT, 0, FenceScope.thread), (.fenceD, 1, .device), (.fenceS, 2, .system)],
      (let t := ctx []; let s := at0 x.1 x.2.1 0 t
        runs x.1 0 s t (ins x.1 x.2.1 0) 1 = true ∧ fenceClear 0 x.2.2 t s = true)
      ∧ (let t := { ctx [] with unT := 1, unD := 1, unS := 1 }; let s := at0 x.1 x.2.1 0 t
        runs x.1 0 s t (ins x.1 x.2.1 0) 1 = true ∧ fenceClear 0 x.2.2 t s = false))
    ∧ (let t := { ctx [] with hold := .data }; let s := at0 .nop 0 0 t; awake s = true ∧ threadAt 0 s = some t ∧ t.hold = .data) := by
  decide +kernel

/-- Table 9: 4,096 rows of 8 FP32 elements at 2^30 of tag 5, its directory at 0x100000; block 0 stands in frame 0x30, block 1 is a ZERO block. -/
def table9 : Table := Table.parse (9 + 5 * 2 ^ 20 + 2 ^ 48 + 8 * 2 ^ 64 + 32 * 2 ^ 80 + 4096 * 2 ^ 128 + 2 ^ 30 * 2 ^ 256 + 0x100000 * 2 ^ 320
  + 2 ^ 384 + 4096 * 2 ^ 512)

def shelved (s : State) : State :=
  let s := mapped s
  t1Put 0x100000 (toBytes 32 (1 + 0x30 * 2 ^ 32) ++ toBytes 32 0) { s with
    tbl := { s.tbl with tables := [(9, table9)] }
    res := { s.res with poolDecl := [(5, 0, 0, 64)], used := [(0x30, (9, 0))] }
    tx := { s.tx with cache := ⟨5, 0, 2 ^ 30, 26, 0x90FB⟩ :: s.tx.cache } }

/-- A live step. -/
def aStep (n : Nat) (p : StepPhase) : Step := ⟨n, p, none, true, false, 0, 0, 0, 0, 0, 0, 0, 0, 0, 0⟩
def stepping (n : Nat) (p : StepPhase) (s : State) : State :=
  { s with stp := { s.stp with last := some n, live := s.stp.live ++ [aStep n p] } }

/-- `TakesDescriptor`, as a check: the descriptor's bytes stand at offset 0 of segment 1, which is T1's 0x1000. -/
def takesDescriptor (key : Nat) (i : PInstr) (n : Nat) (t : Thread) (s : State) : Option (List Byte × Thread × State) :=
  match (pop key t s).andThen fun o t s => (threadRead key (issueSeg i) o.toNat n .clean t s).andThen fun bs t s =>
      (countUp key (issueCounter i) t s).andThen fun _ t s => .ok bs t s with
  | .ok bs t s => if keyPlain key then none else some (bs, t, s)
  | .stop _ => none

/-- One instruction that issues the descriptor `d`. -/
def issues (op : POp) (sub : Nat) (n d : Nat) (st : List W64) : State :=
  t1Put 0x3000 (toBytes 16 0) (t1Put 0x1000 (toBytes n d) (stepping 1 .confirm (shelved (at0 op sub 1 (ctx st)))))

/-- GATHER of one row, its 8-byte index in segment 3 and its row to segment 4 as FP32. -/
def gatherDesc : Nat := 9 + 3 * 2 ^ 32 + (4 + 16) * 2 ^ 40 + 2 ^ 64
/-- POOL of one bag of no element, its offsets in segment 3. -/
def poolDesc : Nat := 9 + 3 * 2 ^ 32 + (4 + 16) * 2 ^ 40 + 3 * 2 ^ 48 + 2 ^ 96
/-- GATHER.ADDR of one row of 32 bytes. -/
def addrDesc : Nat := 3 * 2 ^ 32 + 4 * 2 ^ 40 + 2 ^ 64 + 32 * 2 ^ 432
/-- ROW_ADD of one row, its index in segment 3 and its values in segment 5. -/
def addDesc : Nat := 9 + (3 + 5 * 16) * 2 ^ 32 + 2 ^ 64
/-- A stream of reads over one page of tag 5. -/
def streamDesc : Nat := 2 ^ 64 * 4096 + 5 * 2 ^ 192 + 4 * 2 ^ 208
/-- SEED of the tile's LFSR. -/
def seedDesc : Nat := 4 + 0x1234 * 2 ^ 64

theorem witness_PyratEngineIssue :
    (∀ x ∈ [(HookKind.gather, POp.gather, 0, gatherDesc), (.pool, .pool, 1, poolDesc), (.addr, .gatherAddr, 2, addrDesc)],
      let s := issues x.2.1 x.2.2.1 64 x.2.2.2 [0]
      runs x.2.1 0 s (ctx [0]) (ins x.2.1 x.2.2.1 1) 1 = true
      ∧ (match takesDescriptor 0 (ins x.2.1 x.2.2.1 1).ins 64 (ctx [0]) s with
        | some (bs, t, s) => decide (hooksActive 0 s < 256) && !claimWaits resHook 0 t.cls s
            && (match (hookAccept (newHook 0 t 0 x.1 (ofBytes bs) 0x1000 s.tl.nextOp) true s).1 with | .accepted _ => true | _ => false)
        | none => false) = true)
    ∧ (∀ x ∈ [(POp.rowAdd, 32, addDesc), (.stream, 32, streamDesc), (.mxop, 64, seedDesc)],
      let s := issues x.1 0 x.2.1 x.2.2 [0]
      runs x.1 0 s (ctx [0]) (ins x.1 0 1) 1 = true ∧ (takesDescriptor 0 (ins x.1 0 1).ins x.2.1 (ctx [0]) s).isSome = true)
    ∧ (match takesDescriptor 0 (ins .rowAdd 0 1).ins 32 (ctx [0]) (issues .rowAdd 0 32 addDesc [0]) with
      | some (bs, t, s) => decide (raVerdict (BitVec.ofNat 256 (ofBytes bs)) 0 t.segs s = none)
          && decide ((decideClaim resPurl 0 (purlUsed 0 s) t.cls 1 true true s).1 = .granted)
      | none => false) = true
    ∧ streamFault streamDesc = none
    ∧ (match takesDescriptor 0 (ins .mxop 0 1).ins 64 (ctx [0]) (issues .mxop 0 64 seedDesc [0]) with
      | some (bs, t, s) => decide (mxQueued 0 s < 64) && !claimWaits resMatrix 0 t.cls s
          && decide ((⟨0, 0, 0, t.cls, t.tag, t.segs, BitVec.ofNat 512 (ofBytes bs), false, 0, {}, 0, [], .none, 0, none⟩ : MxOp).verdict s = none)
      | none => false) = true := by decide +kernel

/-- A retained GATHER of two rows, of which one has committed (R358). -/
def retainedGather : HookOp := { newHook 0 (ctx []) 0 .gather (gatherDesc + 2 ^ 64) 0x1000 0 with next := 1, accepted := true }

theorem witness_PyratResume : let s0 := issues .gatherResume 3 64 (gatherDesc + 2 ^ 64) [1, 0]
    let s := { s0 with tl := { s0.tl with retained := [retainedGather] } }
    runs .gatherResume 0 s (ctx [1, 0]) (ins .gatherResume 3 1) 1 = true
    ∧ (match (pop 0 (ctx [1, 0]) s).andThen fun o t s => (pop 0 t s).andThen fun n t s => (threadRead 0 1 o.toNat 64 .clean t s).andThen fun bs t s =>
        (countUp 0 0 t s).andThen fun _ t s => .ok (n, bs) t s with
      | .ok (n, bs) t s => decide (hooksActive 0 s < 256) && !claimWaits resHook 0 t.cls s
          && (match resumeCheck 0 0 0x1000 (ofBytes bs) n.toNat s with
            | .ok x => decide ((decideClaim resBuffers 0 (buffersUsed 0 s) x.cls (x.rowBufs s) true true s).1 = .granted)
            | .error _ => false)
      | .stop _ => false) = true := by decide +kernel

theorem witness_PyratFalseGuard : let u : Machine.PUnit := ⟨.once, ⟨.add, 0, 0, true, 0, 4⟩, 4⟩
    let s := coded 0 (encodeUnit u) (ctx []) live
    runs .add 0 s (ctx []) u 1 = false ∧ awake s = true ∧ threadAt 0 s = some (ctx []) ∧ canIssue (ctx []) s = true
    ∧ fetchUnit ((ctx []).code s) 0 = .unit u ∧ (iterating u 1 (ctx [])).guard u.ins = false ∧ pyratRow (.add 0 0) = some (.add, 0) := by
  decide +kernel

theorem witness_PyratNoIssue : pyratRow (.add 0 0) = some (.add, 0)
    ∧ (let t := { ctx [] with hold := .ended }; canIssue t (at0 .add 0 0 t) = false ∧ threadAt 0 (at0 .add 0 0 t) = some t)
    ∧ (let s := coded 0 [0x01, 0x00] (ctx []) live; canIssue (ctx []) s = true ∧ fetchUnit ((ctx []).code s) 0 = .malformed)
    ∧ (let s := coded 0 [] (ctx []) live; canIssue (ctx []) s = true ∧ fetchUnit ((ctx []).code s) 0 = .outside 0)
    ∧ (let s := at0 .sub 1 0 (ctx []); canIssue (ctx []) s = true ∧ fetchUnit ((ctx []).code s) 0 = .unit (ins .sub 1 0)) := by decide +kernel

theorem witness_PyratUnderflow : runs .add 0 (at0 .add 0 0 (ctx [1])) (ctx [1]) (ins .add 0 0) 1 = true ∧ (ctx [1]).sd < 2
    ∧ runs .rot 0 (at0 .rot 5 0 (ctx [1, 2])) (ctx [1, 2]) (ins .rot 5 0) 1 = true
    ∧ runs .drop 0 (at0 .drop 3 0 (ctx [])) (ctx []) (ins .drop 3 0) 1 = true := by decide +kernel

/-- A unit with a REPI prefix. -/
def repeated : Machine.PUnit := ⟨.repi, ⟨.add, 0, 0, false, 0, 4⟩, 6⟩

theorem witness_PyratRepiCount : pyratRow (.add 0 0) = some (.add, 0) ∧ ∀ n ∈ [(0 : Nat), 0x100000001],
    let t := ctx [1, 2, BitVec.ofNat 64 n]
    let s := coded 0 (encodeUnit repeated) t live
    awake s = true ∧ threadAt 0 s = some t ∧ canIssue t s = true ∧ fetchUnit (t.code s) 0 = .unit repeated
    ∧ t.rep = none ∧ t.xc.getLsbD 63 = false ∧ t.at' 0 = BitVec.ofNat 64 n ∧ t.shadow = none := by decide +kernel

theorem witness_PyratRetire : (let t := { ctx [] with muls := [⟨2, 1, 0⟩] }; t.loads = [] ∧ t.muls = [⟨0 + 2, 1, 0⟩])
    ∧ (ins .nop 0 0).rep = .once ∧ keyPlain 8192 = true ∧ keyPlain 0 = false := by decide

/-- A block copy of 32 bytes from segment 1 to segment 2. -/
def aCopy (len : W64) : Copy := ⟨0, 0, 1, 2, 0, 0, len, 0, .none⟩
def copying (len : W64) : State :=
  let t := { ctx [] with cc := vset (ctx []).cc 0 { out := 1 } }
  let s := at0 .nop 0 0 t
  { s with th := { s.th with copies := [aCopy len] } }

/-- R336: the bytes arrive and the counter counts down. -/
theorem test_blockCopy : after (.bcopyCompletion 0) (t1Put 0x1000 [1, 2, 3, 4] (copying 4))
    (fun s => (t1Read 0x2000 4 s, s.th.copies.length, (threadAt 0 s).map (fun t => (t.cc[(0 : Fin 4)]).out))) = some ([1, 2, 3, 4], 0, some 0) := by
  decide +kernel

/-- A launch of one thread that has not been placed. -/
def aLaunch : Launch := ⟨0, 0, 7, 1, false, 2, 5, 0xFFFF, 1, 0, (ctx []).segs, 0, 0x7000, 0, 0, 0, 0, none, 0, 0⟩
def launching : State := let s := coded 0 [0, 0] (ctx []) live; { s with th := { s.th with threads := [], launches := [aLaunch] } }

/-- A context that waits for a Purl slot. -/
def claiming : State :=
  let t := { ctx [] with hold := .resource resPurl }
  let s := at0 .nop 0 0 t
  { s with th := { s.th with claims := [⟨resPurl, 0, 2, 1, 0⟩] } }

theorem witness_PyratEvents :
    (∀ n ∈ [(0 : Nat), 32, 0x1000001], let s := copying (BitVec.ofNat 64 n)
      awake s = true ∧ s.th.copies[0]? = some (aCopy (BitVec.ofNat 64 n)) ∧ (threadAt 0 s).isSome = true ∧ (aCopy (BitVec.ofNat 64 n)).stall = .none)
    ∧ (copyRefusal (aCopy 32) (ctx []) = none ∧ (copyOn (threadWho 0 (ctx [])) 5 0x1000 0x2000 32 33 0 (copying 32)).1 = .all)
    ∧ (awake launching = true ∧ engines launching = true ∧ nextPlacement launching = some (aLaunch, 0)
      ∧ (patternOf aLaunch.pattern launching).isSome = true)
    ∧ (engines claiming = true ∧ (nextGrant resPurl 0 (poolUsed resPurl 0 claiming) claiming).isSome = true) := by decide +kernel
/-! ### Mailbox commands (07, 08) -/

/-- The command has been fetched on queue pair 0 and is accepted, and the state in which it has begun meets `p`. -/
def taken (d : CmdDef) (e : Entry) (s : State) (p : State → Bool := fun _ => true) : Bool :=
  let s := queued e s
  accepts d 0 e s && p (begun 0 e s)

/-- The same for a marked command and its schedule entry. -/
def marks (d : CmdDef) (e : Entry) (kind tag : Nat) (s : State) : Bool :=
  taken d e s (fun b => (schedRefusal [ownEntry 0 e kind tag] b).isNone && !Entry.periodic e)

/-- A gauge that has locked once, so that the schedule takes entries. -/
def locked (s : State) : State := { s with gg := { s.gg with everLocked := true, state := .locked } }

/-- An entry of the schedule. -/
def mark (beat kind : Nat) : SchedEntry := ⟨BitVec.ofNat 64 beat, 0, kind, false, false, 0, 1, none, false, 0⟩

/-- The input buffer at 0x30000 holds these bytes. -/
def buffer (bs : List Byte) (s : State) : State := { s with host := cellsWrite s.host 0x30000 bs }

theorem witness_CompletionPosted :
    (let s := queued (ent 0 []) live; let q := s.mb.qps[(0 : Fin 64)]
      q.state = .enabled ∧ q.waiting = [] ∧ q.hasRoom = true ∧ hostReach s = true)
    ∧ (let s := modQp 0 (fun q => { q with cqTail := 63 }) live; let q := s.mb.qps[(0 : Fin 64)]
      q.state = .enabled ∧ q.hasRoom = false)
    ∧ (live.mb.qps[(1 : Fin 64)]).state ≠ .enabled := by decide +kernel

/-- R149, R150: the last ring entry is followed by the first, with the phase bit turned. -/
theorem test_post_wraps :
    let s := modQp 0 (fun q => { q with cqTail := 63, cqHead := 63, phase := true }) live
    let t := post 0 ⟨0x1122334455667788, 9, 3, 7, 0x10, false, true, 0x21, 5, true⟩ s
    cellsRead t.host (0x20000 + 32 * 63) 32 = [0x88, 0x77, 0x66, 0x55, 0x44, 0x33, 0x22, 0x11, 9, 0, 0, 0, 0, 0, 0, 0, 3, 0, 7, 0, 0x10, 5,
      0x21, 0, 5, 0, 0, 0, 0, 0, 0, 0] ∧ (t.mb.qps[(0 : Fin 64)]).cqTail = 0 ∧ (t.mb.qps[(0 : Fin 64)]).phase = false := by decide +kernel

/-- R166: a malformed field, a missing feature and the queue pair are checked in this order. -/
theorem test_refusals : answer (.fabricId 0 (ent 0x40 [(8, 0x200)])) (queued (ent 0x40 [(8, 0x200)]) live) = some (0x30, 9, 0, 0)
    ∧ answer (.replicaDrop 0 (ent 0x29 [])) (queued (ent 0x29 []) { live with mb := { live.mb with features := 1 } }) = some (0x13, 10, 0, 0)
    ∧ answer (.identify 0 (ent 0x02 [(40, 0x30000)])) (queued (ent 0x02 [(40, 0x30000)]) fresh) = some (0x31, 0, 0, 0) := by decide +kernel

theorem witness_MailboxRefusalOrder : (let s := begun 0 (ent 0x02 [(40, 0x30000)]) (queued (ent 0x02 [(40, 0x30000)]) fresh)
      gateShut cmdIdentify.op s = true)
    ∧ (gateShut cmdIdentify.op live = false ∧ entryFault cmdIdentify false [] (ent 0x02 []) = some 40)
    ∧ entryFault cmdReplicaDrop false [] (ent 0x29 []) = none ∧ (10 ∈ cmdReplicaDrop.needs (ent 0x29 []) ∧ granted 10 fresh = false)
    ∧ (∀ j ∈ cmdReplicaDrop.needs (ent 0x29 []), 10 ≤ j) ∧ cmdWarmReset.needs (ent 0x06 []) = [] := by decide +kernel

/-- The front command of queue pair `n` may begin, and its checks answer `r`. -/
def refuses (d : CmdDef) (n : Fin 64) (e : Entry) (s : State) (r : Option (Nat × Nat)) : Bool :=
  awake s && decide (Entry.withOpcode e d.op = e)
    && (match frontCmd n s with | some (c, earlier) => decide (c.entry = e) && mayBegin n c earlier s | none => false)
    && hostReach s && !(decide (d.op = 0x01) && s.mb.negotiated) && decide (cmdRefusal d n e (begun n e s) = r)

/-- Queue pair 1 is enabled too. -/
def two : State := modQp 1 (fun _ => { state := .enabled, sqBase := 0x40000, cqBase := 0x50000 }) live

theorem witness_MailboxRefusalHasNoEffect : mailboxRow (.replicaDrop 0 (ent 0x29 [])) = some (cmdReplicaDrop, 0, ent 0x29 [])
    ∧ refuses cmdReplicaDrop 0 (ent 0x29 []) (queued (ent 0x29 []) { live with mb := { live.mb with features := 1 } })
      (some (stFeature, 10)) = true := ⟨rfl, by decide +kernel⟩

theorem witness_MailboxQueuePairZeroOnly : mailboxRow (.warmReset 1 (ent 0x06 [])) = some (cmdWarmReset, 1, ent 0x06 [])
    ∧ (let s := onQp 1 (ent 0x06 []) two
      refuses cmdWarmReset 1 (ent 0x06 []) s (some (stPolicy, 1)) = true ∧ gateShut 0x06 s = false
      ∧ entryFault cmdWarmReset false [] (ent 0x06 []) = none)
    ∧ mailboxRow (.identify 0 0) = some (cmdIdentify, 0, 0) := ⟨rfl, by decide +kernel, rfl⟩

theorem witness_MailboxFence : mailboxRow (.identify 0 0) = some (cmdIdentify, 0, 0)
    ∧ (let s := queued (ent 0x02 [(1, 1)]) (begun 0 (ent 0x04 [(2, 1)]) (queued (ent 0x04 [(2, 1)]) live))
      awake s = true ∧ (match frontCmd 0 s with | some (x, earlier) => Entry.fence x.entry && !earlier.isEmpty | none => false) = true)
    ∧ (let s := queued (ent 0x02 []) (begun 0 (ent 0x04 [(1, 1), (2, 1)]) (queued (ent 0x04 [(1, 1), (2, 1)]) live))
      awake s = true ∧ (match frontCmd 0 s with | some (_, earlier) => earlier.any (fun y => Entry.fence y.entry) | none => false) = true) :=
  ⟨rfl, by decide +kernel⟩

/-- R160: the granted set is what was asked for and is offered; a request without bit 0 is refused. -/
theorem test_negotiate : answer (.negotiate 0 (ent 0x01 [(8, 0xFFFFFFFF)])) (queued (ent 0x01 [(8, 0xFFFFFFFF)]) fresh) = some (0, 0, 0xFFE7, 0)
    ∧ answer (.negotiate 0 (ent 0x01 [(8, 2)])) (queued (ent 0x01 [(8, 2)]) fresh) = some (0x13, 0, 0, 0) := by decide +kernel

theorem witness_SessionCommands :
    (let e := ent 0x01 [(8, 1)]; taken cmdNegotiate e fresh && decide (efld e 8 16 % 2 = 1)) = true
    ∧ (let e := ent 0x01 [(8, 2)]; taken cmdNegotiate e fresh && decide (efld e 8 16 % 2 = 0)) = true
    ∧ (let s := queued (ent 0x01 []) live; awake s && hostReach s && s.mb.negotiated && (match frontCmd 0 s with
        | some (c, earlier) => decide (c.entry = ent 0x01 []) && mayBegin 0 c earlier s | none => false)) = true
    ∧ taken cmdIdentify (ent 0x02 [(40, 0x30000)]) live = true ∧ taken cmdResetReport (ent 0x07 [(40, 0x30000)]) live = true
    ∧ (let e := ent 0x03 [(8, 63), (10, 0xC4), (16, 0x40000), (24, 0x50000)]
      taken cmdQpCreate e live (fun b => decide ((b.mb.qps[namedQp e]).state = .disabled) && !hostRefuses (efld e 16 8) 64 b
        && !hostRefuses (efld e 24 8) 32 b)) = true
    ∧ (let e := ent 0x04 [(8, 1)]; taken cmdQpDelete e two (fun b => decide (namedQp e ≠ 0)
        && decide ((b.mb.qps[namedQp e]).state ≠ .disabled) && decide ((b.mb.qps[namedQp e]).stop = none))) = true := by decide +kernel

/-- A translation fault that waits (R249). -/
def aFault : FaultRec := ⟨3, 0x1000, 0x1000, 0, 5, 0, 0, 0, 0, 0, false, 0, 0, true⟩
def faulted (s : State) : State := { s with tx := { s.tx with ringSet := true, faults := [aFault] } }
/-- A range invalidation under way. -/
def anInval : Inval := ⟨0, 1, 5, 0, 2 ^ 21, 1, false⟩

theorem witness_SpaceCommands : let m := mapped live
    taken cmdAsDestroy (ent 0x11 [(4, 5)]) m (fun b => spaceLive 5 b && !spaceUsed 5 b && !destroying 5 b) = true
    ∧ (let e := ent 0x10 [(4, 6), (16, 0x200000)]
      taken cmdAsCreate e m (fun b => t1Target (efld e 16 8) 65536 b && !spaceLive (Entry.tag e) b)) = true
    ∧ (let e := ent 0x12 [(16, 0x200000), (24, 8), (40, 0x30000)]
      taken cmdPtWrite e m (fun b => t1Target 0x200000 8 b && decide ((ptPieces 0 0x30000 0x200000 8 0 18 b).1 = okEnd 1 0)
        && !hostRefuses 0x30000 8 b && !poisoned (sectorOf 0x200000) b)) = true
    ∧ taken cmdInvalTag (ent 0x13 [(4, 5)]) m (fun b => spaceLive 5 b) = true
    ∧ (let e := ent 0x14 [(4, 5), (24, 2 ^ 21)]
      taken cmdInvalRange e m (fun b => spaceLive 5 b && decide (rangeInvals b < 4)) = true
      ∧ taken cmdInvalRange e { m with tx := { m.tx with invals := List.replicate 4 anInval } }
          (fun b => spaceLive 5 b && decide (4 ≤ rangeInvals b)) = true)
    ∧ taken cmdFaultRingSet (ent 0x15 [(16, 0x60000)]) m (fun b => !b.tx.ringSet || b.tx.faults.isEmpty) = true
    ∧ taken cmdFaultResume (ent 0x16 [(16, 3)]) (faulted m) (fun b => decide (b.tx.faults.find? (fun f => f.id == 3) = some aFault)) = true := by
  decide +kernel

/-- The directory of a table whose two blocks are ZERO blocks of tier T1, and its descriptor in the buffer. -/
def describing (s : State) : State := buffer (toBytes 128 table9.pack) (t1Put 0x100000 (toBytes 32 4 ++ toBytes 32 4) (mapped s))

theorem witness_TableCommands :
    taken cmdTableCreate (ent 0x20 [(40, 0x30000)]) (describing live) (fun b =>
      (bufRefused 0x30000 128 b 2).isNone && decide (createVerdict table9.pack table9 b = none)) = true
    ∧ taken cmdTableDestroy (ent 0x21 [(8, 9)]) (shelved live) (fun b => decide (tableOf 9 b = some table9) && b.stp.live.isEmpty
        && b.tbl.tables.all (fun x => x.2.index != 2) && b.ram.parked.isEmpty) = true
    ∧ taken cmdTableQuery (ent 0x22 [(8, 9), (40, 0x30000)]) (shelved live) (fun b => decide (tableOf 9 b = some table9)
        && decide (countBlocks table9 b = .inl (1, 0, 0))) = true
    ∧ taken cmdTableDestroy (ent 0x21 [(8, 77)]) live (fun b => (tableOf 77 b).isNone) = true
    ∧ taken cmdTableQuery (ent 0x22 [(8, 77), (40, 0x30000)]) live (fun b => (tableOf 77 b).isNone) = true := by decide +kernel

/-- R178: the row count in blocks; R172. -/
theorem test_tables : answer (.tableCreate 0 (ent 0x20 [(40, 0x30000)])) (queued (ent 0x20 [(40, 0x30000)]) (describing live)) = some (0, 0, 0, 0)
    ∧ answer (.tableDestroy 0 (ent 0x21 [(8, 9)])) (queued (ent 0x21 [(8, 9)]) (shelved live)) = some (0, 0, 2, 0)
    ∧ answer (.tableDestroy 0 (ent 0x21 [(8, 77)])) (queued (ent 0x21 [(8, 77)]) live) = some (0x31, 0, 77, 0) := by decide +kernel

/-- Hot set 3 and a replica, both of row 0 of table 9. -/
def aHotSet : HotSet := ⟨9, 1, [⟨0, [0], 0, false⟩]⟩
def aReplica : Replica := ⟨9, 0, 1, 1, 0, [⟨0, [0], 0, false⟩]⟩
def copied (s : State) : State := { s with tbl := { s.tbl with hotSets := [(3, aHotSet)], replicas := [aReplica] } }

theorem witness_CopyCommands : let m := shelved live
    taken cmdHotsetLoad (ent 0x23 [(8, 9), (12, 3), (14, 1), (16, 1), (40, 0x30000)]) (buffer (toBytes 8 0) m) (fun b =>
      let x : HotSet := ⟨9, 1, [⟨0, [], 0, true⟩]⟩
      let b1 := { b with tbl := { b.tbl with hotSets := kvSet b.tbl.hotSets 3 x } }
      (bufRefused 0x30000 8 b 2).isNone && decide (table9.rowOf 0 = some 0) && ownsRow 9 table9 0 b
        && decide (swatchUsed 0 (some 3) b + 32 ≤ 2 ^ 24) && decide ((loadCopies (cmdClass 0 b1) table9 x.rows b1).1.2 = .loaded)) = true
    ∧ marks cmdHotsetRefresh (ent 0x24 [(1, 2), (12, 3), (48, 10)]) 8 3 (locked (copied m)) = true
    ∧ taken cmdHotsetDrop (ent 0x25 [(12, 3)]) (copied m) (fun b => (kvGet b.tbl.hotSets 3).isSome) = true
    ∧ taken cmdReplicaSet (ent 0x28 [(8, 9), (24, 1), (28, 1)]) m (fun b =>
      let r : Replica := ⟨9, 0, 1, 1, 0, [⟨0, [], 0, true⟩]⟩
      let b1 := { b with tbl := { b.tbl with replicas := [r] } }
      ownsRow 9 table9 0 b && b.tbl.replicas.isEmpty && decide (replicaLack 9 1 1 0 b = none) && decide (findReplica 9 0 1 b1 = some 0)
        && decide ((loadCopies (cmdClass 0 b1) table9 r.rows b1).1.2 = .loaded)) = true
    ∧ taken cmdReplicaDrop (ent 0x29 [(8, 9), (24, 1)]) (copied m) (fun b => decide (findReplica 9 0 1 b = some 0)) = true := by
  decide +kernel

/-- Block 0 of table 9. -/
def aRange : List (Nat × Nat) := [(4, 5), (16, 2 ^ 30), (24, 65536)]

theorem witness_TierCommands : let m := shelved live
    let fine := fun b => decide (rangeBad (ent 0x27 aRange) b = none) && decide ((rangeBlocks (ent 0x27 aRange) b).length = 1)
    marks cmdPrefetch (ent 0x26 ([(1, 2), (8, 1), (48, 10)] ++ aRange)) 8 0 (locked m) = true
    ∧ (let e := ent 0x26 [(4, 5), (8, 1), (16, 2 ^ 52), (24, 65536)]
      taken cmdPrefetch e m (fun b => decide (rangeBad e b = some (2 ^ 52, stTranslation))) = true)
    ∧ (let e := ent 0x26 ((8, 1) :: aRange)
      taken cmdPrefetch e m (fun b => fine b && decide ((prefetchOn 0 e 4 b).1 = okEnd 1 0)) = true)
    ∧ (let e := ent 0x27 [(4, 5), (9, 1), (16, 2 ^ 52), (24, 65536)]
      taken cmdAdvise e m (fun b => decide (rangeBad e b = some (2 ^ 52, stTranslation))) = true)
    ∧ taken cmdAdvise (ent 0x27 ([(8, 0), (9, 1)] ++ aRange)) m fine = true ∧ taken cmdAdvise (ent 0x27 ([(8, 1), (9, 1)] ++ aRange)) m fine = true
    ∧ taken cmdAdvise (ent 0x27 ([(8, 2), (40, 0x30000)] ++ aRange)) m (fun b => fine b && (bufRefused 0x30000 64 b 2).isNone) = true
    ∧ taken cmdAdvise (ent 0x27 ([(8, 2), (9, 1), (40, 0x30000)] ++ aRange)) { m with res := { m.res with absets := [(4, 0)] } } (fun b =>
        fine b && decide (b.res.absets.find? (fun x => x.2 == BitVec.ofNat 512 (ofBytes (bufferOf (ent 0x27 [(40, 0x30000)]) 64 b))) = some (4, 0)))
      = true
    ∧ taken cmdAdvise (ent 0x27 ((8, 3) :: aRange)) m fine = true ∧ taken (cmdDriveUnfence goodDrive) (ent 0x2A [(8, 3)]) m = true
    ∧ goodDrive.failed = 0 ∧ goodDrive.fitted = true := by decide +kernel

/-- R233, R234: one block is already there; a hint counts one block. -/
theorem test_advise : answer (.prefetch 0 (ent 0x26 ((8, 1) :: aRange))) (queued (ent 0x26 ((8, 1) :: aRange)) (shelved live)) = some (0, 0, 1, 0)
    ∧ answer (.advise 0 (ent 0x27 ([(8, 0), (9, 2)] ++ aRange))) (queued (ent 0x27 ([(8, 0), (9, 2)] ++ aRange)) (shelved live)) = some (0, 0, 0, 0) := by
  decide +kernel

/-- The command of `launching`. -/
def launchEnt : Entry := ent 0x32 [(4, 5), (8, 1), (12, 1), (16, 0x4000), (24, 1)]
/-- The launch block at 0x4000: stack base 0x8000, 256 bytes a thread. -/
def withBlock : State := t1Put 0x4000 (toBytes 192 (0x8000 * 2 ^ 1088 + 256 * 2 ^ 1152)) (coded 0 [0, 0] (ctx []) live)

theorem witness_LaunchCommands :
    taken cmdPatternLoad (ent 0x30 [(12, 2), (40, 0x30000)]) live (fun b => (bufRefused 0x30000 2 b 2).isNone
      && decide (kvFree b.th.patterns 0 256 = some 0)) = true
    ∧ taken cmdPatternUnload (ent 0x31 [(8, 1)]) (coded 0 [0, 0] (ctx []) live) (fun b => (patternOf 1 b).isSome
      && b.th.launches.all (fun l => l.pattern != 1)) = true
    ∧ taken cmdLaunch launchEnt withBlock (fun b => blockTranslates 5 0x4000 b
      && (match xRead ⟨0, 16, (cmdClass 0 b).val, false, 0x4000⟩ 5 0x4000 192 .read b with
        | (.data bs, b1) => decide (blockFault (ofBytes bs) 1 = none) && (patternOf 1 b1).isSome && decide (maskTiles 1 b1 ≠ 0)
            && decide (cmdClass 0 b1 ≠ 2)
        | _ => false)) = true
    ∧ taken cmdTileReset (ent 0x39 [(8, 15)]) live (fun b => b.ram.tiles.getLsbD 15) = true := by decide +kernel

/-- Steps 1 (in its close) and 2 (open). -/
def twoSteps (s : State) : State := stepping 2 .opened (stepping 1 (.closing 2) s)
/-- A window of step 2. -/
def window2 (s : State) : State := { s with stp := { s.stp with window := some ⟨2, .opened, 0, 0, 0, 0, 0, 0⟩ } }

theorem witness_StepCommands : let m := locked live
    taken cmdStepOpen (ent 0x33 [(8, 1)]) m (fun b => !stepPending 0 (ent 0x33 [(8, 1)]) b && openOk 1 b) = true
    ∧ (let e := ent 0x33 [(8, 1), (16, 20), (26, 1)]
      taken cmdStepOpen e m (fun b => !stepPending 0 e b && openOk 1 b && decide (schedRefusal [secondEntry 0 e 3 false] b = none)) = true)
    ∧ (let e := ent 0x33 [(1, 2), (8, 1), (48, 10)]; taken cmdStepOpen e m (fun b => !stepPending 0 e b && b.stp.last.isNone
        && decide (schedRefusal [ownEntry 0 e 6 1] b = none)) = true)
    ∧ (let e := ent 0x34 [(8, 1)]; taken cmdStepConfirm e (stepping 1 .opened m) (fun b => !stepPending 0 e b
        && decide (stepOf 1 b = some (aStep 1 .opened)) && !confirmHeld 1 b && !windowOpen 1 b && !windowAbandoned 1 b) = true)
    ∧ (let e := ent 0x34 [(8, 2)]; taken cmdStepConfirm e (twoSteps m) (fun b => !stepPending 0 e b
        && decide (stepOf 2 b = some (aStep 2 .opened)) && confirmHeld 2 b) = true)
    ∧ (let e := ent 0x34 [(1, 2), (8, 1), (48, 10)]; marks cmdStepConfirm e 1 1 (stepping 1 .opened m)
        && taken cmdStepConfirm e (stepping 1 .opened m) (fun b => !stepPending 0 e b && stepReachable 1 (fun p => p == .opened) b)) = true
    ∧ (let e := ent 0x35 [(8, 1)]; taken cmdStepClose e (stepping 1 .confirm m) (fun b => !stepPending 0 e b && closeOk 1 b)) = true
    ∧ (let e := ent 0x35 [(1, 2), (8, 1), (48, 10)]; marks cmdStepClose e 4 1 (stepping 1 .confirm m)
        && taken cmdStepClose e (stepping 1 .confirm m) (fun b => !stepPending 0 e b
          && stepReachable 1 (fun p => p == .opened || p == .confirm) b)) = true
    ∧ (let e := ent 0x36 [(1, 2), (8, 1), (16, 20), (48, 10)]; taken cmdSpecOpen e (stepping 1 .opened m) (fun b => !stepPending 0 e b
        && stepReachable 1 (fun p => p == .opened) b && decide (schedRefusal [ownEntry 0 e 7 1, secondEntry 0 e 2 false] b = none))) = true
    ∧ taken cmdSpecAbandon (ent 0x37 [(8, 2)]) (window2 (twoSteps m)) (fun b => windowOpen 2 b) = true
    ∧ taken cmdStepQuery (ent 0x38 [(40, 0x30000)]) m = true := by decide +kernel

/-- R16, R17: numbers in order, and one open step at a time. -/
theorem test_steps : answer (.stepOpen 0 (ent 0x33 [(8, 5)])) (queued (ent 0x33 [(8, 5)]) (stepping 1 .confirm live)) = some (0x31, 0, 2, 0)
    ∧ answer (.stepOpen 0 (ent 0x33 [(8, 2)])) (queued (ent 0x33 [(8, 2)]) (stepping 1 .confirm live)) = some (0, 0, 0, 0)
    ∧ answer (.stepConfirm 0 (ent 0x34 [(8, 2)])) (queued (ent 0x34 [(8, 2)]) (stepping 2 .opened live)) = some (0, 0, 0, 0) := by
  decide +kernel

/-- Port 0 of the fabric has joined device 3. -/
def joined (s : State) : State := modPort 0 (fun x => { x with
  state := .joined, enabled := true, peer := 3, alloc := Vector.replicate 5 64, avail := Vector.replicate 5 64 })
  { s with fab := { s.fab with id := some 2 } }

theorem witness_FabricCommands : let named : State := { live with fab := { live.fab with id := some 2 } }
    taken cmdFabricId (ent 0x40 [(8, 5)]) live (fun b => b.fab.ports.all (fun x => x.state != .joined)) = true
    ∧ taken cmdPortConfig (ent 0x41 []) live = true
    ∧ (let e := ent 0x41 [(9, 1), (12, 3)]
      taken cmdPortConfig e (joined live) (fun b => decide ((b.fab.ports[(0 : Fin 9)]).state = .joined) && decide ((b.fab.ports[(0 : Fin 9)]).peer = 3))
      && taken cmdPortConfig e (modPort 0 (fun x => { x with state := .training }) named)
        (fun b => decide ((b.fab.ports[(0 : Fin 9)]).state = .training))
      && taken cmdPortConfig e named (fun b => b.fab.id.isSome && decide ((b.fab.ports[(0 : Fin 9)]).state = .disabled))) = true
    ∧ taken cmdShardmapLoad (ent 0x42 [(8, 1), (12, 1), (40, 0x30000)]) (buffer (toBytes 16 7) live) (fun b =>
        (bufRefused 0x30000 16 b 2).isNone && (closingOf b).isNone && decide (b.fab.gen < 1)
        && (match shardParse (fun id => (tableOf id b).map (·.rows)) 1 (bufferOf (ent 0x42 [(40, 0x30000)]) 16 b) [] with
          | .ok es => decide (es.length = 1) | .error _ => false)) = true
    ∧ taken (cmdPortReset goodDrive) (ent 0x43 []) (joined live) (fun b => (b.fab.ports[(0 : Fin 9)]).enabled) = true
    ∧ taken (cmdPortReset goodDrive) (ent 0x43 [(8, 2), (9, 1)]) live = true
    ∧ taken cmdPortUnfence (ent 0x44 [(8, 8)]) (modPort 8 (fun x => { x with state := .fenced }) live)
        (fun b => decide ((b.fab.ports[(8 : Fin 9)]).state = .fenced)) = true
    ∧ taken cmdFabricStatus (ent 0x45 [(40, 0x30000)]) live = true := by decide +kernel

/-- R187, R429: FABRIC_ID and a PORT_CONFIG that waits for the join. -/
theorem test_fabric : answer (.fabricId 0 (ent 0x40 [(8, 5)])) (queued (ent 0x40 [(8, 5)]) (joined live)) = some (0x31, 0, 0, 0)
    ∧ answer (.portConfig 0 (ent 0x41 [(9, 1), (12, 0x1FF)])) (queued (ent 0x41 [(9, 1), (12, 0x1FF)]) (joined live)) = some (0, 0, 3, 0) := by
  decide +kernel

theorem witness_GaugeCommands : let m := locked live
    taken cmdGaugeConfig (ent 0x50 [(8, 10000), (13, 0xFF)]) live (fun b => b.gg.sched.isEmpty) = true ∧ taken cmdGaugeRebase (ent 0x51 []) m = true
    ∧ taken cmdSchedRead (ent 0x52 [(40, 0x30000)]) m = true
    ∧ taken cmdSchedCancel (ent 0x53 [(9, 1), (16, 10)]) { m with gg := { m.gg with sched := [(0, mark 10 1)] } }
        (fun b => decide (kvGet b.gg.sched 0 = some (mark 10 1))) = true
    ∧ marks cmdTensionSlot (ent 0x55 [(1, 2), (48, 10)]) 10 0 m = true
    ∧ (∀ x ∈ [[(1, 2), (8, 100), (12, 500), (48, 10)], [(1, 2), (8, 100), (12, 500), (48, 10), (58, 2), (60, 1000)]],
      let e := ent 0x54 x
      taken cmdScrubSlot e m (fun b => b.ram.slot.isNone && b.gg.sched.isEmpty && decide (kvFree b.gg.sched 0 256 = some 0)
        && decide (schedRefusal [ownEntry 0 e 9 0] b = none)) = true) := by decide +kernel

theorem witness_ControlCommands :
    taken cmdPowerCap (ent 0x56 [(8, 450)]) live (fun b => let b1 := setHostCap 450 b; decide (b1.pm.cap = min b1.pm.grant b1.pm.hostCap)) = true
    ∧ taken cmdPowerCap (ent 0x56 [(8, 600)]) { live with pm := { live.pm with grant := 1000, cap := 450 } }
        (fun b => let b1 := setHostCap 600 b; decide (b1.pm.cap ≠ min b1.pm.grant b1.pm.hostCap)) = true
    ∧ taken cmdMonRead (ent 0x57 [(40, 0x30000)]) live = true ∧ taken cmdThermLimit (ent 0x58 [(8, 3), (10, 80)]) live = true
    ∧ taken cmdLogRead (ent 0x60 [(10, 1), (40, 0x30000)]) (logErr .corrected 0x30 .none 0 0 0 live) (fun b => !b.er.ring.isEmpty) = true
    ∧ taken cmdLogMirrorSet (ent 0x61 [(8, 1), (16, 0x70000)]) live = true
    ∧ taken cmdTallyAudit (ent 0x62 [(40, 0x30000)]) live (fun b => b.ty.check.isNone) = true
    ∧ taken cmdTallyRead (ent 0x63 [(8, 0x1000), (40, 0x30000)]) live (fun b => (tallyRecord 0x1000 b).isSome) = true
    ∧ taken cmdWarmReset (ent 0x06 []) live = true
    ∧ taken cmdBindOff (ent 0x05 []) live (fun b => b.rst.bindOff.isNone && b.stp.live.isEmpty
        && (closingOf { b with rst := { b.rst with bindOff := some ⟨0, 7, 0, 0, [], []⟩ } }).isNone) = true
    ∧ taken cmdBindOff (ent 0x05 []) (stepping 1 (.closing 2) live) (fun b => b.rst.bindOff.isNone
        && b.stp.live.all (fun x => x.phase != .opened && x.phase != .confirm)
        && (closingOf { b with rst := { b.rst with bindOff := some ⟨0, 7, 0, 0, [], []⟩ } }).isSome) = true := by decide +kernel

/-- A signed KEY_UPDATE buffer: GEN 2, the new key is the base point of P-384, and the key in force verifies it. -/
def oldKey : PubKey := .point 0x850CDC60286D212004837BACC5614BA3E6DCBD24B61F24E5D684FDE98EC3C205E533F729D33AC2B7C41C1756BE0359DA
  0xEFF15BF95C289A1425CC24CF51D839EB4A4B96E1B5834FF28955F4A42E4BA4AB8581806B4952AA3E605B778655EFA8EA
def keyBytes : List Byte :=
  let sig := 0x7AE9E1DB1160794C70C1EF071BE5191F6C66240F4608FBE8A44ECD36C3ED5DB97500F2E4D84E3FB45850FD6F4303302B
  toBytes 4 0x554B4A46 ++ toBytes 4 2 ++ toBytes 4 0x00B00816 ++ List.replicate 20 0 ++ toBytes 48 g384.1 ++ toBytes 48 g384.2
    ++ List.replicate 768 0 ++ toBytes 48 sig ++ toBytes 48 sig ++ List.replicate 32 0
def withKey (s : State) : State := { s with fw := { s.fw with key := { s.fw.key with gen := 1, key := oldKey } } }

/-- A delivery of which one chunk has been stored. -/
def aDelivery : Staging := ⟨false, 4096, [], true, true, 9, 8192, []⟩

theorem witness_FirmwareCommands :
    taken cmdIdRead (ent 0x70 [(40, 0x30000)]) live = true ∧ taken cmdTagRead (ent 0x71 [(8, 16), (40, 0x30000)]) live = true
    ∧ (∀ x ∈ [(0, 1), (0, 0), (100000, 0)], let e := ent 0x72 [(8, 16), (40, 0x30000)]
      taken cmdTagWrite e (buffer [BitVec.ofNat 8 x.2] { live with fw := { live.fw with tagCounts := [(16, x.1)] } }) (fun b =>
        (bufRefused 0x30000 64 b 2).isNone && decide (tagCount 16 b = x.1) && (decide (bufferOf e 64 b = tagArea 16 b) == decide (x.2 = 0)))
      = true)
    ∧ taken cmdKeyStatus (ent 0x74 []) live = true
    ∧ taken cmdFwStage (ent 0x75 [(8, 4096), (12, 4096), (40, 0x30000)]) { live with fw := { live.fw with staging := some aDelivery } }
        (fun b => (bufRefused 0x30000 4096 b 3).isNone && !b.rst.recovery && decide (b.fw.staging = some aDelivery)) = true
    ∧ marks cmdFwActivate (ent 0x76 [(1, 2), (48, 10)]) 11 0 (locked { live with fw := { live.fw with
        banks := vset live.fw.banks 1 ⟨1, 0, 9, 0, some []⟩ } }) = true
    ∧ taken cmdFwActivate (ent 0x76 [(1, 2), (48, 10)]) (locked { live with fw := { live.fw with
        banks := vset live.fw.banks 1 ⟨1, 0, 9, 0, some []⟩ } }) (fun b => decide ((idleBank b).state = 1) && !activatePending b && !inTrial b) = true
    ∧ taken cmdFwStatus (ent 0x77 [(40, 0x30000)]) live = true
    ∧ taken cmdFwChainSet (ent 0x78 [(8, 3), (10, 0x10)]) live (fun b => b.fw.staging.isNone && b.fw.applying.isNone && !activatePending b
        && !inTrial b) = true
    ∧ taken cmdFwDiscard (ent 0x79 []) live (fun b => b.fw.applying.isNone && !activatePending b && !inTrial b) = true := by decide +kernel

theorem witness_FirmwareCommands_key : let e := ent 0x73 [(40, 0x30000)]
    let b := begun 0 e (queued e (buffer keyBytes (withKey live)))
    taken (cmdKeyUpdate false) e (buffer keyBytes (withKey live)) = true ∧ bufRefused (Entry.dptr e) 1024 b 2 = none
    ∧ keyBytes.length = 1024 ∧ bufferOf e keyBytes.length b = keyBytes ∧ b.fw.key.key.coords = oldKey.coords := by
  refine ⟨by decide +kernel, by decide +kernel, by decide +kernel, ?_, rfl⟩
  have hd : Entry.dptr (ent 0x73 [(40, 0x30000)]) = 0x30000 := by decide +kernel
  have host (e : Entry) (s : State) : (begun 0 e (queued e s)).host = s.host := rfl
  have into (bs : List Byte) (s : State) : (buffer bs (withKey s)).host = cellsWrite s.host 0x30000 bs := rfl
  rw [bufferOf, host, into, hd, cellsRead_cellsWrite (by decide)]

/-- R502: the update is signed by the key in force. -/
theorem witness_FirmwareCommands_signed : keyRefusal keyBytes (withKey live) = none := by decide +kernel

theorem witness_MailboxEngine : awake live = true ∧ barMode live ≠ .unsupported ∧ running live = true
    ∧ (live.mb.qps[(0 : Fin 64)]).state = .enabled ∧ (live.mb.qps[(0 : Fin 64)]).stop = none ∧ (live.mb.qps[(0 : Fin 64)]).waiting = []
    ∧ (0 : W32).toNat < 2 ^ (live.mb.qps[(0 : Fin 64)]).sqLog ∧ 2 ^ (live.mb.qps[(0 : Fin 64)]).sqLog ≤ (0xFFFF : W32).toNat
    ∧ (let s := { live with rst := { live.rst with ready := false } }; awake s = true ∧ barMode s ≠ .unsupported ∧ running s = false)
    ∧ (let s := modQp 0 (fun q => { q with sqTail := 1 }) live
      mayFetch 0 s = true ∧ slotsUsed s < 896 ∧ claimWaits resMailbox 0 2 s = false ∧ hostRefuses 0x10000 64 s = false ∧ cidTaken 0 0 s = false)
    ∧ (let s := modCmd 0 7 (fun c => { c with begun := true, wait := some resInvals }) (queued (ent 0x14 []) (modQp 0 (fun q => { q with deferAfter := 1 })
          live))
      let s := { s with gg := { s.gg with beat := 9 } }
      (findCmd 0 7 s).any (fun c => c.wait == some resInvals && !c.interim && !c.effective && decide (1 ≤ beatsSince c.due s)) = true
      ∧ mbLive s = true)
    ∧ (let q := (modQp 0 (fun q => { q with timer := true }) live).mb.qps[(0 : Fin 64)]; q.timer = true ∧ q.irqEn = true)
    ∧ (let off := modQp 0 (fun _ => {}) live
      let on : State := { live with mb := { live.mb with ctrl := 0x661 } }
      ringCause off.mb.sqBaseReg off.mb.cqBaseReg off = none ∧ (off.mb.qps[(0 : Fin 64)]).state = .disabled ∧ off.mb.ctrl.getLsbD 0 = false
      ∧ logOk (bits (0x661 : W64).toNat 4 4) = true ∧ logOk (bits (0x661 : W64).toNat 8 4) = true ∧ on.mb.ctrl.getLsbD 0 = true) := by
  decide +kernel

theorem witness_RegisterReads : barOpen live = true ∧ kvGet live.hl.latch 0xA000C = none
    ∧ (let s := { live with hl := { live.hl with latch := [(0xA000C, 5)] } }; barOpen s = true ∧ kvGet s.hl.latch 0xA000C = some 5)
    ∧ live.rst.recovery = false ∧ (locked live).gg.state ≠ .unlocked := by decide +kernel

theorem witness_RegisterWrites : barOpen live = true ∧ kvGet live.hl.low 0x100 = none
    ∧ (let s := { live with hl := { live.hl with low := [(0x100, 5)] } }; barOpen s = true ∧ kvGet s.hl.low 0x100 = some 5)
    ∧ sqIdOk ((0xA00 : W32).toNat % 4096) = false ∧ sqIdOk ((0x9FF : W32).toNat % 4096) = sqIdOk 0x9FF ∧ sqIdOk 0 = true
    ∧ ((0 : W32).toNat + 4096 - live.tx.frHead) % 4096 ≤ live.tx.frCount ∧ regAt 0xFFFFFC = none ∧ (0xFFFFFC : BitVec 24).toNat % 4 = 0
    ∧ ¬((8 : Fin 9) = 4 ∧ (4 : BitVec 24).toNat % 4 = 0) ∧ ¬((8 : Fin 9) = 8 ∧ (4 : BitVec 24).toNat % 8 = 0) := by decide +kernel

/-- R127: a slice register, written whole and read back; R527: a lower half alone is held. -/
theorem test_slice : after (.hlApSlice 1 .full 0xF7) live (fun s => sliceWord s.hl.slices[(1 : Fin 8)]) =
      some 0xF7
    ∧ after (.hlApSlice 1 .low 0xF7) live (fun s => (sliceWord s.hl.slices[(1 : Fin 8)], kvGet s.hl.low 0x108)) = some (8, some 0xF7) := by
  decide +kernel

/-- Slice 0 maps virtual addresses below 2^30 of tag 5. -/
def windowed : State := let m := mapped live; { m with hl := { m.hl with
  slices := vset m.hl.slices 0 { en := true, wrEn := true, tag := 5 } } }

theorem witness_HostLinkEvents : awake windowed = true ∧ barMode windowed = .full
    ∧ (apAccess 0x1000 8 false windowed).2.2 = none ∧ apPlaces 5 0x1000 8 false windowed = [(0x1000, 8)]
    ∧ (apTouch { en := true, wrEn := true, tag := 5 } 0x1000 8 false windowed).ram.poison = []
    ∧ (apAccess 0x1000 2 true windowed).2.2 = none ∧ enabledRuns [some 1, none] 0 = [(0, [1])] ∧ partialPoison 0x1000 1 windowed = none
    ∧ (windowed.hl.slices[(7 : Fin 8)]).en = false ∧ (7 * 2 ^ 33) % 2 ^ 33 + 8 ≤ 2 ^ 33 ∧ windowed.hl.up = true ∧ windowed.rst.hostOn = true
    ∧ (let s := { live with hl := { live.hl with d3hot := true } }; awake s = true ∧ s.hl.up = true ∧ s.rst.hostOn = true ∧ s.hl.bme = true)
    ∧ live.hl.d3hot = false
    ∧ (let s := { live with hl := { live.hl with bme := false } }; awake s = true ∧ s.pins.perst = false ∧ s.rst.stage ≠ 0 ∧ s.hl.cxl = false)
    ∧ hostReach live = true ∧ mayFetch 0 (modQp 0 (fun q => { q with sqTail := 1 }) live) = true := by decide +kernel

/-- R128: the aperture reads and writes tier T1, byte by byte. -/
theorem test_aperture : after (.bar2Write 0x1000 [some 1, none, some 3]) windowed (fun s => t1Read 0x1000 3 s) = some [1, 0, 3]
    ∧ after (.bar2Read (7 * 2 ^ 33) 8 .clean) windowed (fun s => (s.hl.violCount, s.hl.apRefused)) = some (1, 1) := by decide +kernel

/-- Stitch queue 0 holds these packets. -/
def stitched (ps : List SqPacket) (flush : Bool) : State :=
  sqPut 0 { packets := ps, flushPending := flush } { live with sq := { live.sq with expSet := true } }

theorem witness_StitchQueues : sqIdOk (0 : BitVec 12).toNat = true
    ∧ (awake (stitched [] false) = true ∧ (sqGet 0 (stitched [] false)).flushPending = false
      ∧ (sqGet 0 (stitched [] false)).occupancy + ([1] : List W64).length ≤ 2 ^ sqDepthLog 0)
    ∧ (sqGet 0 (stitched [] true)).flushPending = true
    ∧ (let s := stitched [⟨List.replicate 2048 0, 1, 0, false⟩] false
      awake s = true ∧ (sqGet 0 s).flushPending = false ∧ 2 ^ sqDepthLog 0 < (sqGet 0 s).occupancy + ([1] : List W64).length)
    ∧ (let s := stitched [⟨[1, 2], 2, 0, true⟩] false
      (sqGet 0 s).packets = [⟨[1, 2], 2, 0, true⟩] ∧ sqTailExp 0 s ≠ 255 ∧ (sqGet 0 s).tailRun ≠ 15) := by
  have deep : 2 ^ sqDepthLog 0 ≤ 2048 := Nat.pow_le_pow_right (by decide : 0 < 2) (by unfold sqDepthLog; omega : sqDepthLog 0 ≤ 11)
  have some1 : 1 ≤ 2 ^ sqDepthLog 0 := Nat.one_le_two_pow
  refine ⟨by decide, ⟨by decide +kernel, by decide +kernel, some1⟩, by decide +kernel, ⟨by decide +kernel, by decide +kernel, ?_⟩,
    by decide +kernel, ?_, by decide +kernel⟩
  · have h : (sqGet 0 (stitched [⟨List.replicate 2048 0, 1, 0, false⟩] false)).occupancy = 2048 := by decide +kernel
    rw [h]; exact Nat.lt_succ_of_le deep
  · have h : sqTailExp 0 (stitched [⟨[1, 2], 2, 0, true⟩] false) = sqExponent 0 := if_pos rfl
    rw [h]; unfold sqExponent; split <;> decide

/-- R52, R58: a packet beyond the depth is not taken; a flush discards what has not been opened. -/
theorem test_stitch : after (.sqFlushTakesEffect 0) (stitched [⟨[1], 1, 0, true⟩, ⟨[2], 1, 0, false⟩] true)
    (fun s => (sqGet 0 s).packets) = some [⟨[1], 1, 0, true⟩] := by decide +kernel

/-! ### The gauge, power, reset and cast-on (04, 05, 21 to 25, 27) -/

/-- A GWORD frame of beat `n` (R67). -/
def frame (n : Nat) : BitVec 80 := BitVec.ofNat 80 (0xA7 + 2 ^ 8 * n
  + ((List.range 8).map (fun i => 2 ^ (72 + i) * b2n (parity 8 (n / 2 ^ (8 * i) % 256)))).sum)

/-- The receiver in a state of its own. -/
def gauged (st : GState) (f : Gauge → Gauge) : State := { live with gg := f { live.gg with state := st } }

theorem witness_GaugeReceiver :
    (let s := gauged .locked (fun g => { g with connector := { run := 16, num := 8 } }); awake s = true ∧ operational s = true ∧ sourceUsed s.gg.cfg 0 = true ∧ s.gg.selected = 0 ∧ frameOk (frame 9) = true
      ∧ edgeOk s.gg.cfg.rate s.gg.connector 100000000 = true ∧ frameBeat (frame 9) = s.gg.connector.num + 1)
    ∧ (let s := gauged .unlocked id; awake s = true ∧ operational s = true ∧ sourceUsed s.gg.cfg 0 = true ∧ frameOk 0 = false)
    ∧ (let s := gauged .locking (fun g => { g with connector := { run := 16, num := 8 } })
      awake s = true ∧ operational s = true ∧ gaugeLost s = false ∧ s.er.fatal = false ∧ lockSource s.gg = some 0)
    ∧ (let s := gauged .holdover (fun g => { g with holdBeats := 1000 })
      awake s = true ∧ operational s = true ∧ 1000 ≤ s.gg.holdBeats.toNat ∧ s.er.fatal = false ∧ s.gg.sched = [])
    ∧ (let s := gauged .locked (fun g => { g with beat := 300, resume := some 256 })
      awake s = true ∧ operational s = true ∧ s.gg.resume = some 256 ∧ (256 : W64).toNat ≤ s.gg.beat.toNat ∧ s.er.fatal = false ∧ s.gg.sched = []) := by
  decide +kernel

/-- R67, R78: a good frame while LOCKED sets the beat. -/
theorem test_gauge : after (.gwordFrame (frame 0x123456789) 100000000 0) (gauged .locked (fun g => { g with connector := { run := 16, num := 0x123456788 } }))
      (fun s => (s.gg.beat, s.gg.state)) = some (0x123456789, .locked)
    ∧ after (.gwordFrame (frame 9) 100000000 0) (gauged .unlocked id) (fun s => (s.gg.connector.run, s.gg.state)) = some (1, .locking) := by
  decide +kernel

/-- Entry 0 of the schedule is this one and due. -/
def dueAt (e : SchedEntry) (s : State) : State := { s with gg := { s.gg with sched := [(0, e)], beat := 10 } }

/-- `Due` with `runsNow`, as a check. -/
def runsAt (e : SchedEntry) (s : State) : Bool :=
  awake s && operational s && !s.er.fatal && decide (kvGet s.gg.sched 0 = some e) && !e.deferred && decide (e.beat.toNat ≤ s.gg.beat.toNat)
    && !(s.gg.sched.any (fun x => !x.2.deferred && schedBefore x.1 x.2 0 e)) && !resumeFirst e.beat s && runsNow e s

theorem due_of_runsAt {e : SchedEntry} {s : State} (h : runsAt e s = true) : Due 0 e s ∧ runsNow e s = true := by
  simp only [runsAt, Bool.and_eq_true, decide_eq_true_eq, Bool.not_eq_true'] at h
  obtain ⟨⟨⟨⟨⟨⟨⟨⟨h1, h2⟩, h3⟩, h4⟩, h5⟩, h6⟩, h7⟩, h8⟩, h9⟩ := h
  exact ⟨⟨h1, h2, h3, h4, h5, h6, h7, h8⟩, h9⟩

/-- The entry of a step's command, which waits for its mark. -/
def ownMark (kind : Nat) (cmd : Entry) : SchedEntry := { mark 10 kind with owner := some (0, 7), cmd := cmd }

/-- The mark is reached, and the state in which its event takes effect meets `p`. -/
def fires (e : SchedEntry) (s : State) (p : State → Bool := fun _ => true) : Bool :=
  let s := dueAt e (locked s)
  runsAt e s && p (atItsMark 0 e s)

theorem witness_ScheduleMarks : markRowOf (.scrubSlotBegin 0) = some (9, 0)
    ∧ (let e := { mark 10 9 with lockReq := true }; let s := dueAt e (gauged .holdover id)
      runsAt e s = false ∧ gaugeLost s = true ∧ e.needsLock = true ∧ runsAt (mark 10 9) (dueAt (mark 10 9) (gauged .holdover id)) = true)
    ∧ kvGet live.gg.sched 0 = none ∧ (mark 10 9).kind ≠ 8
    ∧ fires (ownMark 2 (ent 0x36 [(8, 2)])) (window2 (twoSteps live)) (fun b => windowOpen 2 b) = true
    ∧ fires (ownMark 2 (ent 0x36 [(8, 2)])) (twoSteps live) (fun b => !windowOpen 2 b) = true
    ∧ fires (ownMark 3 (ent 0x33 [(8, 2)])) (window2 (twoSteps live)) (fun b => windowOpen 2 b && decide (stepOf 2 b = some (aStep 2 .opened))) = true
    ∧ fires (mark 10 5) live = true ∧ fires (mark 10 8) live = true
    ∧ fires (mark 10 9) { live with ram := { live.ram with slot := some ⟨0, false, 100, 0, false⟩ } } (fun b => b.ram.slot.isSome) = true
    ∧ (fires (mark 10 10) { live with pm := { live.pm with cap := 450, grant := 450, hostCap := 450 } } (fun b => decide (b.gg.state = .locked)
        && !atBottom b && b.pm.pendingGrant.isNone && !b.pm.ramping && decide (capTarget b ≤ b.pm.cap))
      && fires (mark 10 10) { live with pm := { live.pm with cap := 450, grant := 600, hostCap := 600 } } (fun b => decide (b.gg.state = .locked)
        && !atBottom b && b.pm.pendingGrant.isNone && !b.pm.ramping && decide (b.pm.cap < capTarget b))) = true
    ∧ fires (ownMark 1 (ent 0x34 [(8, 1)])) (stepping 1 .opened live) (fun b => decide (stepOf 1 b = some (aStep 1 .opened)) && !windowOpen 1 b
        && !windowAbandoned 1 b && !confirmHeld 1 b) = true
    ∧ fires (ownMark 4 (ent 0x35 [(8, 1)])) (stepping 1 .confirm live) (fun b => closeOk 1 b) = true
    ∧ fires (ownMark 6 (ent 0x33 [(8, 1)])) live (fun b => openOk 1 b) = true
    ∧ fires (ownMark 7 (ent 0x36 [(8, 1)])) (stepping 1 .opened live) (fun b => windowOk 1 b) = true
    ∧ fires (ownMark 11 (ent 0x76 [])) live = true := by decide +kernel

/-- R75, R167: the step of a marked STEP_OPEN is live after its mark. -/
theorem test_mark : after (.stepOpenMark 0) (dueAt (ownMark 6 (ent 0x33 [(8, 1)])) (locked (begun 0 (ent 0x33 [(1, 2), (8, 1), (48, 10)])
    (queued (ent 0x33 [(1, 2), (8, 1), (48, 10)]) live)))) (fun s => (s.stp.live.map (·.num), s.gg.sched.length)) = some ([1], 0) := by
  decide +kernel

theorem witness_PowerAndMonitors : awake live = true ∧ powered live = true
    ∧ (let c : Check := ⟨.close 1, 0, true, [(0x1000, 2)], [], []⟩; let s := { live with ty := { live.ty with check := some c } }
      s.ty.check = some c ∧ c.rereads.find? (fun r => r.1 == 0x1000) = some (0x1000, 2) ∧ deficit 0x1000 s = 0)
    ∧ (let s := joined live; deficit 0x3003 { s with fab := { s.fab with counts := [(3, { accepted := 1 })] } } ≠ 0)
    ∧ (let l : Limiter := ⟨1, 2, 3, none⟩; [l].find? (fun l => l.cause == (1 : Byte).toNat && l.unit == (2 : BitVec 16).toNat) = some l)
    ∧ monExcluded 3 live = false ∧ (0 : BitVec 16).toInt < tripThreshold 3 - 50 ∧ (0 : BitVec 16).toInt ≤ (live.pm.monitors[(3 : Fin 88)]).limit.toInt
    ∧ (live.pm.monitors[(3 : Fin 88)]).limit.toInt < (1001 : BitVec 16).toInt ∧ (1001 : BitVec 16).toInt < tripThreshold 3 - 50
    ∧ (live.pm.monitors[(3 : Fin 88)]).over_ = false
    ∧ (let s := modMonitor 3 (fun x => { x with press := 1, limit := 800 }) live
      0 < (s.pm.monitors[(3 : Fin 88)]).press ∧ (s.pm.monitors[(3 : Fin 88)]).value.toInt ≤ (s.pm.monitors[(3 : Fin 88)]).limit.toInt - 30)
    ∧ live.pins.auxValid = true ∧ tripThreshold 3 ≤ (1100 : BitVec 16).toInt ∧ atBottom live = false
    ∧ (modPm (fun p => { p with ramping := true }) live).pm.ramping = true
    ∧ (let g : PendingGrant := ⟨450, none⟩; let s := modPm (fun p => { p with pendingGrant := some g, grant := 600 }) live
      s.pm.pendingGrant = some g ∧ tensionOn s = true ∧ s.pm.brake = false ∧ g.watts ≤ s.pm.grant ∧ grantDue g s = true)
    ∧ live.pm.brake = false ∧ (modPm (fun p => { p with brake := true }) live).pm.brake = true ∧ tensionOn live = true ∧ sbServed live = true
    ∧ 450 ≤ (450 : BitVec 16).toNat ∧ (1150 : BitVec 16).toNat ≤ 1150 := by decide +kernel

/-- R473: over its limit; R476: the brake. -/
theorem test_power : after (.monitorSample 3 1001) live (fun s => (s.pm.monitors[(3 : Fin 88)]).over_) = some true
    ∧ after .pwrBrakeAssert live (fun s => (s.pm.cap, s.pm.ladder, s.pins.pwrBrake)) = some (450, 44, true) := by decide +kernel

/-- In quiesce; in stage `k` of bring-up; waiting for its reset pins. -/
def quieting : State := { live with rst := { live.rst with phase := .quiesce, ready := false } }
def inStage (k : Nat) : State := { live with rst := { live.rst with stage := k, ready := false, hostOn := decide (4 ≤ k) } }
def waitingPins : State := { live with rst := { live.rst with phase := .pinWait, ready := false, stage := 0, hostOn := false } }

theorem witness_ResetTriggers : State.reset.rst.phase = .off ∧ (State.reset.pm.monitors[(46 : Fin 88)]).value.toInt < 1300
    ∧ (State.reset.pm.monitors[(47 : Fin 88)]).value.toInt < 650 ∧ live.rst.phase = .up ∧ coldBusy live = false
    ∧ (0 : W32).toNat < 38000 ∧ 38000 ≤ (62000 : W32).toNat ∧ (62000 : W32).toNat ≤ 62000 ∧ railOutside 2 live.pm.speedBin.toNat 2 0 = true
    ∧ live.hl.up = true ∧ { live.hl with up := false }.up = false ∧ live.rst.ready = true ∧ live.rst.held = false ∧ live.pins.thermTrip = false
    ∧ quieting.rst.phase = .quiesce ∧ (quiesceDrain quieting).pu.slots = []
    ∧ (let u : Update := ⟨16, 0, 3, 0, 0, 1, 9, 0, [], false, 2, [], .none, none⟩; (quiesceDrain { quieting with ram := { quieting.ram with stackSet := 0 }, pu := { quieting.pu with slots := [u] } }).pu.slots ≠ []) := by
  decide +kernel

/-- R98, R101: a warm reset quiesces first. -/
theorem test_resets : after .warmResetAssert live (fun s => (s.rst.phase, s.rst.ready, s.rst.lastReset)) = some (.quiesce, false, .warmPin)
    ∧ after .modResetAssert live (fun s => (s.rst.phase, s.rst.lastReset, s.gg.state, s.mb.negotiated)) = some (.pinWait, .modReset, .unlocked, false) := by
  decide +kernel

/-- What S1 and S3 find. -/
def boot : BootReport := ⟨false, true, true, 0, 0⟩

/-- A trial of bank 0. -/
def onTrial (s : State) : State := { s with fw := { s.fw with
  banks := #v[⟨2, 2, 9, 0, none⟩, ⟨3, 1, 8, 0, none⟩], retained := some 8 } }

theorem witness_CastOnAndFirmware :
    (waitingPins.rst.phase = .pinWait ∧ waitingPins.pins.modReset = false ∧ waitingPins.rst.warm = false
      ∧ (let s := { waitingPins with rst := { waitingPins.rst with warm := true } }; s.rst.phase = .pinWait ∧ s.pins.warmReset = false ∧ s.pins.perst = false))
    ∧ noKey waitingPins = false ∧ (bootOrder waitingPins).1 = some [0]
    ∧ (let s := { waitingPins with fw := { waitingPins.fw with slots := #v[⟨false, 0, .release⟩, ⟨false, 0, .release⟩] } }; noKey s = true)
    ∧ (let s := inStage 1; s.rst.phase = .up ∧ s.rst.ready = false ∧ s.rst.held = false ∧ s.rst.warm = false ∧ s.rst.recovery = false
      ∧ bankBoots s.fw.banks[(0 : Fin 2)] s = true)
    ∧ (inStage 2).rst.stage = 2 ∧ (inStage 3).rst.stage = 3
    ∧ (let s := { inStage 4 with sb := { live.sb with addr := some 8 }, mb := State.reset.mb }
      s.rst.stage = 4 ∧ s.mb.ctrl.getLsbD 0 = false ∧ (s.mb.qps[(0 : Fin 64)]).state ≠ .enabled ∧ s.mb.doorbells = [] ∧ s.mb.heldValues = []
      ∧ s.rst.resumeAt = 0 ∧ s.fw.fallback = none ∧ closingOf s = none ∧ s.sb.addr ≠ none)
    ∧ (let s := { live with rst := { live.rst with stage := 6 } }; running s = true ∧ s.rst.stage = 6 ∧ s.mb.negotiated = true ∧ s.rst.recovery = false)
    ∧ (let s := stepping 1 (.closing 2) { live with rst := { live.rst with resumeAt := 2 } }
      running s = true ∧ closingOf s = some (aStep 1 (.closing 2), 2) ∧ s.rst.resumeAt ≠ 0)
    ∧ (running (onTrial live) = true ∧ inTrial (onTrial live) = true ∧ ((onTrial live).fw.banks[otherBank (onTrial live).fw.running]).fallbacks = 0) := by
  decide +kernel

/-- R89: S3 takes the masks; R94: without a stack it fails. -/
theorem test_castOn : after (.castOnS3 ⟨0x7F, 0xFFFE, 0x1FF, goodDrive, goodDrive, goodDrive, goodDrive⟩) (inStage 2)
      (fun s => (s.rst.stage, s.ram.stackSet, s.ram.tiles)) = some (3, 0x7F, 0xFFFE)
    ∧ after (.castOnS3 ⟨0, 0xFFFF, 0x1FF, goodDrive, goodDrive, goodDrive, goodDrive⟩) (inStage 2) (fun s => (s.rst.held, s.rst.failCode)) =
      some (true, 2) := by decide +kernel

theorem witness_SidebandRequests : sbServed live = true ∧ live.pm.standalone = false ∧ (8 : Byte) ≠ 0 ∧ (8 : Byte) ≠ 0xFF
    ∧ ((1 : BitVec 16).toNat = (0 : Fin 88).val + 1 ∧ monExcluded 0 live = false
      ∧ ((modMonitor 0 (fun x => { x with valid := true }) live).pm.monitors[(0 : Fin 88)]).valid = true)
    ∧ (let s := { live with sb := { live.sb with fru := some (fruSnapshot live) } }; sbServed s = true ∧ s.sb.fru.isSome = true)
    ∧ spdmServed live = true ∧ (0x11 : Byte) ≠ 0x12 ∧ live.sb.spdm ≠ .negotiated
    ∧ (∀ p ∈ [SpdmPhase.version, .capabilities, .negotiated], spdmServed { live with sb := { live.sb with spdm := p } } = true)
    ∧ (1 : Fin 8) ≠ 0 ∧ (let s := { live with hl := { live.hl with cxl := true } }; spdmServed s = true ∧ s.hl.cxl = true) := by decide +kernel

/-! ### Engines, closes, tiers and the fabric (10 to 12, 16 to 20) -/

/-- A Hook operation of tile 0 that may go on. -/
def aHook (desc : Nat) : HookOp := { newHook 0 (ctx []) 0 .gather desc 0x1000 0 with accepted := true }
def hooked (x : HookOp) : State := let s := stepping 1 .confirm (shelved (coded 0 [0, 0] (ctx []) live)); { s with tl := { s.tl with hooks := [x] } }

/-- A Matrix Unit operation of tile 0: FP32, one row of one element. -/
def aMx (kind more : Nat) : MxOp := ⟨0, 0, 0, 2, 5, (ctx []).segs, BitVec.ofNat 512 (kind + 2 ^ 64 + 2 ^ 80 + 2 ^ 96 + 2 ^ 384 + more), false, 0, {}, 0, [],
  .none, 0, none⟩
def mxed (x : MxOp) : State := let s := coded 0 [0, 0] (ctx []) live; { s with tl := { s.tl with mx := [x] } }

/-- `MxRuns`, as a check. -/
def mxRuns (kind : Nat) (x : MxOp) : Bool :=
  let s := mxed x
  awake s && engines s && decide (mxCurrent 0 s = some x) && decide (x.kind = kind) && decide (x.ending = none) && decide (x.stall = .none)

/-- An update of row 0 of table 9, all of whose elements are added. -/
def anUpdate (tile sender : Nat) : Update := ⟨tile, 0, 0, sender, 1, 1, 9, 0, List.replicate 8 0x3F800000, false, 2, [], .none, none⟩
def adding (mode : Nat) (us : List Update) : State :=
  let s := stepping 1 .confirm (shelved live)
  { s with tbl := { s.tbl with tables := [(9, { table9 with addMode := mode })] }, pu := { s.pu with slots := us } }

/-- `AdderTakes`, as a check. -/
def adderTakes (exact : Bool) (src : Fin 17) (i : Nat) (u : Update) (s : State) : Bool :=
  awake s && engines s && decide (src.val < 16) && decide ((s.pu.slots.filter (fun u => u.tile == src.val && u.dest == ownDev s))[i]? = some u)
    && decide (wantsExact u s = exact) && decide (u.stall = .none)
    && (match updatePlace u s with
      | ((some (t, pa), _), s1) => (poisonedElems t pa s1).isEmpty && decide (takesExact u t pa s1 = exact)
      | _ => false)

theorem witness_Engines :
    (let x := aHook gatherDesc; let s := hooked x
      awake s = true ∧ hookOf 0 s = some x ∧ x.tile = 0 ∧ x.accepted = true ∧ x.ending = none ∧ x.stall = .none ∧ x.halted = false ∧ x.fetched = []
      ∧ x.spec = false ∧ x.next = 0 ∧ 0 < x.count ∧ x.skipTo ≤ 0 ∧ (match fetchElem x 0 .clean s with | (.rows _ _, _) => true | _ => false) = true)
    ∧ (let x := aHook (gatherDesc + 0x10000 * 2 ^ 128); (match fetchElem x 0 .clean (hooked { x with accepted := true }) with
      | (.fault _ _, _) => true | (.rows _ _, _) => decide (x.count = 1) | _ => false) = true)
    ∧ (let x := { aHook gatherDesc with spec := true, halted := true, segs := (ctx []).segs }
      let s := hooked x
      let w : Window := ⟨x.step, .validating, 0, 0, 0, 0, 0, 0⟩
      let s := { s with stp := { s.stp with window := some w } }
      hookOf 0 s = some x ∧ s.stp.window = some w ∧ x.spec = true ∧ x.step = w.step ∧ specComplete x = true ∧ x.reads = [])
    ∧ (∀ k ∈ List.range 5, mxRuns k (aMx k 0) = true) ∧ (aMx 0 0).m = 1 ∧ (aMx 1 0).m = 1 ∧ (aMx 2 0).drain = false
    ∧ (let x := aMx 0 0; match xRead x.who 5 0x1000 x.memRow .read (mxed x) with | (.data bs, u) => (loadRow x bs u).isSome | _ => false) = true
    ∧ (let x := aMx 1 0; let r := storeRow x (mxed x); match xStore x.who 5 0x1000 (mxRow x.outFmt r.1) (mxed x) with | (.done, _) => true | _ => false)
      = true
    ∧ (let x := { aMx 0 0 with ending := some (0, 0, 0) }; engines (mxed x) = true ∧ mxCurrent 0 (mxed x) = some x ∧ x.resEn = false)
    ∧ (let x := { aMx 0 (2 ^ 11 + 2 ^ 12) with ending := some (0, 0, 0) }; x.resEn = true
      ∧ (match xStore x.who 5 0x1000 (x.record 0) (mxed x) with | (.done, _) => true | _ => false) = true)
    ∧ adderTakes false 0 0 (anUpdate 0 0) (adding 1 [anUpdate 0 0]) = true ∧ adderTakes true 0 0 (anUpdate 0 0) (adding 2 [anUpdate 0 0]) = true := by
  decide +kernel

/-- R385: 1.0 is added to each element of a row of zeros. -/
theorem test_floatAdd : after (.floatAdd 0 0) (adding 1 [anUpdate 0 0]) (fun s => (t1Read 0x300000 8 s, s.pu.slots.length)) =
    some ([0, 0, 0x80, 0x3F, 0, 0, 0x80, 0x3F], 0) := by decide +kernel

/-- Step 1 in close stage `k`. -/
def closing (k : Nat) : State := stepping 1 (.closing k) live

theorem witness_CloseStages : (∀ k ∈ [1, 2, 3, 4, 5, 6, 7], let s := closing k
      awake s = true ∧ closeRuns s = true ∧ closingOf s = some (aStep 1 (.closing k), k))
    ∧ (closing 1).tl.hooks = [] ∧ (closing 1).pu.slots = []
    ∧ (let x := aHook (gatherDesc + 2 ^ 55 + 2 ^ 384); let s := stepping 1 (.closing 1) { live with tl := { live.tl with hooks := [x] } }
      s.tl.hooks.any (fun x => !x.spec && x.stepValid && x.step == 1) = true)
    ∧ allAcked 1 (closing 2) = true ∧ peerSet (closing 2) = [] ∧ (closing 3).rst.recountDone = true ∧ (closing 3).ty.check = none
    ∧ (closing 4).pu.accums = [] ∧ (closing 5).tbl.replicas = [] ∧ (aStep 1 (.closing 6)).flipReady = true ∧ (closing 6).stp.closed ≠ 1
    ∧ (closing 6).pu.held = [] ∧ (closing 6).pu.inbound = [] ∧ (closing 7).tbl.tables = [] ∧ (closing 7).stp.heldConfirm = none
    ∧ (∀ p : Fin 4, ((closing 7).res.drives[p]).usable = false) := by decide +kernel

/-- R391: with nothing to wait for, stage 6 ends and the step is closed. -/
theorem test_close : after .closeStage6 (closing 6) (fun s => (s.stp.closed, s.stp.live.map (·.phase))) = some (1, [.closing 7]) := by
  decide +kernel

/-- Drive 1 with an outstanding command. -/
def driven (use : NvmeUse) (old : Bool) : State := modDrive 1 (fun d => { d with
  fitted := true, usable := true, capacity := 1000000, cmds := [⟨5, use, old⟩] }) live

/-- A block of table 9 on its way: its directory entry is `d`. -/
def moving (d : DirEntry) : State := blockMod 9 0 (fun _ => d) (shelved live)

theorem witness_TiersAndScrubbing : engines (shelved live) = true
    ∧ (match lookup 5 0x1000 (shelved live) with | some (.leaf _ _ _) => true | _ => false) = true ∧ (kvGet (shelved live).tx.spaces 5).isSome = true
    ∧ (lookup 6 0 (shelved live)).isNone = true
    ∧ (faulted live).tx.faults.any (·.written) = true
    ∧ (let s := { live with tx := { live.tx with ringSet := true, faults := [{ aFault with written := false }] } }
      (s.tx.faults.find? (fun f => !f.written)).isSome = true ∧ s.tx.frCount < 4096 ∧ hostReach s = true)
    ∧ (anInval.waiting.getLsbD 0 = true ∧ anInval.waiting &&& ~~~ (BitVec.twoPow 58 0) = 0
      ∧ ({ anInval with waiting := 3 } : Inval).waiting &&& ~~~ (BitVec.twoPow 58 0) ≠ 0)
    ∧ (let d : DirEntry := { DirEntry.parse 0 with home := 1, busy := true }
      let s := moving d
      let s := { s with res := { s.res with faultIns := [⟨9, 0, 2, some 0x30, none, none⟩] } }
      (faultInOf 9 0 s).isSome = true ∧ blockDir 9 0 s = some d ∧ homeBytes d s = some [])
    ∧ (let d : DirEntry := { DirEntry.parse 0 with loc := 1, home := 2, t2valid := true, frame := 0x30, dirty := true }
      blockDir 9 0 (moving d) = some d ∧ t2Reach d.t2cxl (moving d) = true)
    ∧ (let s := driven (.dealloc 9 0 77) false; awake s = true ∧ ((s.res.drives[(1 : Fin 4)]).cmds.find? (fun c => c.use == .dealloc 9 0 77)).isSome = true)
    ∧ (let s := driven (.read 9 0) false; (s.res.drives[(1 : Fin 4)]).usable = true ∧ (s.res.drives[(1 : Fin 4)]).faults + 1 < 16
      ∧ ((s.res.drives[(1 : Fin 4)]).cmds.find? (fun c => c.id == 5)).isSome = true ∧ (∀ c ∈ (s.res.drives[(1 : Fin 4)]).cmds, c.id ≠ 6)
      ∧ (nvmeFailed (.read 9 0) 0x22 (modDrive 1 (fun d => { d with cmds := [] }) s)).res.drives[(1 : Fin 4)].faults = 0)
    ∧ (let s := driven (.stepRecord 3) true; (s.res.drives[(1 : Fin 4)]).cmds.find? (fun c => c.id == 5 && c.aborted) = some ⟨5, .stepRecord 3, true⟩)
    ∧ (live.res.drives[(1 : Fin 4)]).usable = false ∧ (live.res.drives[(1 : Fin 4)]).fenced = false ∧ (live.res.drives[(1 : Fin 4)]).cmds = []
    ∧ live.res.faultIns = [] ∧ live.tbl.tables = []
    ∧ mayScrub 0 live = true ∧ poisoned (stackBase 0) live = false ∧ reserved (stackBase 0) = false
    ∧ (∀ per ∈ [false, true], let s := { live with ram := { live.ram with slot := some ⟨0, per, 100, 0, true⟩ } }
      awake s = true ∧ (s.ram.slot.any (fun x => x.active && x.periodic == per && decide (x.quota = 0))) = true) := by decide +kernel

/-- A repair of a sector of block 0 from host memory. -/
def mending : State :=
  let s := moving { DirEntry.parse 0 with loc := 1, home := 2, t2valid := true, t2addr := 0x7000000, frame := 0x30 }
  { s with ram := { s.ram with repairs := [⟨0x300000, 2, false⟩], poison := [0x300000] } }

theorem witness_TiersAndScrubbing_repair : awake mending = true ∧ repairReading ⟨0x300000, 2, false⟩ mending = false
    ∧ (repairBytes 0x300000 2 mending).isSome = true := by decide +kernel

/-- A flit of VC 1 with sequence number 0, all of whose other bytes are 0, and this CRC (R421). -/
def aFlit (crc : Nat) : BitVec 2048 := BitVec.ofNat 2048 (2 ^ 10 + crc * 2 ^ 2016)

/-- The CRC register after the first 2, 27, 52 … 252 bytes of the flit. -/
def crcSteps : List Nat := [0xB94B2919, 0xCF113B92, 0xADCD3281, 0xF057CD08, 0xAB8AE6F6, 0x1199F648, 0xE230E7D9, 0x43C0FBD0, 0xD3B333FD, 0x3E6AA655, 0xBE841E47]

theorem crc_aFlit : crc32 ([0, 4] ++ (List.replicate 10 (List.replicate 25 (0 : Byte))).flatten) = 0x417BE1B8 := by
  have h : ∀ i < 10, (List.replicate 25 (0 : Byte)).foldl crcByte (crcSteps.getD i 0) = crcSteps.getD (i + 1) 0 := by decide +kernel
  have h0 : ([0, 4] : List Byte).foldl crcByte 0xFFFFFFFF = crcSteps.getD 0 0 := by decide +kernel
  generalize List.replicate 25 (0 : Byte) = z at h ⊢
  simp only [crc32, List.foldl_append, h0, List.replicate, List.foldl_flatten, List.foldl_cons, List.foldl_nil]
  rw [h 0 (by decide), h 1 (by decide), h 2 (by decide), h 3 (by decide), h 4 (by decide), h 5 (by decide), h 6 (by decide), h 7 (by decide),
    h 8 (by decide), h 9 (by decide)]
  decide +kernel

theorem bytes_aFlit (crc : Nat) (h : crc = 0x417BE1B8 ∨ crc = 0) : let bs := toBytes 256 (aFlit crc).toNat
    bs.take 252 = [0, 4] ++ (List.replicate 10 (List.replicate 25 (0 : Byte))).flatten ∧ ofBytes (bs.drop 252) = crc := by
  rcases h with rfl | rfl <;> decide +kernel

/-- Routes to device 3 over port 0, and the shard map that names it. -/
def routed (s : State) : State := let s := joined s; { s with fab := { s.fab with routes := [(3, 0)], shards := [⟨9, 0, 3, 0, 0⟩] } }

/-- A row request that waits for its answer. -/
def aGet (op : Nat) : RowGet := ⟨4, 3, 2, false, false, 9, 0, 0, 0, 0, op, 0, 0, .answer, none⟩
def asking (s : State) : State := { s with fab := { s.fab with gets := [aGet 0] } }

/-- An update in the retransmit store for device 3. -/
def anOut (w : GetWait) : Resend := ⟨{ anUpdate 0 2 with dest := 3 }, w⟩
def storing (w : GetWait) (s : State) : State := { s with pu := { s.pu with store := [anOut w] } }

theorem witness_FabricLinks :
    (let s := modPort 0 (fun x => { x with state := .training, enabled := true, expected := some 3 }) live;
      running s = true ∧ s.er.fatal = false ∧ (s.fab.ports[(0 : Fin 9)]).expected = some 3 ∧ portLive 0 s = true)
    ∧ (modPort 0 (fun x => { x with plies := 1 }) (joined live)).fab.ports[(0 : Fin 9)].plies.getLsbD 0 = true
    ∧ (modPort 0 (fun x => { x with plies := 1, state := .down }) live).fab.ports[(0 : Fin 9)].plies.getLsbD 1 = false
    ∧ portLive 0 (joined live) = true ∧ (0 + 1 + 1024 - 1) % 1024 = 0
    ∧ (∀ crc ∈ [0, 0x417BE1B8], let bs := toBytes 256 (aFlit crc).toNat; bits (ofBytes (bs.take 2)) 0 10 = 0 ∧ bits (ofBytes (bs.take 2)) 10 3 = 1)
    ∧ 0 < ownAlloc[(1 : Fin 5)]
    ∧ (modPort 0 (fun x => { x with rxFreed := Vector.replicate 5 1 }) (joined live)).fab.ports[(0 : Fin 9)].rxFreed[(0 : Fin 5)] ≠ 0
    ∧ (live.fab.ports[(0 : Fin 9)]).state ≠ .joined
    ∧ running quieting = false ∧ awake quieting = true
    ∧ computeRoutes live = live.fab.routes ∧ computeRoutes (joined live) ≠ (joined live).fab.routes ∧ (joined live).fab.gets = []
    ∧ (getOf 4 (asking (routed live))).isSome = true ∧ engines (asking (routed live)) = true ∧ getOf 5 (asking live) = none
    ∧ operational (routed live) = true ∧ storedUpdate 3 1 (storing .answer (routed live)) = some (anOut .answer)
    ∧ routeTo 3 (routed live) = some 0
    ∧ (storing .lag (routed live)).pu.store.filter (fun r => r.wait == .lag && r.upd.dest == 3) = [anOut .lag]
    ∧ ownerOf 9 0 (routed live) = 3 := by decide +kernel

/-- A message from device 3 to device 2: its type, byte offsets with values and widths, and its body. -/
def msg (type : Nat) (fs : List (Nat × Nat × Nat)) (body : List Byte) : List Byte :=
  toBytes 48 (fs.foldl (fun h f => mput f.1 f.2.1 f.2.2 h) (type + 2 * 2 ^ 16 + 3 * 2 ^ 32 + (48 + body.length) * 2 ^ 48)) ++ body

/-- `Arrives`, as a check. -/
def arrives (type : Nat) (vc : Fin 5) (m : List Byte) (s : State) : Bool :=
  awake s && decide ((s.fab.ports[(0 : Fin 9)]).state = .joined) && decide (mType m = type) && wellFormedMsg vc m
    && (!routedType m || decide (mDst m = ownDev s))

theorem arrives_of_check {type : Nat} {vc : Fin 5} {m : List Byte} {s : State} (h : arrives type vc m s = true) : Arrives type 0 vc m s := by
  simp only [arrives, Bool.and_eq_true, Bool.or_eq_true, Bool.not_eq_true', decide_eq_true_eq] at h
  exact ⟨h.1.1.1.1, h.1.1.1.2, h.1.1.2, h.1.2, fun hr => h.2.resolve_left (by rw [hr]; decide)⟩

/-- Device 2 with table 9, whose rows device 2 owns, joined to device 3. -/
def owner : State :=
  let s := shelved (joined live)
  { s with fab := { s.fab with shards := [⟨9, 0, 2, 0, 0⟩, ⟨8, 0, 3, 0, 0⟩] }, tbl := { s.tbl with tables := [(9, { table9 with addMode := 1 })] } }

/-- The messages of the witnesses. -/
def getMsg (more : Nat) : List Byte := msg 0x01 [(12, 4, 77), (16, 1, 2 + more), (18, 3, 9)] []
def dataMsg' : List Byte := msg 0x02 [(12, 4, 4)] (List.replicate 32 1)
def addMsg (sq : Nat) : List Byte := msg 0x03 [(12, 8, sq), (20, 6, 1), (26, 3, 9), (40, 1, 2)] (List.replicate 32 0)

theorem witness_FabricMessages_rows :
    arrives 0x01 2 (getMsg 0) (joined live) = true ∧ tableOf 9 (joined live) = none
    ∧ (∀ more ∈ [0, 8], arrives 0x01 2 (getMsg more) owner = true ∧ (mfld (getMsg more) 16 1).testBit 3 = decide (more = 8))
    ∧ (tableOf 9 owner).isSome = true ∧ table9.slot 0 = some 0 ∧ ownerOf 9 0 owner = ownDev owner ∧ rowCopies 9 0 0 owner = []
    ∧ ((blockDir 9 0 owner).any (fun d => d.abset == 0)) = true
    ∧ (match xRead ⟨3, 0, 2, false, 0⟩ 5 (2 ^ 30) 32 .read owner with | (.data _, _) => true | _ => false) = true
    ∧ arrives 0x02 0 dataMsg' owner = true ∧ getOf 4 owner = none
    ∧ (let s := asking { owner with tl := { owner.tl with hooks := [aHook gatherDesc] } }
      arrives 0x02 0 dataMsg' s = true ∧ getOf 4 s = some (aGet 0) ∧ (hookOf 0 s).isSome = true ∧ (dataMsg'.drop 48).length = table9.rowBytes
      ∧ (∀ r ∈ [8, 9], arrives 0x05 0 (msg 0x05 [(12, 1, r), (16, 8, 4)] []) s = true))
    ∧ arrives 0x05 0 (msg 0x05 [(12, 1, 6), (16, 8, 4)] []) owner = true
    ∧ (let s := storing .answer owner; arrives 0x05 0 (msg 0x05 [(12, 1, 6), (13, 1, 1), (16, 8, 1)] []) s = true ∧ storedUpdate 3 1 s = some (anOut .answer)
      ∧ arrives 0x04 0 (msg 0x04 [(12, 8, 1)] []) s = true)
    ∧ arrives 0x04 0 (msg 0x04 [(12, 8, 1)] []) owner = true ∧ storedUpdate 3 1 owner = none := by decide +kernel

theorem witness_FabricMessages_updates :
    (∀ x ∈ [(StepPhase.confirm, TagVerdict.now), (.closing 3, .mismatch)], tagVerdict 1 (stepping 1 x.1 owner) = x.2)
    ∧ tagVerdict 2 (stepping 1 (.closing 3) owner) = .hold ∧ (peerSet owner).contains 3 = true
    ∧ (let s := stepping 1 .confirm owner; arrives 0x03 2 (addMsg 5) s = true ∧ (senderOf 3 s).seen 5 = false ∧ 5 < (senderOf 3 s).next.toNat + 1024
      ∧ s.pu.inbound ++ s.pu.held = [] ∧ addLengthOk { table9 with addMode := 1 } (addMsg 5) = true)
    ∧ arrives 0x03 2 (addMsg 0) owner = true ∧ (senderOf 3 owner).seen 0 = true := by decide +kernel

theorem witness_FabricMessages_links :
    arrives 0x06 4 (msg 0x06 [] []) owner = true ∧ (∀ v : Fin 5, (owner.fab.ports[(0 : Fin 9)]).avail[v] + 0 ≤ (owner.fab.ports[(0 : Fin 9)]).alloc[v])
    ∧ (∀ x ∈ [(0xFF, 0), (0, 15), (0, 3)], let s := { owner with gg := { owner.gg with cfg := { owner.gg.cfg with upstream := x.1 } } }
      arrives 0x07 4 (msg 0x07 [(28, 1, x.2)] []) s = true ∧ s.gg.cfg.source = 0)
    ∧ ({ owner with gg := { owner.gg with cfg := { owner.gg.cfg with source := 1 } } } : State).gg.cfg.source = 1
    ∧ (∀ x ∈ [(0xFF, 0), (0, 0), (0, 64)], let s := { owner with fw := { owner.fw with chainUp := x.1 } }
      arrives 0x08 4 (msg 0x08 [(12, 4, x.2), (16, 4, 8)] (List.replicate 8 0)) s = true ∧ running s = true ∧ s.fw.staging = none ∧ s.fw.applying = none
      ∧ (idleBank s).state ≠ 1 ∧ activatePending s = false ∧ inTrial s = false)
    ∧ arrives 0x08 4 (msg 0x08 [(16, 4, 8)] (List.replicate 8 0)) { owner with rst := { owner.rst with phase := .quiesce } } = true
    ∧ (let hello := fun id al : Nat => msg 0x09 [(12, 1, 1), (16, 2, id), (32, 2, al), (34, 2, al), (36, 2, al), (38, 2, al), (40, 2, al)] []
      let s := modPort 0 (fun x => { x with state := .training, helloSent := true }) { live with fab := { live.fab with id := some 2 } }
      awake s = true ∧ running s = true ∧ wellFormedMsg 4 (hello 3 64) = true ∧ allocOk (helloAlloc (hello 3 64)) = true
      ∧ mfld (hello 3 64) 16 2 % 512 ≠ ownDev s ∧ (s.fab.ports[(0 : Fin 9)]).expected = none ∧ mfld (hello 2 64) 16 2 % 512 = ownDev s)
    ∧ (∀ sub ∈ [2, 3, 5, 6], wellFormedMsg 4 (msg 0x09 [(12, 1, sub)] []) = true)
    ∧ wellFormedMsg 4 (msg 0x09 [(12, 1, 5), (16, 6, 1)] []) = true ∧ owner.stp.closed < 1
    ∧ (∀ o ∈ [2, 4], wellFormedMsg 4 (msg 0x09 [(1, 1, 63), (12, 1, 4), (16, 2, o)] (List.replicate 18 0)) = true
      ∧ mHops (msg 0x09 [(1, 1, 63), (12, 1, 4), (16, 2, o)] (List.replicate 18 0)) % 64 = 63) ∧ owner.fab.links = []
    ∧ (modPort 0 (fun x => { x with echo := some 0 }) owner).fab.ports[(0 : Fin 9)].echo = some (mfld (msg 0x09 [(12, 1, 3)] []) 16 8)
    ∧ (owner.fab.ports[(0 : Fin 9)]).echo ≠ some 0 ∧ owner.stp.left = []
    ∧ (let m := msg 0x04 [(2, 2, 5), (12, 8, 1)] []; let s := { owner with fab := { owner.fab with routes := [(7, 0)] } }
      wellFormedMsg 0 m = true ∧ routedType m = true ∧ mDst m = 7 ∧ mDst m ≠ ownDev s ∧ routeTo (mDst m) s = some 0 ∧ mHops m % 64 < 63) := by
  decide +kernel

/-! ### The queue and the whole machine -/

theorem witness_EmptyQueueIdles : State.reset.pending = [] ∧ operational State.reset = false ∧ live.pending = [] ∧ operational live = true := by
  decide +kernel

theorem witness_QuietSettles : quiet State.reset = true ∧ quiet live = true := by decide +kernel

theorem witness_AsleepIgnores : awake State.reset = false ∧ inputRow .gaugeLock = false := by decide +kernel

theorem witness_PyratDecodeEncode : (ins .add 0 0).wf = true ∧ repeated.wf = true := by decide

/-- A step takes the front command; an empty queue answers a next state. -/
theorem test_step : (match step { live with pending := [.mbSqTail 1 5, .mbSqTail 1 6] } with
      | .next t => t.pending == [.mbSqTail 1 6] && decide (t.hl.violCount = 1) | _ => false) = true
    ∧ (match step State.reset with | .next t => decide (t = State.reset) | _ => false) = true ∧ goesOn (step live) = true := by decide +kernel

/-- No word of the table spells a command. -/
theorem test_words : decodeTableWord 32 0 = none ∧ State.reset.withFetchWord 32 0 = State.reset := by decide +kernel

end Sys2Proof.Tests
end

namespace Sys2Proof.Machine

open Sys2Proof

/-! ### Byte memories at reset (O7) -/

/-- Settles O7: every byte memory is empty at reset. -/
theorem resetMemoriesCanonical : Obligations.ResetMemoriesCanonical := by
  refine ⟨wf_nil, wf_nil, fun t => ?_, fun p => ?_⟩
  · simp only [State.reset, Fin.getElem_fin, Vector.getElem_replicate, wf_nil]
  · simp only [State.reset, Fin.getElem_fin, Vector.getElem_replicate, wf_nil]

end Sys2Proof.Machine

namespace Sys2Proof.Machine

open Sys2Proof

/-! ### BAR0 accesses of an open BAR (R125, R527) -/

/-- Where BAR0 is open, no access comes too early (R91). -/
theorem tooEarly_open {off : Nat} {s : State} (h : barOpen s = true) : tooEarly off s = false := by
  simp only [tooEarly, barOpen_full h, reduceCtorEq, decide_false, Bool.false_and]

/-- An open BAR0 refuses no read for the link's state. -/
theorem barRead_open {off size : Nat} {s : State} (h : barOpen s = true) : barRead off size s =
    if size = 4 ∧ off % 4 = 0 then emit (.regData off size (read4 off s).1) (read4 off s).2
    else if size = 8 ∧ off % 8 = 0 then emit (.regData off size (read8 off s).1) (read8 off s).2
    else emit (.regData off size 0) (violation 0x05 0 off 0 s) := by
  have hm : barMode s ≠ .unsupported := by rw [barOpen_full h]; decide
  rw [barRead, if_neg hm, tooEarly_open h, Bool.and_false, if_neg Bool.false_ne_true]

/-- An open BAR0 refuses no write for the link's state. -/
theorem barWrite_open {off size v : Nat} {s : State} (h : barOpen s = true) : barWrite off size v s =
    if size = 4 ∧ off % 4 = 0 then write4 off (v % 2 ^ 32) s
    else if size = 8 ∧ off % 8 = 0 then write8 off (v % 2 ^ 64) s
    else violation 0x05 0 off 0 s := by
  have hm : barMode s ≠ .unsupported := by rw [barOpen_full h]; decide
  rw [barWrite, if_neg hm, tooEarly_open h, Bool.and_false, if_neg Bool.false_ne_true]

/-- A 4-byte read of a 32-bit register returns its value and leaves what its read leaves. -/
theorem barRead_narrow {off : Nat} {r : Reg} {s : State} (h : barOpen s = true) (ha : off % 4 = 0) (hr : regAt off = some (r, false))
    (hw : r.wide = false) : barRead off 4 s = emit (.regData off 4 (r.value s)) (r.onRead s) := by
  rw [barRead_open h, if_pos ⟨rfl, ha⟩]
  simp only [read4, hr, hw, Bool.false_eq_true, if_false]

/-- A 4-byte write at an aligned offset reaches the registers. -/
theorem barWrite_aligned {off v : Nat} {s : State} (h : barOpen s = true) (ha : off % 4 = 0) :
    barWrite off 4 v s = write4 off (v % 2 ^ 32) s := by
  rw [barWrite_open h, if_pos ⟨rfl, ha⟩]

/-- A 4-byte write of a 32-bit register has the register's effect. -/
theorem barWrite_narrow {off : Nat} {r : Reg} {s : State} (h : barOpen s = true) (ha : off % 4 = 0) (hr : regAt off = some (r, false))
    (hw : r.wide = false) (v : W32) : barWrite off 4 v.toNat s = r.write v.toNat s := by
  rw [barWrite_aligned h ha]
  simp only [write4, hr, hw, Bool.false_eq_true, if_false, Nat.mod_eq_of_lt v.isLt]

/-- A row that writes a 32-bit register answers the register's effect. -/
theorem answers_write {c : Instr} {off : Nat} {r : Reg} {v : W32} {s t : State} (hx : exec c s = act (barWrite off 4 v.toNat) s)
    (h : barOpen s = true) (ha : off % 4 = 0) (hr : regAt off = some (r, false)) (hw : r.wide = false) (ht : r.write v.toNat s = t) :
    Answers c s t :=
  answers_act hx (barOpen_awake h) ((barWrite_narrow h ha hr hw v).trans ht)

/-- A row that reads a 32-bit register answers its value and what its read leaves. -/
theorem answers_read {c : Instr} {off n : Nat} {r : Reg} {s t : State} (hx : exec c s = act (barRead off 4) s) (h : barOpen s = true)
    (ha : off % 4 = 0) (hr : regAt off = some (r, false)) (hw : r.wide = false) (hv : r.value s = n) (ht : r.onRead s = t) :
    Answers c s (emit (.regData off 4 n) t) :=
  answers_act hx (barOpen_awake h) (by rw [barRead_narrow h ha hr hw, hv, ht])

/-- A row that writes a 64-bit register does so whole and by halves (R125, R527). -/
theorem writes_wide {c : RegPart → W64 → Instr} {off keep : Nat} {f : Nat → State → State} {s : State} (r : Reg)
    (hx : ∀ p v, exec (c p v) s = act (partWrite off p v) s) (h : barOpen s = true) (h1 : regAt off = some (r, false))
    (h2 : regAt (off + 4) = some (r, true)) (hw : r.wide = true) (ha : off % 8 = 0) (hk : r.keepLow s = keep)
    (hf : ∀ v t, r.write v t = f v t) : WritesWide c off keep f s := by
  have h4 : off % 4 = 0 := by omega
  have low (v : W64) : partWrite off .low v s = write4 off (v.toNat % 2 ^ 32) s := by
    rw [partWrite, barWrite_aligned h h4, Nat.mod_mod]
  have high (v : W64) : partWrite off .high v s = write4 (off + 4) (v.toNat % 2 ^ 32) s := by
    rw [partWrite, barWrite_aligned h (by omega), Nat.mod_mod]
  refine ⟨fun v => ?_, fun v => ?_, fun v x hl => ?_, fun v hl => ?_⟩
  · refine answers_act (hx _ _) (barOpen_awake h) ?_
    rw [partWrite, barWrite_open h, if_neg (fun e => absurd e.1 (by decide)), if_pos ⟨rfl, ha⟩, Nat.mod_eq_of_lt v.isLt]
    simp only [write8, h1, hw, if_true, hf]
  · refine answers_act (hx _ _) (barOpen_awake h) ((low v).trans ?_)
    simp only [write4, h1, hw, if_true]
    rw [show BitVec.ofNat 32 (v.toNat % 2 ^ 32) = v.setWidth 32 from BitVec.eq_of_toNat_eq (by
      rw [BitVec.toNat_ofNat, BitVec.toNat_setWidth, Nat.mod_mod])]
  · refine answers_act (hx _ _) (barOpen_awake h) ((high v).trans ?_)
    simp only [write4, h2, Nat.add_sub_cancel, hl, Nat.mod_mod, hf]
  · refine answers_act (hx _ _) (barOpen_awake h) ((high v).trans ?_)
    simp only [write4, h2, Nat.add_sub_cancel, hl, hk, Nat.mod_mod, hf]

theorem regAt_slice : ∀ k : Fin 8, regAt (0x100 + 8 * k.val) = some (.slice k, false) ∧
    regAt (0x100 + 8 * k.val + 4) = some (.slice k, true) := by
  decide

theorem regAt_erCount : ∀ k : Fin 5, regAt (0x40020 + 4 * k.val) = some (.erCount k, false) := by decide

/-- The registers of these offsets are read-only: they ignore a write (R8). -/
theorem regAt_readOnly {off : BitVec 24} (h : off ∈ [(0x0 : BitVec 24), 0x10000, 0x40008, 0x60000, 0x70000]) : off.toNat % 4 = 0 ∧
    ∃ r, regAt off.toNat = some (r, false) ∧ r.wide = false ∧ ∀ v s, r.write v s = s := by
  simp only [List.mem_cons, List.not_mem_nil, or_false] at h
  rcases h with rfl | rfl | rfl | rfl | rfl
  · exact ⟨rfl, .hlLink, rfl, rfl, fun _ _ => rfl⟩
  · exact ⟨rfl, .mbStatus, rfl, rfl, fun _ _ => rfl⟩
  · exact ⟨rfl, .erLogHead, rfl, rfl, fun _ _ => rfl⟩
  · exact ⟨rfl, .idPci, rfl, rfl, fun _ _ => rfl⟩
  · exact ⟨rfl, .fwState, rfl, rfl, fun _ _ => rfl⟩

/-- GG_PHASE reads the latched phase, or the phase that runs (R534). -/
theorem value_ggPhase {s : State} (h1 : s.gg.state ≠ .unlocked) (h2 : s.rst.recovery = false) :
    Reg.value .ggPhase s = (s.gg.phaseLatch.getD s.gg.phase).toNat := by
  simp only [Reg.value, h1, h2]
  cases s.gg.phaseLatch <;> rfl

/-- The clearing of a vector's mask is a write of its mask word (R136, R535). -/
theorem writeMsix_unmask (v : Fin 128) (s : State) :
    writeMsix v 3 0 s = sendPending { s with hl := { s.hl with msix := vmod s.hl.msix v (fun y => { y with mask := false }) } } v := rfl

/-- Settles O46: each register is read through `answers_read` or `reads_wide`, and its read effect is the one the statement writes out. -/
theorem registerReads : Obligations.RegisterReads := by
  intro s h inst cell k stack
  refine ⟨?_, ?_, fun j => ?_, ?_, ?_, ?_, ?_, ?_, ?_, ?_, fun h1 h2 => ?_⟩
  · exact answers_read (r := .hlViol) rfl h rfl rfl rfl rfl rfl
  · exact answers_read (r := .hlRefused) rfl h rfl rfl rfl rfl rfl
  · exact answers_read rfl h (by omega) (regAt_erCount j) rfl rfl rfl
  · exact answers_read (r := .pmThrottle) rfl h rfl rfl rfl rfl rfl
  · exact reads_wide .sqInfo (fun _ => rfl) h rfl rfl rfl rfl rfl rfl
  · exact reads_wide .sqCount (fun _ => rfl) h rfl rfl rfl rfl rfl rfl
  · exact reads_wide .erMemCount (fun _ => rfl) h rfl rfl rfl rfl rfl rfl
  · exact reads_wide .erMemStack (fun _ => rfl) h rfl rfl rfl rfl rfl rfl
  · exact reads_wide .erMemPoison (fun _ => rfl) h rfl rfl rfl rfl rfl rfl
  · exact reads_wide .ggBeat (fun _ => rfl) h rfl rfl rfl rfl rfl rfl
  · exact answers_read (r := .ggPhase) rfl h rfl rfl rfl (value_ggPhase h1 h2) rfl

/-- Settles O47: each register is written through `answers_write` or `writes_wide`; the last clauses are accesses that reach no register. -/
theorem registerWrites : Obligations.RegisterWrites := by
  intro s h
  have awake := barOpen_awake h
  refine ⟨fun k => ?_, ?_, fun v => ?_⟩
  · exact writes_wide (.slice k) (fun _ _ => rfl) h (regAt_slice k).1 (regAt_slice k).2 rfl (by omega) rfl (fun _ _ => rfl)
  · exact writes_wide .tyAlarm (fun _ _ => rfl) h rfl rfl rfl rfl rfl (fun _ _ => rfl)
  have narrow (n : Nat) : BitVec.ofNat n v.toNat = v.setWidth n := BitVec.ofNat_toNat n v
  have wide : (v.setWidth 64).toNat = v.toNat :=
    BitVec.toNat_setWidth_of_le (by decide)
  refine ⟨fun hv => ?_, fun hv => ?_, ?_, ?_, ?_, fun h1 h2 => ?_, fun x => ?_, ?_, ?_, ?_, fun off ho => ?_, fun off ha hr => ?_,
    fun off n h4 h8 => ?_⟩
  · exact answers_write (r := .sqSel) rfl h rfl rfl rfl (by simp only [Reg.write, writeSqSel, hv, if_true, narrow])
  · exact answers_write (r := .sqSel) rfl h rfl rfl rfl (by simp only [Reg.write, writeSqSel, hv, Bool.false_eq_true, if_false])
  · exact answers_write (r := .erSummary) rfl h rfl rfl rfl (by simp only [Reg.write, narrow])
  · exact answers_write (r := .erMemSel) rfl h rfl rfl rfl (by simp only [Reg.write, writeMemSel, narrow])
  · exact answers_write (r := .pmEvent) rfl h rfl rfl rfl (by simp only [Reg.write, narrow, BitVec.setWidth_eq])
  · exact answers_write (r := .txHead) rfl h rfl rfl rfl (if_neg (by omega))
  · exact answers_act rfl awake (writeMsix_unmask x s)
  · exact answers_act rfl awake rfl
  · exact answers_write (r := .erMask) (by rw [← wide]; rfl) h rfl rfl rfl (by simp only [Reg.write, narrow])
  · exact answers_write (r := .pmEventMask) (by rw [← wide]; rfl) h rfl rfl rfl (by simp only [Reg.write, pmEventBits, narrow, BitVec.setWidth_eq])
  · obtain ⟨ha, r, hr, hw, hf⟩ := regAt_readOnly ho
    exact answers_write (by rw [← wide]; rfl) h ha hr hw (hf _ _)
  · refine answers_act (f := barWrite off.toNat 4 (v.setWidth 64).toNat) rfl awake ?_
    rw [barWrite_aligned h ha]
    simp only [write4, hr]
  · have n4 : ¬(n.val = 4 ∧ off.toNat % 4 = 0) := fun hn => h4 ⟨Fin.ext hn.1, hn.2⟩
    have n8 : ¬(n.val = 8 ∧ off.toNat % 8 = 0) := fun hn => h8 ⟨Fin.ext hn.1, hn.2⟩
    refine answers_act (f := barWrite off.toNat n.val (v.setWidth 64).toNat) rfl awake ?_
    rw [barWrite_open h, if_neg n4, if_neg n8]

end Sys2Proof.Machine

namespace Sys2Proof.Machine

open Sys2Proof

/-! ### The byte memories of a state, and what keeps them canonical -/

/-- The parts of a state that hold its byte memories. -/
abbrev State.mems (s : State) : List Host.Cell × List Host.Cell × Vector (List Host.Cell) 16 × Vector Drive 4 :=
  (s.host, s.ram.t1, s.tl.staging, s.res.drives)

/-- A state with the same byte memories is canonical with it. -/
theorem State.memWf.same {s t : State} (h : s.memWf) (e : t.mems = s.mems) : t.memWf := by
  simp only [State.mems, Prod.mk.injEq] at e
  obtain ⟨hh, ht, hl, hd⟩ := e
  simpa only [State.memWf, hh, ht, hl, hd] using h

/-- A state with other, canonical host memory. -/
theorem State.memWf.with_host {s t : State} (h : s.memWf) (hw : Memory.wf t.host = true)
    (e : (t.ram.t1, t.tl.staging, t.res.drives) = (s.ram.t1, s.tl.staging, s.res.drives)) : t.memWf := by
  simp only [Prod.mk.injEq] at e
  obtain ⟨ht, hl, hd⟩ := e
  obtain ⟨-, h⟩ := h
  exact ⟨hw, by simpa only [ht, hl, hd] using h⟩

/-- A state with other, canonical tier T1. -/
theorem State.memWf.with_t1 {s t : State} (h : s.memWf) (hw : Memory.wf t.ram.t1 = true)
    (e : (t.host, t.tl.staging, t.res.drives) = (s.host, s.tl.staging, s.res.drives)) : t.memWf := by
  simp only [Prod.mk.injEq] at e
  obtain ⟨hh, hl, hd⟩ := e
  obtain ⟨h1, -, h3⟩ := h
  exact ⟨by rwa [hh], hw, by simpa only [hl, hd] using h3⟩

/-- A state with other, canonical staging memories. -/
theorem State.memWf.with_staging {s t : State} (h : s.memWf) (hw : ∀ i : Fin 16, Memory.wf t.tl.staging[i] = true)
    (e : (t.host, t.ram.t1, t.res.drives) = (s.host, s.ram.t1, s.res.drives)) : t.memWf := by
  simp only [Prod.mk.injEq] at e
  obtain ⟨hh, ht, hd⟩ := e
  obtain ⟨h1, h2, -, h4⟩ := h
  exact ⟨by rwa [hh], by rwa [ht], hw, by simpa only [hd] using h4⟩

/-- A state with other drives, whose data are canonical. -/
theorem State.memWf.with_drives {s t : State} (h : s.memWf) (hw : ∀ p : Fin 4, Memory.wf (t.res.drives[p]).data = true)
    (e : (t.host, t.ram.t1, t.tl.staging) = (s.host, s.ram.t1, s.tl.staging)) : t.memWf := by
  simp only [Prod.mk.injEq] at e
  obtain ⟨hh, ht, hl⟩ := e
  obtain ⟨h1, h2, h3, -⟩ := h
  exact ⟨by rwa [hh], by rwa [ht], by simpa only [hl] using h3, hw⟩

theorem State.memWf.host {s : State} (h : s.memWf) : Memory.wf s.host = true := h.1
theorem State.memWf.t1 {s : State} (h : s.memWf) : Memory.wf s.ram.t1 = true := h.2.1
theorem State.memWf.staging {s : State} (h : s.memWf) (i : Fin 16) : Memory.wf s.tl.staging[i] = true := h.2.2.1 i
theorem State.memWf.drives {s : State} (h : s.memWf) (p : Fin 4) : Memory.wf (s.res.drives[p]).data = true := h.2.2.2 p

-- Fields that hold no byte memory may change freely.
theorem State.memWf.with_rst {s : State} (h : s.memWf) {x : _} : State.memWf { s with rst := x } := h.same rfl
theorem State.memWf.with_pins {s : State} (h : s.memWf) {x : _} : State.memWf { s with pins := x } := h.same rfl
theorem State.memWf.with_gg {s : State} (h : s.memWf) {x : _} : State.memWf { s with gg := x } := h.same rfl
theorem State.memWf.with_mb {s : State} (h : s.memWf) {x : _} : State.memWf { s with mb := x } := h.same rfl
theorem State.memWf.with_th {s : State} (h : s.memWf) {x : _} : State.memWf { s with th := x } := h.same rfl

/-- A change of the memory unit that leaves tier T1 alone. -/
theorem State.memWf.with_ram {s : State} (h : s.memWf) {x : _} (e : x.t1 = s.ram.t1) : State.memWf { s with ram := x } :=
  h.with_t1 (by rw [e]; exact h.t1) rfl

/-- A change of the tiles' unit that leaves the staging memories alone. -/
theorem State.memWf.with_tl {s : State} (h : s.memWf) {x : _} (e : x.staging = s.tl.staging) : State.memWf { s with tl := x } :=
  h.with_staging (fun i => by rw [e]; exact h.staging i) rfl

theorem ite_memWf {c : Prop} [Decidable c] {s t : State} (hs : s.memWf) (ht : t.memWf) : (if c then s else t).memWf := by
  split
  · exact hs
  · exact ht

/-- A condition decides whether one more change is made. -/
theorem ite_keep {c : Prop} [Decidable c] {s t : State} (h : s.memWf) (k : s.memWf → t.memWf) : (if c then t else s).memWf :=
  ite_memWf (k h) h

/-- A condition decides whether one more change is left out. -/
theorem keep_ite {c : Prop} [Decidable c] {s t : State} (h : s.memWf) (k : s.memWf → t.memWf) : (if c then s else t).memWf :=
  ite_memWf h (k h)

theorem ite_snd_memWf {α : Type} {c : Prop} [Decidable c] {p q : α × State} (hp : p.2.memWf) (hq : q.2.memWf) :
    (if c then p else q).2.memWf := by
  split
  · exact hp
  · exact hq

theorem foldl_snd_memWf {α β : Type} {f : β × State → α → β × State} {l : List α} {p : β × State} (h : p.2.memWf)
    (hf : ∀ p x, p.2.memWf → (f p x).2.memWf) : (l.foldl f p).2.memWf := foldl_keeps (fun p => p.2.memWf) f hf l p h

theorem foldl_fst_memWf {α β : Type} {f : State × β → α → State × β} {l : List α} {p : State × β} (h : p.1.memWf)
    (hf : ∀ p x, p.1.memWf → (f p x).1.memWf) : (l.foldl f p).1.memWf := foldl_keeps (fun p => p.1.memWf) f hf l p h

theorem ite_snd_snd_memWf {α β : Type} {c : Prop} [Decidable c] {p q : α × β × State} (hp : p.2.2.memWf) (hq : q.2.2.memWf) :
    (if c then p else q).2.2.memWf := by
  split
  · exact hp
  · exact hq

/-- The state of a pair whose components are known. -/
theorem memWf_of_snd {α : Type} {p : α × State} {a : α} {s : State} (e : p = (a, s)) (h : p.2.memWf) : s.memWf := by
  subst e; exact h

theorem foldl_memWf {α : Type} {f : State → α → State} {l : List α} {s : State} (h : s.memWf) (hf : ∀ s x, s.memWf → (f s x).memWf) :
    (l.foldl f s).memWf := foldl_keeps State.memWf f hf l s h

/-- The state in which an instruction ends is canonical. -/
def Run.memWf : Run → Prop
  | .done _ _ s => s.memWf
  | .hold _ s => s.memWf
  | .fault _ _ _ s => s.memWf
  | .claim _ s => s.memWf
  | .later s => s.memWf

/-- The state after a step of an instruction is canonical. -/
def TStep.memWf {α : Type} : TStep α → Prop
  | .ok _ _ s => s.memWf
  | .stop r => r.memWf

theorem ite_run_memWf {c : Prop} [Decidable c] {x y : Run} (hx : x.memWf) (hy : y.memWf) : (if c then x else y).memWf := by
  split
  · exact hx
  · exact hy

theorem ite_step_memWf {α : Type} {c : Prop} [Decidable c] {x y : TStep α} (hx : x.memWf) (hy : y.memWf) : (if c then x else y).memWf := by
  split
  · exact hx
  · exact hy

theorem TStep.andThen_memWf {α β : Type} {x : TStep α} {f : α → Thread → State → TStep β} (hx : x.memWf)
    (hf : ∀ a t s, s.memWf → (f a t s).memWf) : (x.andThen f).memWf := by
  cases x with
  | ok a t s => exact hf a t s hx
  | stop r => exact hx

theorem TStep.finish_memWf {α : Type} {x : TStep α} (hx : x.memWf) : x.finish.memWf := by
  cases x with
  | ok a t s => exact hx
  | stop r => exact hx

/-- An instruction's meaning keeps the memories canonical. -/
def Meaning.KeepsMem (m : Meaning) : Prop := ∀ key i t (s : State), s.memWf → (m key i t s).memWf

/-- The state in what a mark comes to is canonical. -/
def MarkResult.memWf : MarkResult → Prop
  | .nothing => True
  | .deferred s => s.memWf
  | .fire _ _ s => s.memWf

end Sys2Proof.Machine

namespace Sys2Proof.Machine

open Sys2Proof

/-! ### What each function of the model does to the byte memories

For every function `f` of the model that answers a state there is a lemma `f_memWf`: from canonical memories it goes to canonical memories.
The lemmas stand in the order of the model's files. A function that leaves the memories alone is settled by `State.memWf.same`; the few that
write bytes (`t1Put`, `hostWrite`, `wbData`, `writeOut`, ...) rest on `wf_cellsWrite`; every other lemma follows the branches of its
function and cites the lemmas of the functions it calls. A row of the command catalogue has `CmdDef.KeepsMem`. -/

section
variable {s : State}

/-! ### Ops -/

theorem emit_memWf {o : Output} (hs : s.memWf) : (emit o s).memWf := hs.same rfl

theorem drawFree_memWf (hs : s.memWf) : (drawFree s).2.memWf := hs.same rfl

theorem raise_memWf {v : Fin 128} (hs : s.memWf) : (raise v s).memWf := ite_memWf (hs.same rfl) (emit_memWf hs)

theorem sendPending_memWf {v : Fin 128} (hs : s.memWf) : (sendPending s v).memWf := ite_memWf (emit_memWf (hs.same rfl)) hs

theorem sendAllPending_memWf (hs : s.memWf) : (sendAllPending s).memWf := foldl_memWf hs fun _ _ => sendPending_memWf

theorem countViol_memWf (hs : s.memWf) : (countViol s).memWf := hs.same rfl

theorem mirrorSlot_memWf {i : Nat} (hs : s.memWf) : (mirrorSlot i s).memWf := hs.with_host (wf_cellsWrite hs.host _ _) rfl

theorem mirror_memWf {e : LogEntry} (hs : s.memWf) : (mirror e s).memWf := ite_memWf (ite_memWf (mirrorSlot_memWf hs) (hs.same rfl)) hs

theorem pushEntry_memWf {e : LogEntry} (hs : s.memWf) : (pushEntry e s).memWf := mirror_memWf (hs.same rfl)

theorem noteEntry_memWf {cls : ErrClass} {cause : Nat} {seq : W32} (hs : s.memWf) : (noteEntry cls cause seq s).memWf :=
  keep_ite (hs.same rfl) raise_memWf

theorem countClass_memWf {cls : ErrClass} (hs : s.memWf) : (countClass cls s).memWf := hs.same rfl

theorem mergeEntry_memWf {u : Nat} {e : LogEntry} (hs : s.memWf) : (mergeEntry u e s).memWf := hs.same rfl

theorem openLimit_memWf {cause u : Nat} (hs : s.memWf) : (openLimit cause u s).memWf := hs.same rfl

theorem writeEntry_memWf {e : LogEntry} {cont : Option (BitVec 192)} (hs : s.memWf) : (writeEntry e cont s).memWf := by
  simp only [writeEntry]
  refine noteEntry_memWf ?_
  split
  · exact pushEntry_memWf (pushEntry_memWf hs)
  · exact pushEntry_memWf hs

theorem toContain_memWf {e : LogEntry} {unit : Nat} (hs : s.memWf) : (toContain e unit s).memWf := ite_memWf (hs.same rfl) hs

theorem logFull_memWf {cls : ErrClass} {cause : Nat} {scope : Scope} {unit a b : Nat} {cont : Option (BitVec 192)} (hs : s.memWf) :
    (logFull cls cause scope unit a b cont s).memWf :=
  ite_memWf (mergeEntry_memWf (countClass_memWf hs)) (toContain_memWf (writeEntry_memWf (ite_keep (countClass_memWf hs) openLimit_memWf)))

theorem logErr_memWf {cls : ErrClass} {cause : Nat} {scope : Scope} {unit a b : Nat} (hs : s.memWf) :
    (logErr cls cause scope unit a b s).memWf := ite_keep (logFull_memWf hs) fun h => logFull_memWf (countViol_memWf (h.same rfl))

theorem violation_memWf {cause unit a b : Nat} (hs : s.memWf) : (violation cause unit a b s).memWf := logErr_memWf (countViol_memWf hs)

theorem flushLimit_memWf {l : Limiter} (hs : s.memWf) : (flushLimit l s).memWf := by
  simp only [flushLimit]
  split
  · exact hs.same rfl
  · exact noteEntry_memWf (pushEntry_memWf (hs.same rfl))

theorem hostWrite_memWf {a : Nat} {bs : List Byte} (hs : s.memWf) : (hostWrite a bs s).memWf :=
  ite_memWf (hs.with_host (wf_cellsWrite hs.host _ _) rfl)
    (ite_memWf (logFull_memWf (countViol_memWf (hs.same rfl))) (hs.same rfl))

theorem performHeld_memWf {w : HostWrite} (hs : s.memWf) : (performHeld s w).memWf := by
  cases w with
  | bytes a bs => exact hs.with_host (wf_cellsWrite hs.host _ _) rfl
  | mirror i => exact mirrorSlot_memWf hs

theorem releaseHeld_memWf (hs : s.memWf) : (releaseHeld s).memWf :=
  ite_memWf (sendAllPending_memWf (foldl_memWf (hs.same rfl) fun _ _ => performHeld_memWf)) hs

/-! ### StitchQueue -/

theorem dropHeld_memWf (hs : s.memWf) : (dropHeld s).memWf := hs.same rfl

theorem sqPut_memWf {id : Nat} {x : SqInst} (hs : s.memWf) : (sqPut id x s).memWf := hs.same rfl

theorem sqCommit_memWf {id : Nat} {words : List W64} (hs : s.memWf) : (sqCommit id words s).memWf :=
  ite_memWf hs (ite_memWf (emit_memWf (sqPut_memWf hs)) (ite_memWf hs (emit_memWf (sqPut_memWf hs))))

theorem sqBad_memWf {id : Nat} (hs : s.memWf) : (sqBad id s).memWf :=
  ite_memWf hs (ite_memWf (emit_memWf (sqPut_memWf hs)) (sqPut_memWf hs))

theorem sqFlushRequest_memWf {id : Nat} (hs : s.memWf) : (sqFlushRequest id s).memWf := ite_keep hs sqPut_memWf

theorem sqFlushEffect_memWf {id : Nat} (hs : s.memWf) : (sqFlushEffect id s).memWf := ite_keep hs sqPut_memWf

theorem sqRead_memWf {id : Nat} {fault : SqFault} (hs : s.memWf) : (sqRead id fault s).memWf := by
  simp only [sqRead]
  refine ite_memWf hs ?_
  split
  · exact ite_keep hs emit_memWf
  · split
    · exact sqPut_memWf hs
    · exact ite_memWf (logErr_memWf (emit_memWf (sqPut_memWf hs))) (ite_memWf (logErr_memWf (emit_memWf (sqPut_memWf hs))) (emit_memWf
          (sqPut_memWf hs)))

theorem sqDrain_memWf {id : Nat} (hs : s.memWf) : (sqDrain id s).memWf :=
  sqPut_memWf (foldl_memWf hs fun _ _ h => foldl_memWf h fun _ _ => emit_memWf)

theorem sqTimeout_memWf {id : Nat} {canRead : Bool} (hs : s.memWf) : (sqTimeout id canRead s).memWf :=
  ite_memWf hs (ite_keep (ite_keep (emit_memWf (sqPut_memWf hs)) logErr_memWf) sqDrain_memWf)

theorem sqResetFlush_memWf {id : Nat} (hs : s.memWf) : (sqResetFlush id s).memWf := sqPut_memWf hs

theorem sqFlushAll_memWf (hs : s.memWf) : (sqFlushAll s).memWf := hs.same rfl

theorem sqFlushIds_memWf {ids : List Nat} (hs : s.memWf) : (sqFlushIds ids s).memWf := foldl_memWf hs fun _ _ => sqResetFlush_memWf

theorem clearHighWater_memWf (hs : s.memWf) : (clearHighWater s).memWf := sqPut_memWf hs

theorem clearSqCount_memWf (hs : s.memWf) : (clearSqCount s).memWf := sqPut_memWf hs

theorem writeSqSel_memWf {v : Nat} (hs : s.memWf) : (writeSqSel v s).memWf := ite_memWf (hs.same rfl) (logErr_memWf hs)

/-! ### Ram -/

theorem t1Put_memWf {a : Nat} {bs : List Byte} (hs : s.memWf) : (t1Put a bs s).memWf := hs.with_t1 (wf_cellsWrite hs.t1 _ _) rfl

theorem setFrameVersion_memWf {f : Nat} {v : BitVec 7} (hs : s.memWf) : (setFrameVersion f v s).memWf := hs.same rfl

theorem setSectorVersions_memWf {secs : List Nat} {v : BitVec 7} (hs : s.memWf) : (setSectorVersions secs v s).memWf := hs.same rfl

theorem writeEvent_memWf {f : Nat} (hs : s.memWf) : (writeEvent f s).memWf := ite_keep (setFrameVersion_memWf hs) fun h => h.same rfl

theorem clearPoison_memWf {secs : List Nat} (hs : s.memWf) : (clearPoison secs s).memWf := hs.same rfl

theorem t1Store_memWf {a : Nat} {bs : List Byte} (hs : s.memWf) : (t1Store a bs s).memWf :=
  clearPoison_memWf (foldl_memWf (t1Put_memWf hs) fun _ _ h => setSectorVersions_memWf (writeEvent_memWf h))

theorem t1Fill_memWf {f : Nat} {bs : List Byte} {v : BitVec 7} (hs : s.memWf) : (t1Fill f bs v s).memWf :=
  clearPoison_memWf (setSectorVersions_memWf (setFrameVersion_memWf (t1Put_memWf (hs.with_t1 (wf_cellsBlank hs.t1 _ _) rfl))))

theorem modCell_memWf {c : Nat} {f : CellCount → CellCount} (hs : s.memWf) : (modCell c f s).memWf := hs.same rfl

theorem modStack_memWf {k : Fin 8} {f : StackUnit → StackUnit} (hs : s.memWf) : (modStack k f s).memWf := hs.same rfl

theorem correctedError_memWf {a : Nat} (hs : s.memWf) : (correctedError a s).memWf :=
  ite_keep (modStack_memWf (modCell_memWf hs)) logErr_memWf

theorem poisonSector_memWf {a : Nat} (hs : s.memWf) : (poisonSector a s).memWf :=
  ite_memWf hs (logErr_memWf (modStack_memWf (modCell_memWf (hs.same rfl))))

theorem clearMemCount_memWf (hs : s.memWf) : (clearMemCount s).memWf := hs.same rfl

theorem clearMemStack_memWf (hs : s.memWf) : (clearMemStack s).memWf := modStack_memWf hs

theorem clearRepaired_memWf (hs : s.memWf) : (clearRepaired s).memWf := modStack_memWf hs

theorem writeMemSel_memWf {v : Nat} (hs : s.memWf) : (writeMemSel v s).memWf := hs.same rfl

/-! ### Tables -/

theorem markStale_memWf {id row : Nat} (hs : s.memWf) : (markStale id row s).memWf := hs.same rfl

/-! ### Walk -/

theorem dirWrite_memWf {t : Table} {b : Nat} {d : DirEntry} (hs : s.memWf) : (dirWrite t b d s).memWf := by
  simp only [dirWrite]
  split
  · exact t1Put_memWf hs
  · exact hs

theorem dirMod_memWf {t : Table} {b : Nat} {f : DirEntry → DirEntry} (hs : s.memWf) : (dirMod t b f s).memWf := by
  simp only [dirMod]
  split
  · exact dirWrite_memWf hs
  · exact hs

/-! ### Stalls -/

theorem releaseStalls_memWf {a b : Stall} (hs : s.memWf) : (releaseStalls a b s).memWf := hs.same rfl

/-! ### Residency -/

/-- A change of the residency unit that leaves the drives alone. -/
theorem modRes_memWf {f : Residency → Residency} (hs : s.memWf) (e : (f s.res).drives = s.res.drives) : (modRes f s).memWf :=
  hs.with_drives (fun p => by rw [modRes, e]; exact hs.drives p) rfl

/-- A change of one drive keeps its data canonical. -/
theorem modDrive_data_memWf {p : Fin 4} {f : Drive → Drive} (hs : s.memWf) (hf : ∀ d, Memory.wf d.data = true → Memory.wf
    (f d).data = true) :
    (modDrive p f s).memWf := by
  refine hs.with_drives (fun q => ?_) rfl
  by_cases h : p = q
  · subst h; simpa only [modDrive, modRes, vmod_self] using hf _ (hs.drives p)
  · simpa only [modDrive, modRes, vmod_other _ _ h] using hs.drives q

/-- A change of one drive that leaves its data alone. -/
theorem modDrive_memWf {p : Fin 4} {f : Drive → Drive} (hs : s.memWf) (hf : ∀ d, (f d).data = d.data) :
    (modDrive p f s).memWf :=
  modDrive_data_memWf hs fun d h => (congrArg Memory.wf (hf d)).trans h

theorem blockMod_memWf {id b : Nat} {f : DirEntry → DirEntry} (hs : s.memWf) : (blockMod id b f s).memWf := by
  simp only [blockMod]
  split
  · exact dirMod_memWf hs
  · exact hs

theorem wbJournal_memWf {kind tier id b : Nat} {target : W64} (hs : s.memWf) : (wbJournal kind tier id b target s).memWf :=
  modRes_memWf hs rfl

theorem nvmeIssue_memWf {p : Fin 4} {use : NvmeUse} (hs : s.memWf) : (nvmeIssue p use s).memWf :=
  emit_memWf (modDrive_memWf hs fun _ => rfl)

theorem nvmeIssueN_memWf {p : Fin 4} {use : NvmeUse} : ∀ {n : Nat} {s : State}, s.memWf → (nvmeIssueN p use n s).memWf
  | 0, _, hs => hs
  | n + 1, _, hs => nvmeIssueN_memWf (n := n) (nvmeIssue_memWf hs)

theorem clockStep_memWf {pass cls : Nat} {spec : Bool} {f : Nat} (hs : s.memWf) : (clockStep pass cls spec f s).2.memWf := by
  simp only [clockStep]
  split
  · exact hs
  · split
    · exact hs
    · exact ite_snd_memWf hs (ite_snd_memWf hs (ite_snd_memWf hs (ite_snd_memWf hs (ite_snd_memWf (blockMod_memWf hs) hs))))

theorem clockSweep_memWf {pass cls : Nat} {spec : Bool} :
    ∀ {fuel f : Nat} {s : State}, s.memWf → (clockSweep pass cls spec fuel f s).2.memWf
  | 0, _, _, hs => hs
  | fuel + 1, f, s, hs => by
    rw [clockSweep]
    generalize e1 : clockStep _ _ _ _ _ = p1
    have h1 : p1.2.memWf := e1 ▸ clockStep_memWf hs
    split
    · split
      · exact clockSweep_memWf h1
      · exact h1
    · exact h1

theorem clockFind_memWf {cls : Nat} {spec : Bool} (hs : s.memWf) : (clockFind cls spec s).2.memWf := by
  simp only [clockFind]
  split
  · exact hs
  · split
    · exact modRes_memWf (ite_snd_memWf (clockSweep_memWf (clockSweep_memWf hs)) (clockSweep_memWf hs)) rfl
    · exact modRes_memWf (ite_snd_memWf (clockSweep_memWf (clockSweep_memWf hs)) (clockSweep_memWf hs)) rfl
    · exact ite_snd_memWf (clockSweep_memWf (clockSweep_memWf hs)) (clockSweep_memWf hs)

theorem wbStart_memWf {id b tier : Nat} {evict : Bool} (hs : s.memWf) : (wbStart id b tier evict s).memWf := by
  simp only [wbStart]
  split
  · exact hs
  · exact ite_memWf hs (ite_keep (modRes_memWf (wbJournal_memWf (blockMod_memWf hs)) rfl) nvmeIssueN_memWf)

theorem wbDrop_memWf {id b : Nat} (hs : s.memWf) : (wbDrop id b s).memWf := modRes_memWf hs rfl

theorem wbCancel_memWf {id b : Nat} (hs : s.memWf) : (wbCancel id b s).memWf := by
  simp only [wbCancel]
  split
  · exact hs
  · exact modRes_memWf (blockMod_memWf (wbDrop_memWf (wbJournal_memWf hs))) rfl

theorem blockLeave_memWf {id b : Nat} (hs : s.memWf) : (blockLeave id b s).memWf := by
  simp only [blockLeave]
  split
  · exact hs
  · exact modRes_memWf (blockMod_memWf hs) rfl

theorem modFaultIn_memWf {id b : Nat} {f : FaultIn → FaultIn} (hs : s.memWf) : (modFaultIn id b f s).memWf := modRes_memWf hs rfl

theorem faultInFrame_memWf {id b f : Nat} (hs : s.memWf) : (faultInFrame id b f s).memWf := by
  simp only [faultInFrame]
  split
  · exact ite_keep (modFaultIn_memWf (blockMod_memWf (modRes_memWf hs rfl))) nvmeIssueN_memWf
  · exact modFaultIn_memWf (blockMod_memWf (modRes_memWf hs rfl))

theorem faultInPlace_memWf {id b : Nat} {spec : Bool} (hs : s.memWf) : (faultInPlace id b spec s).memWf := by
  simp only [faultInPlace]
  split
  · exact hs
  · refine ite_memWf hs ?_
    generalize e1 : clockFind _ _ _ = p1
    have h1 : p1.2.memWf := e1 ▸ clockFind_memWf hs
    split
    · exact faultInFrame_memWf h1
    · refine ite_memWf ?_ (faultInFrame_memWf (blockLeave_memWf h1))
      split
      · exact modFaultIn_memWf (wbStart_memWf h1)
      · exact h1
    · exact h1

theorem logFaultIn_memWf {id b : Nat} (hs : s.memWf) : (logFaultIn id b s).memWf := logErr_memWf hs

theorem touchAway_memWf {id b cls : Nat} {spec : Bool} (hs : s.memWf) : (touchAway id b cls spec s).2.memWf := by
  simp only [touchAway]
  split
  · exact hs
  · split
    · exact modFaultIn_memWf (blockMod_memWf hs)
    · exact ite_snd_memWf (logFaultIn_memWf (blockMod_memWf hs)) (ite_snd_memWf (faultInPlace_memWf (modRes_memWf (blockMod_memWf
          (blockMod_memWf hs)) rfl)) (ite_snd_memWf (blockMod_memWf hs) (faultInPlace_memWf (modRes_memWf (blockMod_memWf
          (blockMod_memWf hs)) rfl))))

theorem touchHere_memWf {id b cls : Nat} {wr : Bool} (hs : s.memWf) : (touchHere id b cls wr s).memWf :=
  blockMod_memWf (ite_keep hs wbCancel_memWf)

theorem faultInFail_memWf {id b status : Nat} (hs : s.memWf) : (faultInFail id b status s).memWf := by
  simp only [faultInFail]
  refine logFaultIn_memWf (releaseStalls_memWf (blockMod_memWf (modRes_memWf ?_ rfl)))
  split
  · exact modRes_memWf hs rfl
  · exact hs

theorem logReadRefused_memWf {unit addr : Nat} (hs : s.memWf) : (logReadRefused unit addr s).memWf :=
  logErr_memWf (logErr_memWf (countViol_memWf hs))

theorem faultInEnd_memWf {id b : Nat} (hs : s.memWf) : (faultInEnd id b s).memWf := by
  simp only [faultInEnd]
  split
  · split
    · exact faultInFail_memWf hs
    · split
      · exact faultInPlace_memWf hs
      · refine ite_memWf hs ?_
        split
        · exact faultInFail_memWf (logReadRefused_memWf hs)
        · exact releaseStalls_memWf (modRes_memWf (blockMod_memWf (t1Fill_memWf hs)) rfl)
  · exact hs

theorem retryFaultIns_memWf (hs : s.memWf) : (retryFaultIns s).memWf := foldl_memWf hs fun _ _ h => ite_keep h faultInPlace_memWf

theorem wbData_memWf {d : DirEntry} {tier : Nat} {bs : List Byte} (hs : s.memWf) : (wbData d tier bs s).memWf :=
  ite_memWf (hostWrite_memWf hs) (modDrive_data_memWf hs fun _ h => wf_cellsWrite h _ _)

theorem wbEnd_memWf {id b : Nat} (hs : s.memWf) : (wbEnd id b s).memWf := by
  simp only [wbEnd]
  split
  · refine ite_memWf hs ?_
    refine ite_memWf ?_ (ite_keep (blockMod_memWf (wbDrop_memWf (wbJournal_memWf (wbData_memWf hs)))) nvmeIssue_memWf)
    split
    · exact faultInFrame_memWf (blockLeave_memWf (ite_keep (blockMod_memWf (wbDrop_memWf (wbJournal_memWf (wbData_memWf hs))))
          nvmeIssue_memWf))
    · exact retryFaultIns_memWf (blockLeave_memWf (ite_keep (blockMod_memWf (wbDrop_memWf (wbJournal_memWf (wbData_memWf hs))))
          nvmeIssue_memWf))
  · exact hs

theorem fenceBlock_memWf {id b : Nat} (hs : s.memWf) : (fenceBlock id b s).memWf := by
  simp only [fenceBlock]
  split
  · exact hs
  · exact ite_memWf (ite_memWf (wbStart_memWf (blockMod_memWf hs)) (blockMod_memWf hs)) (blockMod_memWf hs)

theorem nvmeFailed_memWf {use : NvmeUse} {status : Nat} (hs : s.memWf) : (nvmeFailed use status s).memWf := by
  simp only [nvmeFailed]
  split
  · exact modFaultIn_memWf hs
  · exact wbCancel_memWf hs
  · exact hs.same rfl
  · exact hs

theorem fenceDrive_memWf {p : Fin 4} (hs : s.memWf) : (fenceDrive p s).memWf := by
  have h1 := modDrive_memWf (p := p) (f := fun d => { d with fenced := true, usable := false, cmds := [] }) hs fun _ => rfl
  have h2 := foldl_memWf (l := (s.res.drives[p]).cmds) h1 fun _ c => nvmeFailed_memWf (use := c.use) (status := 0x20)
  exact ite_memWf hs (foldl_memWf (foldl_memWf (logErr_memWf h2.with_rst) fun _ _ => faultInEnd_memWf) fun _ _ => fenceBlock_memWf)

theorem driveFault_memWf {p : Fin 4} {kind id : Nat} (hs : s.memWf) : (driveFault p kind id s).memWf :=
  ite_keep (logErr_memWf (modDrive_memWf hs fun _ => rfl)) fenceDrive_memWf

theorem nvmeRemove_memWf {p : Fin 4} {id : Nat} (hs : s.memWf) : (nvmeRemove p id s).memWf := modDrive_memWf hs fun _ => rfl

theorem deallocDone_memWf {p : Fin 4} {id b lba : Nat} (hs : s.memWf) : (deallocDone p id b lba s).memWf := wbJournal_memWf hs

theorem deallocComplete_memWf {p : Fin 4} {id b lba : Nat} (hs : s.memWf) : (deallocComplete p id b lba s).memWf := by
  simp only [deallocComplete]
  split
  · exact hs
  · exact deallocDone_memWf (nvmeRemove_memWf hs)

theorem nvmeComplete_memWf {p : Fin 4} {id : Nat} {headOk ok : Bool} (hs : s.memWf) : (nvmeComplete p id headOk ok s).memWf := by
  simp only [nvmeComplete]
  refine ite_memWf hs ?_
  refine ite_memWf (driveFault_memWf hs) ?_
  split
  · exact driveFault_memWf hs
  · split
    · exact deallocDone_memWf (nvmeRemove_memWf hs)
    · exact (nvmeRemove_memWf hs).same rfl
    · exact nvmeRemove_memWf hs
    · exact driveFault_memWf (nvmeFailed_memWf (nvmeRemove_memWf hs))
    · exact driveFault_memWf (nvmeFailed_memWf (nvmeRemove_memWf hs))
    · exact driveFault_memWf (nvmeFailed_memWf (nvmeRemove_memWf hs))
    · exact driveFault_memWf (nvmeRemove_memWf hs)
    · exact nvmeRemove_memWf hs

theorem nvmeTimeout_memWf {p : Fin 4} {id : Nat} (hs : s.memWf) : (nvmeTimeout p id s).memWf :=
  ite_memWf (driveFault_memWf (emit_memWf (modDrive_memWf hs fun _ => rfl))) hs

theorem nvmeAbortTimeout_memWf {p : Fin 4} {id : Nat} (hs : s.memWf) : (nvmeAbortTimeout p id s).memWf := by
  simp only [nvmeAbortTimeout]
  split
  · exact hs
  · exact driveFault_memWf (nvmeFailed_memWf (nvmeRemove_memWf hs))

theorem initDrive_memWf {p : Fin 4} {r : DriveReport} (hs : s.memWf) : (initDrive p r s).memWf := by
  have h1 := modDrive_memWf (p := p) (f := fun d => { d with fitted := r.fitted, nperst := !r.fitted }) hs fun _ => rfl
  exact ite_memWf (modDrive_memWf h1 fun _ => rfl)
    (logErr_memWf (modDrive_memWf (f := fun d => { d with usable := false, cmds := [] }) h1 fun _ => rfl).with_rst)

theorem unfenceBlocks_memWf {p : Fin 4} (hs : s.memWf) : (unfenceBlocks p s).memWf :=
  foldl_memWf hs fun _ _ h => foldl_memWf h fun _ _ => blockMod_memWf

theorem moveBlock_memWf {f g id b : Nat} (hs : s.memWf) : (moveBlock f g id b s).memWf := by
  simp only [moveBlock]
  generalize List.zip _ _ = secs
  exact blockMod_memWf (modRes_memWf (State.memWf.with_ram
    (foldl_memWf (setFrameVersion_memWf (t1Put_memWf hs)) fun _ _ => setSectorVersions_memWf) rfl) rfl)

theorem emptyFrame_memWf {u : Nat × Nat × Nat} (hs : s.memWf) : (emptyFrame s u).memWf := by
  simp only [emptyFrame]
  split
  · exact modRes_memWf hs rfl
  · refine ite_memWf hs ?_
    refine ite_memWf ?_ (ite_memWf (wbStart_memWf hs) (blockLeave_memWf hs))
    split
    · exact moveBlock_memWf hs
    · exact hs

theorem emptyWithdrawn_memWf (hs : s.memWf) : (emptyWithdrawn s).memWf := foldl_memWf hs fun _ _ => emptyFrame_memWf

theorem rereadPool_memWf {tag lo hi : Nat} (hs : s.memWf) : (rereadPool tag lo hi s).memWf := by
  simp only [rereadPool]
  split
  · exact hs
  · exact modRes_memWf hs rfl

/-! ### Translation -/

theorem cacheLeaf_memWf {tag va : Nat} (hs : s.memWf) : (cacheLeaf tag va s).memWf := by
  simp only [cacheLeaf]
  split
  · exact ite_memWf (hs.same rfl) (hs.same rfl)
  · exact hs

theorem uncacheRange_memWf {tag lo n : Nat} (hs : s.memWf) : (uncacheRange tag lo n s).memWf := hs.same rfl

theorem pageFault_memWf {who : Accessor} {tag va level ea : Nat} {acc : Access} (hs : s.memWf) :
    (pageFault who tag va level ea acc s).2.memWf := by
  simp only [pageFault]
  split <;> exact hs.same rfl

theorem faultRecordWrite_memWf (hs : s.memWf) : (faultRecordWrite s).memWf := by
  simp only [faultRecordWrite]
  split
  · exact hs
  · exact ite_memWf hs (raise_memWf ((hostWrite_memWf hs).same rfl))

theorem writeFrHead_memWf {v : Nat} (hs : s.memWf) : (writeFrHead v s).memWf := ite_memWf (logErr_memWf hs) (hs.same rfl)

theorem faultWatchdog_memWf (hs : s.memWf) : (faultWatchdog s).memWf := ite_memWf (raise_memWf (hs.same rfl)) hs

theorem ageWithout_memWf {f : FaultRec} (hs : s.memWf) : (ageWithout f s).memWf := by
  simp only [ageWithout]
  split
  · exact ite_memWf ((drawFree_memWf hs).same rfl) hs
  · exact hs

theorem endFault_memWf {f : FaultRec} {replay : Bool} (hs : s.memWf) : (endFault f replay s).memWf :=
  releaseStalls_memWf ((ageWithout_memWf hs).same rfl)

theorem pruneFaults_memWf (hs : s.memWf) : (pruneFaults s).memWf := hs.same rfl

theorem repairFrom_memWf {sec k : Nat} (hs : s.memWf) : (repairFrom sec k s).memWf := ite_keep (hs.same rfl) nvmeIssue_memWf

theorem repairStart_memWf {sec : Nat} (hs : s.memWf) : (repairStart sec s).memWf := by
  simp only [repairStart]
  refine ite_memWf hs ?_
  split
  · exact hs
  · exact repairFrom_memWf hs

theorem uncorrectableSector_memWf {a : Nat} (hs : s.memWf) : (uncorrectableSector a s).memWf := repairStart_memWf (poisonSector_memWf hs)

theorem eccRead_memWf {a : Nat} {ecc : Ecc} (hs : s.memWf) : (eccRead a ecc s).memWf := by
  simp only [eccRead]
  split
  · exact hs
  · exact correctedError_memWf hs
  · exact uncorrectableSector_memWf hs

theorem repairEnd_memWf {sec : Nat} {ok : Bool} (hs : s.memWf) : (repairEnd sec ok s).memWf := by
  simp only [repairEnd]
  split
  · exact hs
  · refine ite_memWf hs ?_
    split
    · exact releaseStalls_memWf (logErr_memWf (modStack_memWf (clearPoison_memWf (setSectorVersions_memWf (t1Put_memWf hs)))))
    · next r _ _ _ =>
      have h1 : State.memWf (if r.source = 2 then (match sectorHome sec s with
          | some (_, _, _, d) => if hostRefuses (d.t2addr + sec % 65536) 32 s then logReadRefused 0 (d.t2addr + sec % 65536) s else s
          | none => s) else s) := by
        refine ite_memWf ?_ hs
        split
        · exact ite_keep hs logReadRefused_memWf
        · exact hs
      split
      · exact repairFrom_memWf h1
      · exact releaseStalls_memWf (h1.with_ram rfl)

theorem xlateOne_memWf {who : Accessor} {tag va : Nat} {acc : Access} (hs : s.memWf) : (xlateOne who tag va acc s).2.memWf := by
  simp only [xlateOne]
  split
  · split
    · exact touchHere_memWf (cacheLeaf_memWf hs)
    · exact cacheLeaf_memWf hs
  · exact cacheLeaf_memWf hs
  · exact ite_snd_memWf hs (pageFault_memWf hs)
  · generalize e1 : touchAway _ _ _ _ _ = p1
    have h1 : p1.2.memWf := e1 ▸ touchAway_memWf (cacheLeaf_memWf hs)
    split <;> exact h1
  · exact ite_snd_memWf hs (logErr_memWf hs)
  · exact ite_snd_memWf hs (logErr_memWf hs)
  · exact ite_snd_memWf hs (logErr_memWf hs)
  · exact hs

theorem xlatePieces_memWf {who : Accessor} {tag : Nat} {acc : Access} :
    ∀ {ps : List (Nat × Nat)} {s : State}, s.memWf → (xlatePieces who tag acc ps s).2.memWf
  | [], _, hs => hs
  | (va, k) :: ps, s, hs => by
    rw [xlatePieces]
    generalize e1 : xlateOne _ _ _ _ _ = p1
    have h1 : p1.2.memWf := e1 ▸ xlateOne_memWf hs
    split
    · next r s1 =>
      have h2 := xlatePieces_memWf (who := who) (tag := tag) (acc := acc) (ps := ps) h1
      split
      · next e => exact memWf_of_snd e h2
      · exact h2
    · exact h1

theorem translate_memWf {who : Accessor} {tag va n : Nat} {acc : Access} (hs : s.memWf) : (translate who tag va n acc s).2.memWf :=
  ite_snd_memWf hs (xlatePieces_memWf hs)

theorem xRead_memWf {who : Accessor} {tag va n : Nat} {acc : Access} (hs : s.memWf) : (xRead who tag va n acc s).2.memWf := by
  simp only [xRead]
  generalize e1 : translate _ _ _ _ _ _ = p1
  have h1 : p1.2.memWf := e1 ▸ translate_memWf hs
  split
  · exact h1
  · exact h1
  · exact h1
  · refine ite_snd_memWf h1 ?_
    split
    · exact ite_snd_memWf h1 (logReadRefused_memWf h1)
    · split
      · exact h1
      · exact ite_snd_memWf (repairStart_memWf h1) (ite_snd_memWf (repairStart_memWf h1) (repairStart_memWf h1))

theorem storePieces_memWf : ∀ {ps : List (Nat × Nat × Bool)} {bs : List Byte} {s : State}, s.memWf → (storePieces ps bs s).memWf
  | [], _, _, hs => hs
  | _ :: ps, _, _, hs => storePieces_memWf (ps := ps) (ite_memWf (t1Store_memWf hs) (hostWrite_memWf hs))

theorem xStore_memWf {who : Accessor} {tag va : Nat} {bs : List Byte} (hs : s.memWf) : (xStore who tag va bs s).2.memWf := by
  simp only [xStore]
  generalize e1 : translate _ _ _ _ _ _ = p1
  have h1 : p1.2.memWf := e1 ▸ translate_memWf hs
  split
  · exact h1
  · exact h1
  · exact h1
  · exact ite_snd_memWf h1 (ite_snd_memWf h1 (storePieces_memWf h1))

theorem streamAccess_memWf {tile : Fin 16} {purl : Bool} {tag va n : Nat} (hs : s.memWf) : (streamAccess tile purl tag va n s).memWf :=
  hs.same rfl

theorem streamPrewalk_memWf {tile : Fin 16} {purl : Bool} {k : Nat} (hs : s.memWf) : (streamPrewalk tile purl k s).memWf := by
  simp only [streamPrewalk]
  split
  · exact hs
  · split
    · exact hs
    · exact (cacheLeaf_memWf hs).same rfl

theorem streamAdd_memWf {x : Stream} (hs : s.memWf) : (streamAdd x s).memWf := hs.same rfl

/-! ### Capacity -/

theorem setPoolMem_memWf {res scope : Nat} {m : PoolMem} (hs : s.memWf) : (setPoolMem res scope m s).memWf := hs.same rfl

theorem noteGrant_memWf {res scope : Nat} {cls : Fin 4} {units : Nat} (hs : s.memWf) : (noteGrant res scope cls units s).memWf :=
  setPoolMem_memWf hs

theorem decideClaim_memWf {res scope used : Nat} {cls : Fin 4} {units : Nat} {refusable same : Bool} (hs : s.memWf) :
    (decideClaim res scope used cls units refusable same s).2.memWf :=
  ite_snd_memWf (ite_snd_memWf (noteGrant_memWf (setPoolMem_memWf hs)) (ite_snd_memWf (setPoolMem_memWf hs) (setPoolMem_memWf hs)))
      (ite_snd_memWf (noteGrant_memWf (setPoolMem_memWf hs)) (setPoolMem_memWf hs))

theorem joinClaims_memWf {c : Claim} (hs : s.memWf) : (joinClaims c s).memWf := ite_memWf hs (hs.same rfl)

/-! ### Mailbox -/

theorem modQp_memWf {n : Fin 64} {f : QueuePair → QueuePair} (hs : s.memWf) : (modQp n f s).memWf := hs.same rfl

theorem raiseQp_memWf {n : Fin 64} (hs : s.memWf) : (raiseQp n s).memWf := raise_memWf hs

theorem qpBecomes_memWf {n : Fin 64} {r : QueuePair × Bool} (hs : s.memWf) : (qpBecomes n r s).memWf :=
  ite_keep (modQp_memWf hs) raiseQp_memWf

theorem postNow_memWf {n : Fin 64} {c : Completion} (hs : s.memWf) : (postNow n c s).memWf := qpBecomes_memWf (hostWrite_memWf hs)

theorem post_memWf {n : Fin 64} {c : Completion} (hs : s.memWf) : (post n c s).memWf :=
  ite_memWf hs (ite_memWf (postNow_memWf hs) (modQp_memWf hs))

theorem drainWaiting_memWf {n : Fin 64} : ∀ {fuel : Nat} {s : State}, s.memWf → (drainWaiting n fuel s).memWf
  | 0, _, hs => hs
  | fuel + 1, s, hs => by
    rw [drainWaiting]
    split
    · exact hs
    · exact ite_memWf (drainWaiting_memWf (postNow_memWf (modQp_memWf hs))) hs

theorem modCmd_memWf {n : Fin 64} {cid : Nat} {f : Cmd → Cmd} (hs : s.memWf) : (modCmd n cid f s).memWf := modQp_memWf hs

theorem cancelMarks_memWf {n : Fin 64} {cid : Nat} (hs : s.memWf) : (cancelMarks n cid s).memWf := hs.same rfl

theorem finishCmd_memWf {n : Fin 64} {cid status sub : Nat} {r0 r1 : W64} {late : Bool} (hs : s.memWf) :
    (finishCmd n cid status sub r0 r1 late s).memWf := by
  simp only [finishCmd]
  split
  · exact hs
  · exact post_memWf (modQp_memWf (cancelMarks_memWf hs))

theorem finishUnstarted_memWf {n : Fin 64} {status sub : Nat} (hs : s.memWf) : (finishUnstarted n status sub s).memWf :=
  foldl_memWf hs fun _ _ => finishCmd_memWf

theorem releaseIfStopped_memWf {n : Fin 64} (hs : s.memWf) : (releaseIfStopped n s).memWf := by
  simp only [releaseIfStopped]
  split
  · exact hs
  · refine ite_memWf hs ?_
    split
    · exact modQp_memWf (finishUnstarted_memWf hs)
    · exact finishCmd_memWf (modQp_memWf (finishUnstarted_memWf hs))

theorem complete_memWf {n : Fin 64} {cid status sub : Nat} {r0 r1 : W64} (hs : s.memWf) : (complete n cid status sub r0 r1 s).memWf :=
  releaseIfStopped_memWf (finishCmd_memWf hs)

theorem completeAt_memWf {n : Fin 64} {cid status sub : Nat} {r0 r1 : W64} {late : Bool} (hs : s.memWf) :
    (completeAt n cid status sub r0 r1 late s).memWf := releaseIfStopped_memWf (finishCmd_memWf hs)

theorem stopQp_memWf {n : Fin 64} {who : Option Nat} (hs : s.memWf) : (stopQp n who s).memWf := releaseIfStopped_memWf (modQp_memWf hs)

theorem quarantine_memWf {n : Fin 64} {cause : Nat} (hs : s.memWf) : (quarantine n cause s).memWf :=
  ite_memWf (modQp_memWf (finishUnstarted_memWf hs)) hs

theorem enableQp0_memWf (hs : s.memWf) : (enableQp0 s).memWf := by
  simp only [enableQp0]
  split
  · exact violation_memWf (modQp_memWf (hs.same rfl))
  · exact modQp_memWf hs

theorem disableQp0_memWf (hs : s.memWf) : (disableQp0 s).memWf := ite_keep hs stopQp_memWf

theorem reinitQp0_memWf (hs : s.memWf) : (reinitQp0 s).memWf := modQp_memWf (hs.same rfl)

theorem writeCtrl_memWf {v : W64} (hs : s.memWf) : (writeCtrl v s).memWf :=
  ite_memWf (ite_keep (logErr_memWf (ite_keep ((keep_ite hs logErr_memWf).same rfl) modQp_memWf)) disableQp0_memWf) (ite_memWf (ite_keep
      (reinitQp0_memWf (ite_keep ((keep_ite hs logErr_memWf).same rfl) modQp_memWf)) fun h => ite_keep (h.same rfl) enableQp0_memWf)
      (keep_ite (ite_keep ((keep_ite hs logErr_memWf).same rfl) modQp_memWf) fun h => ite_memWf (enableQp0_memWf h)
      (ite_keep h disableQp0_memWf)))

theorem badDoorbell_memWf {n : Fin 64} {v : W32} (hs : s.memWf) : (badDoorbell n v s).memWf := quarantine_memWf (violation_memWf hs)

theorem sqTailNow_memWf {n : Fin 64} {v : W32} (hs : s.memWf) : (sqTailNow n v s).memWf :=
  ite_memWf hs (ite_memWf (violation_memWf hs) (ite_memWf (badDoorbell_memWf hs) (modQp_memWf hs)))

theorem cqHeadNow_memWf {n : Fin 64} {v : W32} (hs : s.memWf) : (cqHeadNow n v s).memWf :=
  ite_memWf hs (ite_memWf (violation_memWf hs) (ite_memWf (badDoorbell_memWf hs) (releaseIfStopped_memWf (drainWaiting_memWf
      (modQp_memWf hs)))))

theorem doorbell_memWf {isCq : Bool} {n : Fin 64} {v : W32} (hs : s.memWf) : (doorbell isCq n v s).memWf :=
  ite_memWf (ite_memWf (cqHeadNow_memWf hs) (sqTailNow_memWf hs)) (hs.same rfl)

theorem releaseDoorbells_memWf (hs : s.memWf) : (releaseDoorbells s).memWf :=
  foldl_memWf (hs.same rfl) fun _ _ h => ite_memWf (cqHeadNow_memWf h) (sqTailNow_memWf h)

theorem admitCmd_memWf {n : Fin 64} {e : Entry} (hs : s.memWf) : (admitCmd n e s).memWf := modQp_memWf hs

theorem completeUnslotted_memWf {n : Fin 64} {e : Entry} {status sub : Nat} (hs : s.memWf) : (completeUnslotted n e status sub s).memWf :=
  post_memWf hs

/-! ### Gauge -/

theorem setGState_memWf {st : GState} (hs : s.memWf) : (setGState st s).memWf := ite_memWf hs (raise_memWf (hs.same rfl))

theorem localTick_memWf (hs : s.memWf) : (localTick s).memWf := hs.same rfl

theorem loseSource_memWf (hs : s.memWf) : (loseSource s).memWf :=
  ite_memWf (logErr_memWf ((localTick_memWf (hs.same rfl)).same rfl)) (setGState_memWf ((localTick_memWf (hs.same rfl)).same rfl))

theorem misbehave_memWf {kind : Nat} (hs : s.memWf) : (misbehave kind s).memWf := loseSource_memWf (logErr_memWf hs)

theorem rejectLower_memWf {i : Nat} {num : W64} (hs : s.memWf) : (rejectLower i num s).memWf := ite_keep (hs.same rfl) logErr_memWf

theorem gaugeEdge_memWf {i : Nat} {ok : Bool} {num : W64} {since : Nat} {off : Int} (hs : s.memWf) :
    (gaugeEdge i ok num since off s).memWf := by
  simp only [gaugeEdge]
  refine ite_memWf hs ?_
  refine ite_memWf (ite_memWf (misbehave_memWf hs) (ite_memWf (misbehave_memWf hs) (ite_memWf (misbehave_memWf hs) (hs.same rfl)))) ?_
  refine ite_memWf (hs.same rfl) ?_
  refine ite_memWf (rejectLower_memWf (hs.same rfl)) ?_
  split
  · exact setGState_memWf ((hs.same rfl).same rfl)
  · exact setGState_memWf ((hs.same rfl).same rfl)
  · exact setGState_memWf ((hs.same rfl).same rfl)
  · exact hs.same rfl

theorem localBeat_memWf (hs : s.memWf) : (localBeat s).memWf := ite_memWf hs (ite_keep (localTick_memWf hs) fun h => h.same rfl)

theorem schedPut_memWf {e : SchedEntry} (hs : s.memWf) : (schedPut s e).memWf := by
  simp only [schedPut]
  split
  · exact hs.same rfl
  · exact hs

theorem deferEntry_memWf {i : Nat} {e : SchedEntry} (hs : s.memWf) : (deferEntry i e s).memWf := logErr_memWf (hs.same rfl)

theorem consume_memWf {i : Nat} {e : SchedEntry} (hs : s.memWf) : (consume i e s).memWf := hs.same rfl

theorem consumeLate_memWf {i : Nat} {e : SchedEntry} (hs : s.memWf) : (consumeLate i e s).memWf := hs.same rfl

theorem reachMark_memWf {e : SchedEntry} (hs : s.memWf) : (reachMark e s).memWf := ite_memWf (hs.same rfl) hs

theorem abandonOwner_memWf {e : SchedEntry} (hs : s.memWf) : (abandonOwner s e).memWf := by
  simp only [abandonOwner]
  split
  · exact ite_memWf (hs.same rfl) (completeAt_memWf hs)
  · exact hs

theorem cancelSchedule_memWf (hs : s.memWf) : (cancelSchedule s).memWf := foldl_memWf (hs.same rfl) fun _ _ => abandonOwner_memWf

/-! ### Threads -/

theorem putThread_memWf {key : Nat} {t : Thread} (hs : s.memWf) : (putThread key t s).memWf := hs.same rfl

theorem modThread_memWf {key : Nat} {f : Thread → Thread} (hs : s.memWf) : (modThread key f s).memWf := hs.same rfl

theorem modLaunch_memWf {id : Nat} {f : Launch → Launch} (hs : s.memWf) : (modLaunch id f s).memWf := hs.same rfl

theorem opDone_memWf {key : Nat} {k : Fin 4} {status : Nat} {xi xf : W64} (hs : s.memWf) : (opDone key k status xi xf s).memWf :=
  modThread_memWf hs

theorem endWait_memWf {key : Nat} (hs : s.memWf) : (endWait key s).memWf := modThread_memWf (drawFree_memWf hs)

theorem endFaulted_memWf {key status : Nat} (hs : s.memWf) : (endFaulted key status s).memWf := by
  simp only [endFaulted]
  split
  · exact hs
  · exact modLaunch_memWf (modThread_memWf hs)

theorem launchReport_memWf {l : Launch} (hs : s.memWf) : (launchReport l s).2.memWf := by
  simp only [launchReport]
  generalize e1 : xStore _ _ _ _ _ = p1
  have h1 : p1.2.memWf := e1 ▸ xStore_memWf hs
  split
  · exact h1
  · exact logErr_memWf h1
  · exact h1
  · exact h1

theorem launchEnd_memWf {l : Launch} (hs : s.memWf) : (launchEnd s l).memWf :=
  ite_memWf hs (keep_ite (launchReport_memWf hs) fun h => ite_memWf (complete_memWf h.with_th) (complete_memWf h.with_th))

theorem freeContext_memWf {key : Nat} (hs : s.memWf) : (freeContext key s).memWf := by
  simp only [freeContext]
  split
  · exact hs
  · exact modLaunch_memWf (hs.same rfl)

theorem placeThread_memWf (hs : s.memWf) : (placeThread s).memWf := by
  simp only [placeThread]
  refine ite_memWf hs ?_
  split
  · exact hs
  · exact keep_ite (modCmd_memWf (modLaunch_memWf (putThread_memWf hs))) fun h => h.same rfl

/-! ### Pyrat -/

theorem threadRead_memWf {key : Nat} {k : Fin 8} {o n : Nat} {ecc : Ecc} {t : Thread} (hs : s.memWf) :
    (threadRead key k o n ecc t s).memWf := by
  simp only [threadRead]
  refine ite_step_memWf hs ?_
  generalize e1 : xRead _ _ _ _ _ _ = p1
  have h1 : p1.2.memWf := e1 ▸ xRead_memWf (by
    split
    · exact eccRead_memWf hs
    · exact hs)
  split <;> exact h1

theorem threadStore_memWf {key : Nat} {k : Fin 8} {o : Nat} {bs : List Byte} {t : Thread} (hs : s.memWf) :
    (threadStore key k o bs t s).memWf := by
  simp only [threadStore]
  refine ite_step_memWf hs ?_
  generalize e1 : xStore _ _ _ _ _ = p1
  have h1 : p1.2.memWf := e1 ▸ xStore_memWf hs
  split <;> exact h1

theorem need_memWf {n : Nat} {t : Thread} (hs : s.memWf) : (need n t s).memWf := ite_step_memWf hs hs

theorem spill_memWf {key : Nat} {t : Thread} (hs : s.memWf) : (spill key t s).memWf := ite_step_memWf hs (threadStore_memWf hs)

theorem push_memWf {key : Nat} {v : W64} {t : Thread} (hs : s.memWf) : (push key v t s).memWf :=
  TStep.andThen_memWf (spill_memWf hs) fun _ _ _ h => h

theorem pushAll_memWf {key : Nat} : ∀ {vs : List W64} {t : Thread} {s : State}, s.memWf → (pushAll key vs t s).memWf
  | [], _, _, hs => hs
  | _ :: vs, _, _, hs => TStep.andThen_memWf (push_memWf hs) fun _ _ _ => pushAll_memWf (vs := vs)

theorem pop_memWf {key : Nat} {t : Thread} (hs : s.memWf) : (pop key t s).memWf :=
  ite_step_memWf hs (TStep.andThen_memWf (threadRead_memWf hs) fun _ _ _ h => h)

theorem unary_memWf {key : Nat} {f : W64 → W64} {t : Thread} (hs : s.memWf) : (unary key f t s).memWf :=
  TStep.finish_memWf (TStep.andThen_memWf (need_memWf hs) fun _ _ _ h => TStep.andThen_memWf (pop_memWf h) fun _ _ _ => push_memWf)

theorem binary_memWf {key : Nat} {f : W64 → W64 → W64} {t : Thread} (hs : s.memWf) : (binary key f t s).memWf :=
  TStep.finish_memWf (TStep.andThen_memWf (need_memWf hs) fun _ _ _ h => TStep.andThen_memWf (pop_memWf h) fun _ _ _ h =>
      TStep.andThen_memWf (pop_memWf h) fun _ _ _ => push_memWf)

theorem threadFault_memWf {key status : Nat} {xi : Option W64} {xf : W64} {left : Option Nat} (hs : s.memWf) :
    (threadFault key status xi xf left s).memWf := endFaulted_memWf (modThread_memWf hs)

theorem iterate_memWf {m : Meaning} {key : Nat} {u : PUnit} {left : Nat} {t : Thread} (hs : s.memWf) (hm : m.KeepsMem) :
    (iterate m key u left t s).memWf := by
  simp only [iterate]
  refine ite_memWf (putThread_memWf hs) ?_
  generalize e1 : m _ _ _ _ = p1
  have h1 : p1.memWf := e1 ▸ hm _ _ _ _ hs
  split
  · exact putThread_memWf h1
  · exact putThread_memWf h1
  · exact putThread_memWf h1
  · exact joinClaims_memWf (putThread_memWf h1)
  · exact threadFault_memWf (putThread_memWf h1)

theorem repiStart_memWf {m : Meaning} {key : Nat} {u : PUnit} {t : Thread} (hs : s.memWf) (hm : m.KeepsMem) :
    (repiStart m key u t s).memWf := by
  simp only [repiStart]
  refine ite_memWf (ite_memWf (threadFault_memWf hs) (ite_memWf (putThread_memWf hs) (iterate_memWf hs hm))) ?_
  refine ite_memWf (threadFault_memWf hs) ?_
  refine ite_memWf (threadFault_memWf hs) ?_
  generalize e1 : pop _ _ _ = p1
  have h1 : p1.memWf := e1 ▸ pop_memWf hs
  split
  · exact ite_memWf (threadFault_memWf h1) (ite_memWf (putThread_memWf h1) (iterate_memWf h1 hm))
  · exact putThread_memWf h1
  · exact threadFault_memWf h1
  · exact hs

theorem runUnit_memWf {m : Meaning} {key : Nat} {u : PUnit} {t : Thread} (hs : s.memWf) (hm : m.KeepsMem) :
    (runUnit m key u t s).memWf := by
  simp only [runUnit]
  split
  · exact iterate_memWf hs hm
  · split
    · exact iterate_memWf hs hm
    · exact iterate_memWf hs hm
    · exact repiStart_memWf hs hm

theorem issue_memWf {op : POp} {m : Meaning} {key : Nat} (hs : s.memWf) (hm : m.KeepsMem) : (issue op m key s).memWf := by
  simp only [issue]
  split
  · exact hs
  · refine ite_memWf hs ?_
    split
    · exact threadFault_memWf hs
    · exact threadFault_memWf hs
    · exact ite_memWf hs (runUnit_memWf hs hm)

theorem dataArrival_memWf {key : Nat} (hs : s.memWf) : (dataArrival key s).memWf := modThread_memWf hs

/-! ### PyratAlu -/

theorem opNop_memWf {key : Nat} {i : PInstr} {t : Thread} (hs : s.memWf) : (opNop key i t s).memWf := hs

theorem opDup_memWf {key : Nat} {i : PInstr} {t : Thread} (hs : s.memWf) : (opDup key i t s).memWf :=
  TStep.finish_memWf (TStep.andThen_memWf (need_memWf hs) fun _ _ _ h => TStep.andThen_memWf (pop_memWf h) fun _ _ _ => pushAll_memWf)

theorem opSwap_memWf {key : Nat} {i : PInstr} {t : Thread} (hs : s.memWf) : (opSwap key i t s).memWf :=
  TStep.finish_memWf (TStep.andThen_memWf (need_memWf hs) fun _ _ _ h => TStep.andThen_memWf (pop_memWf h) fun _ _ _ h =>
      TStep.andThen_memWf (pop_memWf h) fun _ _ _ => pushAll_memWf)

theorem opDrop_memWf {key : Nat} {i : PInstr} {t : Thread} (hs : s.memWf) : (opDrop key i t s).memWf :=
  TStep.finish_memWf (TStep.andThen_memWf (need_memWf hs) fun _ _ _ h => TStep.andThen_memWf (pop_memWf h) fun _ _ _ h => h)

theorem opOver_memWf {key : Nat} {i : PInstr} {t : Thread} (hs : s.memWf) : (opOver key i t s).memWf :=
  TStep.finish_memWf (TStep.andThen_memWf (need_memWf hs) fun _ _ _ h => TStep.andThen_memWf (pop_memWf h) fun _ _ _ h =>
      TStep.andThen_memWf (pop_memWf h) fun _ _ _ => pushAll_memWf)

theorem opRot_memWf {key : Nat} {i : PInstr} {t : Thread} (hs : s.memWf) : (opRot key i t s).memWf :=
  TStep.finish_memWf (TStep.andThen_memWf (need_memWf hs) fun _ _ _ h => TStep.andThen_memWf (pop_memWf h) fun _ _ _ h =>
      TStep.andThen_memWf (pop_memWf h) fun _ _ _ h => TStep.andThen_memWf (pop_memWf h) fun _ _ _ => pushAll_memWf)

theorem opPick_memWf {key : Nat} {i : PInstr} {t : Thread} (hs : s.memWf) : (opPick key i t s).memWf :=
  TStep.finish_memWf (TStep.andThen_memWf (need_memWf hs) fun _ _ _ => push_memWf)

theorem opPushi_memWf {key : Nat} {i : PInstr} {t : Thread} (hs : s.memWf) : (opPushi key i t s).memWf := TStep.finish_memWf (push_memWf hs)

theorem opPushx_memWf {key : Nat} {i : PInstr} {t : Thread} (hs : s.memWf) : (opPushx key i t s).memWf := unary_memWf hs

theorem opAdd_memWf {key : Nat} {i : PInstr} {t : Thread} (hs : s.memWf) : (opAdd key i t s).memWf := binary_memWf hs

theorem opSub_memWf {key : Nat} {i : PInstr} {t : Thread} (hs : s.memWf) : (opSub key i t s).memWf := binary_memWf hs

theorem opAnd_memWf {key : Nat} {i : PInstr} {t : Thread} (hs : s.memWf) : (opAnd key i t s).memWf := binary_memWf hs

theorem opOr_memWf {key : Nat} {i : PInstr} {t : Thread} (hs : s.memWf) : (opOr key i t s).memWf := binary_memWf hs

theorem opXor_memWf {key : Nat} {i : PInstr} {t : Thread} (hs : s.memWf) : (opXor key i t s).memWf := binary_memWf hs

theorem opAndn_memWf {key : Nat} {i : PInstr} {t : Thread} (hs : s.memWf) : (opAndn key i t s).memWf := binary_memWf hs

theorem opNeg_memWf {key : Nat} {i : PInstr} {t : Thread} (hs : s.memWf) : (opNeg key i t s).memWf := unary_memWf hs

theorem opNot_memWf {key : Nat} {i : PInstr} {t : Thread} (hs : s.memWf) : (opNot key i t s).memWf := unary_memWf hs

theorem opMins_memWf {key : Nat} {i : PInstr} {t : Thread} (hs : s.memWf) : (opMins key i t s).memWf := binary_memWf hs

theorem opMaxs_memWf {key : Nat} {i : PInstr} {t : Thread} (hs : s.memWf) : (opMaxs key i t s).memWf := binary_memWf hs

theorem opMinu_memWf {key : Nat} {i : PInstr} {t : Thread} (hs : s.memWf) : (opMinu key i t s).memWf := binary_memWf hs

theorem opMaxu_memWf {key : Nat} {i : PInstr} {t : Thread} (hs : s.memWf) : (opMaxu key i t s).memWf := binary_memWf hs

theorem shiftBy_memWf {key : Nat} {i : PInstr} {f : W64 → Nat → W64} {t : Thread} (hs : s.memWf) : (shiftBy key i f t s).memWf :=
  ite_run_memWf (unary_memWf hs) (binary_memWf hs)

theorem opShl_memWf {key : Nat} {i : PInstr} {t : Thread} (hs : s.memWf) : (opShl key i t s).memWf := shiftBy_memWf hs

theorem opShr_memWf {key : Nat} {i : PInstr} {t : Thread} (hs : s.memWf) : (opShr key i t s).memWf := shiftBy_memWf hs

theorem opSar_memWf {key : Nat} {i : PInstr} {t : Thread} (hs : s.memWf) : (opSar key i t s).memWf := shiftBy_memWf hs

theorem opRol_memWf {key : Nat} {i : PInstr} {t : Thread} (hs : s.memWf) : (opRol key i t s).memWf := shiftBy_memWf hs

theorem opClz_memWf {key : Nat} {i : PInstr} {t : Thread} (hs : s.memWf) : (opClz key i t s).memWf := unary_memWf hs

theorem opPopc_memWf {key : Nat} {i : PInstr} {t : Thread} (hs : s.memWf) : (opPopc key i t s).memWf := unary_memWf hs

theorem opBperm_memWf {key : Nat} {i : PInstr} {t : Thread} (hs : s.memWf) : (opBperm key i t s).memWf := binary_memWf hs

theorem fieldArgs_memWf {key : Nat} {i : PInstr} {words : Nat} {t : Thread} (hs : s.memWf) : (fieldArgs key i words t s).memWf :=
  ite_step_memWf (TStep.andThen_memWf (need_memWf hs) fun _ _ _ h => h) (TStep.andThen_memWf (need_memWf hs) fun _ _ _ h =>
      TStep.andThen_memWf (pop_memWf h) fun _ _ _ h => TStep.andThen_memWf (pop_memWf h) fun _ _ _ h => h)

theorem opBfx_memWf {key : Nat} {i : PInstr} {t : Thread} (hs : s.memWf) : (opBfx key i t s).memWf :=
  TStep.finish_memWf (TStep.andThen_memWf (fieldArgs_memWf hs) fun _ _ _ h => TStep.andThen_memWf (pop_memWf h) fun _ _ _ => push_memWf)

theorem opBfi_memWf {key : Nat} {i : PInstr} {t : Thread} (hs : s.memWf) : (opBfi key i t s).memWf :=
  TStep.finish_memWf (TStep.andThen_memWf (fieldArgs_memWf hs) fun _ _ _ h => TStep.andThen_memWf (pop_memWf h) fun _ _ _ h =>
      TStep.andThen_memWf (pop_memWf h) fun _ _ _ => push_memWf)

theorem startMul_memWf {key : Nat} {f : W64 → W64 → BitVec 128} {t : Thread} (hs : s.memWf) : (startMul key f t s).memWf :=
  TStep.finish_memWf (TStep.andThen_memWf (need_memWf hs) fun _ _ _ h => TStep.andThen_memWf (pop_memWf h) fun _ _ _ h =>
      TStep.andThen_memWf (pop_memWf h) fun _ _ _ h => h)

theorem opMul_memWf {key : Nat} {i : PInstr} {t : Thread} (hs : s.memWf) : (opMul key i t s).memWf := startMul_memWf hs

theorem opMulh_memWf {key : Nat} {i : PInstr} {t : Thread} (hs : s.memWf) : (opMulh key i t s).memWf := startMul_memWf hs

theorem opCmp_memWf {key : Nat} {i : PInstr} {t : Thread} (hs : s.memWf) : (opCmp key i t s).memWf :=
  TStep.finish_memWf (TStep.andThen_memWf (need_memWf hs) fun _ _ _ h => TStep.andThen_memWf (pop_memWf h) fun _ _ _ h =>
      TStep.andThen_memWf (pop_memWf h) fun _ _ _ h => h)

theorem opPlog_memWf {key : Nat} {i : PInstr} {t : Thread} (hs : s.memWf) : (opPlog key i t s).memWf := hs

theorem opPfrom_memWf {key : Nat} {i : PInstr} {t : Thread} (hs : s.memWf) : (opPfrom key i t s).memWf :=
  TStep.finish_memWf (TStep.andThen_memWf (need_memWf hs) fun _ _ _ h => TStep.andThen_memWf (pop_memWf h) fun _ _ _ h => h)

theorem opPto_memWf {key : Nat} {i : PInstr} {t : Thread} (hs : s.memWf) : (opPto key i t s).memWf := TStep.finish_memWf (push_memWf hs)

/-! ### PyratMem -/

theorem accessOff_memWf {key : Nat} {i : PInstr} {t : Thread} (hs : s.memWf) : (accessOff key i t s).memWf :=
  ite_step_memWf (TStep.andThen_memWf (pop_memWf hs) fun _ _ _ h => h) hs

theorem pushLoaded_memWf {key : Nat} {v : W64} {t : Thread} (hs : s.memWf) : (pushLoaded key v t s).memWf :=
  ite_step_memWf (TStep.andThen_memWf (spill_memWf hs) fun _ _ _ h => h) (TStep.andThen_memWf (push_memWf hs) fun _ _ _ h => h)

theorem opLd_memWf {ecc : Ecc} {key : Nat} {i : PInstr} {t : Thread} (hs : s.memWf) : (opLd ecc key i t s).memWf :=
  TStep.finish_memWf (TStep.andThen_memWf (need_memWf hs) fun _ _ _ h => TStep.andThen_memWf (accessOff_memWf h) fun _ _ _ h =>
      TStep.andThen_memWf (threadRead_memWf h) fun _ _ _ => pushLoaded_memWf)

theorem opSt_memWf {key : Nat} {i : PInstr} {t : Thread} (hs : s.memWf) : (opSt key i t s).memWf :=
  TStep.finish_memWf (TStep.andThen_memWf (need_memWf hs) fun _ _ _ h => TStep.andThen_memWf (accessOff_memWf h) fun _ _ _ h =>
      TStep.andThen_memWf (pop_memWf h) fun _ _ _ => threadStore_memWf)

theorem atomicRead_memWf {key : Nat} {k : Fin 8} {o n : Nat} {ret : Bool} {t : Thread} (hs : s.memWf) :
    (atomicRead key k o n ret t s).memWf := by
  simp only [atomicRead]
  refine ite_step_memWf hs ?_
  refine ite_step_memWf hs ?_
  generalize e1 : translate _ _ _ _ _ _ = p1
  have h1 : p1.2.memWf := e1 ▸ translate_memWf hs
  split
  · exact h1
  · exact h1
  · exact h1
  · refine ite_step_memWf h1 ?_
    refine ite_step_memWf h1 ?_
    split
    · exact h1
    · exact ite_step_memWf (repairStart_memWf h1) (repairStart_memWf h1)

theorem atomicWrite_memWf {key : Nat} {k : Fin 8} {o : Nat} {bs : List Byte} {t : Thread} (hs : s.memWf) :
    (atomicWrite key k o bs t s).memWf := by
  simp only [atomicWrite]
  generalize e1 : translate _ _ _ _ _ _ = p1
  have h1 : p1.2.memWf := e1 ▸ translate_memWf hs
  split
  · exact storePieces_memWf h1
  · exact h1

theorem opAadd_memWf {key : Nat} {i : PInstr} {t : Thread} (hs : s.memWf) : (opAadd key i t s).memWf :=
  TStep.finish_memWf (TStep.andThen_memWf (need_memWf hs) fun _ _ _ h => TStep.andThen_memWf (accessOff_memWf h) fun _ _ _ h =>
      TStep.andThen_memWf (pop_memWf h) fun _ _ _ h => TStep.andThen_memWf (atomicRead_memWf h) fun _ _ _ h => TStep.andThen_memWf
      (atomicWrite_memWf h) fun _ _ _ h => ite_step_memWf (pushLoaded_memWf h) h)

theorem countUp_memWf {key : Nat} {k : Fin 4} {t : Thread} (hs : s.memWf) : (countUp key k t s).memWf := ite_step_memWf hs hs

theorem opBcopy_memWf {key : Nat} {i : PInstr} {t : Thread} (hs : s.memWf) : (opBcopy key i t s).memWf :=
  TStep.finish_memWf (TStep.andThen_memWf (need_memWf hs) fun _ _ _ h => TStep.andThen_memWf (pop_memWf h) fun _ _ _ h =>
      TStep.andThen_memWf (pop_memWf h) fun _ _ _ h => TStep.andThen_memWf (pop_memWf h) fun _ _ _ h => TStep.andThen_memWf
      (countUp_memWf h) fun _ _ _ h => h.same rfl)

theorem copyOn_memWf {who : Accessor} {tag src dst len : Nat} :
    ∀ {fuel k : Nat} {s : State}, s.memWf → (copyOn who tag src dst len fuel k s).2.memWf
  | 0, _, _, hs => hs
  | fuel + 1, k, s, hs => by
    simp only [copyOn]
    split
    · exact hs
    · generalize e1 : xRead _ _ _ _ _ _ = p1
      have h1 : p1.2.memWf := e1 ▸ xRead_memWf hs
      split
      · exact h1
      · exact h1
      · exact h1
      · exact h1
      · generalize e2 : xStore _ _ _ _ _ = p2
        have h2 : p2.2.memWf := e2 ▸ xStore_memWf h1
        split
        · exact copyOn_memWf h2
        · exact h2
        · exact h2
        · exact h2

theorem copyRun_memWf {c : Copy} (hs : s.memWf) : (copyRun c s).memWf := by
  simp only [copyRun]
  split
  · exact hs.same rfl
  · refine ite_memWf (opDone_memWf (hs.same rfl)) ?_
    split
    · exact opDone_memWf (hs.same rfl)
    · generalize e1 : copyOn _ _ _ _ _ _ _ _ = p1
      have h1 : p1.2.memWf := e1 ▸ copyOn_memWf hs
      split
      · exact opDone_memWf (h1.same rfl)
      · exact h1.same rfl
      · exact h1.same rfl
      · exact opDone_memWf (h1.same rfl)

theorem copyCompletion_memWf {i : Nat} (hs : s.memWf) : (copyCompletion i s).memWf := by
  simp only [copyCompletion]
  split
  · exact hs
  · split
    · exact copyRun_memWf hs
    · exact opDone_memWf (hs.same rfl)
    · exact hs

theorem opBr_memWf {key : Nat} {i : PInstr} {t : Thread} (hs : s.memWf) : (opBr key i t s).memWf := hs

theorem condBranch_memWf {key : Nat} {i : PInstr} {taken : W64 → Bool} {t : Thread} (hs : s.memWf) :
    (condBranch key i taken t s).memWf := by
  simp only [condBranch]
  generalize e1 : TStep.andThen _ _ = p1
  have h1 : p1.memWf := e1 ▸ TStep.andThen_memWf (need_memWf hs) fun _ _ _ => pop_memWf
  split <;> exact h1

theorem opBz_memWf {key : Nat} {i : PInstr} {t : Thread} (hs : s.memWf) : (opBz key i t s).memWf := condBranch_memWf hs

theorem opBnz_memWf {key : Nat} {i : PInstr} {t : Thread} (hs : s.memWf) : (opBnz key i t s).memWf := condBranch_memWf hs

theorem opCall_memWf {key : Nat} {i : PInstr} {t : Thread} (hs : s.memWf) : (opCall key i t s).memWf := by
  simp only [opCall]
  generalize e1 : push _ _ _ _ = p1
  have h1 : p1.memWf := e1 ▸ push_memWf hs
  split <;> exact h1

theorem indirect_memWf {key : Nat} {ret : Option W64} {t : Thread} (hs : s.memWf) : (indirect key ret t s).memWf := by
  simp only [indirect]
  generalize e1 : TStep.andThen _ _ = p1
  have h1 : p1.memWf := e1 ▸ TStep.andThen_memWf (need_memWf hs) fun _ _ _ => pop_memWf
  split
  · exact h1
  · refine ite_run_memWf h1 ?_
    split
    · exact h1
    · generalize e2 : push _ _ _ _ = p2
      have h2 : p2.memWf := e2 ▸ push_memWf h1
      split <;> exact h2

theorem opCalli_memWf {key : Nat} {i : PInstr} {t : Thread} (hs : s.memWf) : (opCalli key i t s).memWf := indirect_memWf hs

theorem opBri_memWf {key : Nat} {i : PInstr} {t : Thread} (hs : s.memWf) : (opBri key i t s).memWf := indirect_memWf hs

theorem opRet_memWf {key : Nat} {i : PInstr} {t : Thread} (hs : s.memWf) : (opRet key i t s).memWf := indirect_memWf hs

theorem opEnd_memWf {key : Nat} {i : PInstr} {t : Thread} (hs : s.memWf) : (opEnd key i t s).memWf := hs

theorem opRds_memWf {key : Nat} {i : PInstr} {t : Thread} (hs : s.memWf) : (opRds key i t s).memWf := TStep.finish_memWf (push_memWf hs)

theorem opWrs_memWf {key : Nat} {i : PInstr} {t : Thread} (hs : s.memWf) : (opWrs key i t s).memWf :=
  ite_run_memWf hs (TStep.finish_memWf (TStep.andThen_memWf (need_memWf hs) fun _ _ _ h => TStep.andThen_memWf (pop_memWf h) fun _ _ _ h =>
      h))

theorem opRdwait_memWf {key : Nat} {i : PInstr} {t : Thread} (hs : s.memWf) : (opRdwait key i t s).memWf :=
  TStep.finish_memWf (TStep.andThen_memWf (push_memWf hs) fun _ _ _ h => h)

theorem opSgrd_memWf {key : Nat} {i : PInstr} {t : Thread} (hs : s.memWf) : (opSgrd key i t s).memWf :=
  TStep.finish_memWf (pushAll_memWf hs)

theorem waitcTake_memWf {key : Nat} {k : Fin 4} {t : Thread} (hs : s.memWf) : (waitcTake key k t s).memWf :=
  TStep.andThen_memWf (push_memWf hs) fun _ _ _ h => h

theorem opWaitc_memWf {key : Nat} {i : PInstr} {t : Thread} (hs : s.memWf) : (opWaitc key i t s).memWf :=
  ite_run_memWf hs (TStep.finish_memWf (waitcTake_memWf hs))

theorem fence_memWf {f : FenceScope} {key : Nat} {t : Thread} (hs : s.memWf) : (fence f key t s).memWf := ite_run_memWf hs hs

theorem opFenceT_memWf {key : Nat} {i : PInstr} {t : Thread} (hs : s.memWf) : (opFenceT key i t s).memWf := fence_memWf hs

theorem opFenceD_memWf {key : Nat} {i : PInstr} {t : Thread} (hs : s.memWf) : (opFenceD key i t s).memWf := fence_memWf hs

theorem opFenceS_memWf {key : Nat} {i : PInstr} {t : Thread} (hs : s.memWf) : (opFenceS key i t s).memWf := fence_memWf hs

theorem accessPerformed_memWf {key : Nat} {f : FenceScope} (hs : s.memWf) : (accessPerformed key f s).memWf := modThread_memWf hs

/-! ### FabricBase -/

theorem modFab_memWf {f : Fabric → Fabric} (hs : s.memWf) : (modFab f s).memWf := hs.same rfl

theorem modPort_memWf {p : Fin 9} {f : Port → Port} (hs : s.memWf) : (modPort p f s).memWf := modFab_memWf hs

theorem modCount_memWf {peer : Nat} {f : PeerCount → PeerCount} (hs : s.memWf) : (modCount peer f s).memWf := modFab_memWf hs

theorem sendNow_memWf {p : Fin 9} {m : TxMsg} (hs : s.memWf) : (sendNow p m s).memWf := emit_memWf (modPort_memWf hs)

theorem pumpVc_memWf {p : Fin 9} {vc : Fin 5} : ∀ {fuel : Nat} {s : State}, s.memWf → (pumpVc p vc fuel s).memWf
  | 0, _, hs => hs
  | fuel + 1, s, hs => by
    rw [pumpVc]
    split
    · exact hs
    · exact ite_memWf (pumpVc_memWf (sendNow_memWf (modPort_memWf hs))) hs

theorem pump_memWf {p : Fin 9} (hs : s.memWf) : (pump p s).memWf := foldl_memWf hs fun _ _ => pumpVc_memWf

theorem sendOn_memWf {p : Fin 9} {vc : Nat} {request : Bool} {m : List Byte} (hs : s.memWf) : (sendOn p vc request m s).memWf :=
  ite_memWf (pump_memWf (modPort_memWf hs)) hs

theorem sendRouted_memWf {dst vc : Nat} {request : Bool} {m : List Byte} (hs : s.memWf) : (sendRouted dst vc request m s).2.memWf := by
  simp only [sendRouted]
  split
  · exact sendOn_memWf hs
  · exact hs

theorem chainLost_memWf {p : Fin 9} (hs : s.memWf) : (chainLost p s).memWf := by
  simp only [chainLost]
  split
  · exact ite_memWf (hs.same rfl) hs
  · exact hs

theorem modGet_memWf {req : Nat} {f : RowGet → RowGet} (hs : s.memWf) : (modGet req f s).memWf := modFab_memWf hs

theorem dropGet_memWf {req : Nat} (hs : s.memWf) : (dropGet req s).memWf := modFab_memWf hs

theorem transmitGet_memWf {g : RowGet} (hs : s.memWf) : (transmitGet g s).memWf :=
  keep_ite (sendRouted_memWf (modCount_memWf hs)) fun h => modGet_memWf (modCount_memWf h)

theorem sendGet_memWf {g : RowGet} (hs : s.memWf) : (sendGet g s).memWf := ite_memWf hs (transmitGet_memWf (modFab_memWf hs))

/-! ### StepState -/

theorem modStp_memWf {f : StepUnit → StepUnit} (hs : s.memWf) : (modStp f s).memWf := hs.same rfl

theorem modStep_memWf {n : Nat} {f : Step → Step} (hs : s.memWf) : (modStep n f s).memWf := modStp_memWf hs

theorem modWindow_memWf {f : Window → Window} (hs : s.memWf) : (modWindow f s).memWf := modStp_memWf hs

theorem stepJournal_memWf {kind stage step : Nat} {a b c : W64} (hs : s.memWf) : (stepJournal kind stage step a b c s).memWf :=
  modStp_memWf hs

/-! ### Hook -/

theorem putHook_memWf {x : HookOp} (hs : s.memWf) : (putHook x s).memWf := hs.same rfl

theorem dropHook_memWf {id : Nat} (hs : s.memWf) : (dropHook id s).memWf := by
  refine State.memWf.with_tl (?_ : State.memWf (match hookOf id s with
    | some x => { s with tl := { s.tl with
        reqIssued := vmod s.tl.reqIssued x.tile (fun n => n + x.issuedReq)
        reqCommitted := vmod s.tl.reqCommitted x.tile (fun n => n + x.committedReq) } }
    | none => s)) rfl
  split
  · exact hs.with_tl rfl
  · exact hs

theorem hookClaim_memWf {x : HookOp} {same : Bool} (hs : s.memWf) : (hookClaim x same s).2.memWf := by
  simp only [hookClaim]
  refine ite_snd_memWf hs ?_
  generalize e1 : decideClaim _ _ _ _ _ _ _ _ = p1
  have h1 : p1.2.memWf := e1 ▸ decideClaim_memWf hs
  split <;> exact h1

theorem hookAccept_memWf {x : HookOp} {same : Bool} (hs : s.memWf) : (hookAccept x same s).2.memWf := by
  simp only [hookAccept]
  split
  · exact hs
  · refine ite_snd_memWf (hookClaim_memWf hs) ?_
    generalize e1 : xRead _ _ _ _ _ _ = p1
    have h1 : p1.2.memWf := e1 ▸ xRead_memWf hs
    split
    · exact h1
    · exact h1
    · exact h1
    · exact h1
    · exact ite_snd_memWf (hookClaim_memWf h1) h1

theorem hookInput_memWf {x : HookOp} {seg : Fin 8} {off n : Nat} (hs : s.memWf) : (hookInput x seg off n s).2.memWf := by
  simp only [hookInput]
  generalize e1 : xRead _ _ _ _ _ _ = p1
  have h1 : p1.2.memWf := e1 ▸ xRead_memWf hs
  split
  · exact streamAccess_memWf h1
  · exact h1
  · exact h1
  · exact h1
  · exact h1

theorem localRow_memWf {who : Accessor} {id : Nat} {t : Table} {row elem : Nat} {ecc : Ecc} (hs : s.memWf) :
    (localRow who id t row elem ecc s).2.memWf := by
  simp only [localRow]
  split
  · exact logErr_memWf hs
  · split
    · exact hs
    · generalize e1 : xRead _ _ _ _ _ _ = p1
      have h1 : p1.2.memWf := e1 ▸ xRead_memWf (by
        split
        · exact eccRead_memWf hs
        · exact hs)
      split
      · exact streamAccess_memWf h1
      · exact h1
      · exact h1
      · exact h1
      · exact h1

theorem remoteRow_memWf {x : HookOp} {id row elem comp : Nat} (hs : s.memWf) : (remoteRow x id row elem comp s).2.memWf := by
  simp only [remoteRow]
  split
  · exact sendGet_memWf hs
  · split
    · exact hs
    · exact dropGet_memWf hs
    · exact dropGet_memWf hs

theorem fetchRow_memWf {x : HookOp} {id : Nat} {index : W64} {elem comp : Nat} {ecc : Ecc} (hs : s.memWf) :
    (fetchRow x id index elem comp ecc s).2.memWf := by
  simp only [fetchRow]
  split
  · exact hs
  · split
    · exact hs
    · exact ite_snd_memWf (localRow_memWf hs) (remoteRow_memWf hs)

theorem fetchComposed_memWf {x : HookOp} {t : Table} {row elem : Nat} {ecc : Ecc} (hs : s.memWf) :
    (fetchComposed x t row elem ecc s).2.memWf := by
  simp only [fetchComposed]
  generalize e1 : fetchRow _ _ _ _ _ _ _ = p1
  have h1 : p1.2.memWf := e1 ▸ fetchRow_memWf hs
  split
  · generalize e2 : fetchRow _ _ _ _ _ _ _ = p2
    have h2 : p2.2.memWf := e2 ▸ fetchRow_memWf h1
    split <;> exact h2
  · exact h1

theorem fetchElem_memWf {x : HookOp} {j : Nat} {ecc : Ecc} (hs : s.memWf) : (fetchElem x j ecc s).2.memWf := by
  simp only [fetchElem]
  generalize e1 : hookInput _ _ _ _ _ = p1
  have h1 : p1.2.memWf := e1 ▸ hookInput_memWf hs
  split
  · split
    · refine ite_snd_memWf h1 ?_
      generalize e2 : hookInput _ _ _ _ _ = p2
      have h2 : p2.2.memWf := e2 ▸ hookInput_memWf h1
      split <;> exact h2
    · split
      · exact h1
      · refine ite_snd_memWf ?_ (fetchRow_memWf h1)
        split
        · exact h1
        · exact fetchComposed_memWf h1
  · exact h1
  · exact h1

theorem staging_vmod_memWf {tile : Fin 16} {off : Nat} {bs : List Byte} (hs : s.memWf) :
    State.memWf { s with tl := { s.tl with staging := vmod s.tl.staging tile (fun m => cellsWrite m off bs) } } := by
  refine hs.with_staging (fun i => ?_) rfl
  by_cases h : tile = i
  · subst h; simpa only [vmod_self] using wf_cellsWrite (hs.staging tile) _ _
  · simpa only [vmod_other _ _ h] using hs.staging i

theorem writeOut_memWf {x : HookOp} {i : Nat} {bs : List Byte} (hs : s.memWf) : (writeOut x i bs s).2.memWf := by
  simp only [writeOut]
  split
  · exact hs
  · split
    · exact staging_vmod_memWf hs
    · generalize e1 : xStore _ _ _ _ _ = p1
      have h1 : p1.2.memWf := e1 ▸ xStore_memWf hs
      split
      · exact streamAccess_memWf h1
      · exact h1
      · exact h1
      · exact h1

theorem finishBags_memWf : ∀ {fuel : Nat} {x : HookOp} {s : State}, s.memWf → (finishBags fuel x s).2.memWf
  | 0, _, _, hs => hs
  | fuel + 1, x, s, hs => by
    simp only [finishBags]
    split
    · exact hs
    · generalize e1 : writeOut _ _ _ _ = p1
      have h1 : p1.2.memWf := e1 ▸ writeOut_memWf hs
      split
      · exact finishBags_memWf h1
      · exact h1

theorem commitElem_memWf {x : HookOp} {rows : List (List Byte)} (hs : s.memWf) : (commitElem x rows s).2.memWf := by
  simp only [commitElem]
  split
  · have h1 {w t} (e : (if x.wgtEn then hookInput x x.wgtSeg (x.wgtOff + 4 * x.next) 4 s
        else (.rows [toBytes 4 0x3F800000] [], s)) = (w, t)) : t.memWf :=
      memWf_of_snd e (ite_snd_memWf (hookInput_memWf hs) hs)
    split
    · next e => exact finishBags_memWf (h1 e)
    · next e => exact h1 e
    · next e => exact h1 e
    · next e => exact h1 e
  · generalize e1 : writeOut _ _ _ _ = p1
    have h1 : p1.2.memWf := e1 ▸ writeOut_memWf hs
    split <;> exact h1

theorem commitPacket_memWf {x : HookOp} {i : Nat} {bs : List Byte} (hs : s.memWf) : (commitPacket x i bs s).2.memWf := by
  simp only [commitPacket]
  generalize e1 : writeOut _ _ _ _ = p1
  have h1 : p1.2.memWf := e1 ▸ writeOut_memWf hs
  split
  · split <;> exact h1
  · exact h1

theorem commitLoop_memWf : ∀ {fuel : Nat} {x : HookOp} {s : State}, s.memWf → (commitLoop fuel x s).2.memWf
  | 0, _, _, hs => hs
  | fuel + 1, x, s, hs => by
    simp only [commitLoop]
    generalize e1 : finishBags _ _ _ = p1
    have h1 : p1.2.memWf := e1 ▸ finishBags_memWf hs
    split
    · split
      · exact h1
      · split
        · generalize e2 : commitPacket _ _ _ _ = p2
          have h2 : p2.2.memWf := e2 ▸ commitPacket_memWf h1
          split
          · exact commitLoop_memWf h2
          · exact putHook_memWf h2
          · exact putHook_memWf h2
          · exact putHook_memWf h2
        · split
          · exact commitLoop_memWf h1
          · split
            · exact h1
            · generalize e2 : commitElem _ _ _ = p2
              have h2 : p2.2.memWf := e2 ▸ commitElem_memWf h1
              split
              · exact commitLoop_memWf h2
              · exact putHook_memWf h2
              · exact putHook_memWf h2
              · exact putHook_memWf h2
    · exact putHook_memWf h1
    · exact putHook_memWf h1
    · exact putHook_memWf h1

theorem retainOp_memWf {x : HookOp} {xi : Nat} (hs : s.memWf) : (retainOp x xi s).memWf := ite_memWf (hs.same rfl) hs

theorem hookRelease_memWf {x : HookOp} {status : Nat} {xi xf : W64} (hs : s.memWf) : (hookRelease x status xi xf s).memWf :=
  opDone_memWf (dropHook_memWf ((ite_keep hs retainOp_memWf).same rfl))

theorem hookEnd_memWf {x : HookOp} {status : Nat} {xi xf : W64} (hs : s.memWf) : (hookEnd x status xi xf s).memWf := by
  simp only [hookEnd]
  refine ite_memWf (hookRelease_memWf hs) ?_
  generalize e1 : xStore _ _ _ _ _ = p1
  have h1 : p1.2.memWf := e1 ▸ xStore_memWf hs
  split
  · exact hookRelease_memWf h1
  · exact hookRelease_memWf (logErr_memWf h1)
  · exact putHook_memWf h1
  · exact putHook_memWf h1

theorem hookFault_memWf {x : HookOp} {status : Nat} {xf : W64} (hs : s.memWf) : (hookFault x status xf s).memWf :=
  ite_memWf (modWindow_memWf (putHook_memWf hs)) (hookEnd_memWf hs)

theorem hookSettle_memWf {before : Nat} {r : CommitEnd × State} {id : Nat} (hs : r.2.memWf) : (hookSettle before r id).memWf := by
  simp only [hookSettle]
  generalize e1 : r = p1
  have h1 : p1.2.memWf := e1 ▸ hs
  split
  · exact ite_memWf (hookEnd_memWf (ite_keep h1 modWindow_memWf)) (putHook_memWf (ite_keep h1 modWindow_memWf))
  · split
    · exact putHook_memWf h1
    · exact h1
  · split
    · exact hookFault_memWf h1
    · exact h1
  · exact h1

theorem hookDrive_memWf {x : HookOp} (hs : s.memWf) : (hookDrive x s).memWf := hookSettle_memWf (commitLoop_memWf (putHook_memWf hs))

theorem hookStart_memWf {x : HookOp} (hs : s.memWf) : (hookStart x s).memWf := hookDrive_memWf (ite_keep hs modWindow_memWf)

theorem hookArrive_memWf {x : HookOp} {j : Nat} {rows : List (List Byte)} {recs : List ReadRec} (hs : s.memWf) :
    (hookArrive x j rows recs s).memWf := ite_memWf (putHook_memWf hs) (hookDrive_memWf hs)

theorem hookFetch_memWf {x : HookOp} {j : Nat} {ecc : Ecc} (hs : s.memWf) : (hookFetch x j ecc s).memWf := by
  simp only [hookFetch]
  refine ite_memWf hs ?_
  refine ite_memWf (ite_keep hs hookFault_memWf) ?_
  generalize e1 : fetchElem _ _ _ _ = p1
  have h1 : p1.2.memWf := e1 ▸ fetchElem_memWf hs
  split
  · exact hookArrive_memWf (keep_ite h1 noteGrant_memWf)
  · exact h1
  · exact ite_memWf (putHook_memWf h1) hs
  · exact ite_memWf (hookFault_memWf h1) hs

theorem hookResume_memWf {x : HookOp} (hs : s.memWf) : (hookResume x s).memWf := by
  simp only [hookResume]
  split
  · split
    · exact hookEnd_memWf hs
    · generalize e1 : hookAccept _ _ _ = p1
      have h1 : p1.2.memWf := e1 ▸ hookAccept_memWf hs
      split
      · exact hookStart_memWf h1
      · exact opDone_memWf (dropHook_memWf h1)
      · exact putHook_memWf h1
      · exact h1
      · exact h1
  · split
    · exact hookRelease_memWf (logErr_memWf hs)
    · exact ite_memWf (hookFault_memWf hs) (opDone_memWf (dropHook_memWf hs))
  · exact hs

theorem hookReturn_memWf {tile : Fin 16} {id elem : Nat} {ecc : Ecc} (hs : s.memWf) : (hookReturn tile id elem ecc s).memWf := by
  simp only [hookReturn]
  split
  · exact hs
  · refine ite_memWf hs ?_
    refine ite_memWf (hookResume_memWf hs) ?_
    split
    · exact hookFault_memWf hs
    · exact ite_memWf (hookDrive_memWf hs) (hookFetch_memWf hs)
    · exact keep_ite hs hookFetch_memWf

/-! ### HookIssue -/

theorem hookSlot_memWf {key : Nat} {t : Thread} (hs : s.memWf) : (hookSlot key t s).memWf := ite_step_memWf hs hs

theorem hookTake_memWf {key : Nat} {k : Fin 4} {x : HookOp} {same : Bool} {t : Thread} (hs : s.memWf) :
    (hookTake key k x same t s).memWf := by
  simp only [hookTake]
  generalize e1 : hookAccept _ _ _ = p1
  have h1 : p1.2.memWf := e1 ▸ hookAccept_memWf (noteGrant_memWf (hs.same rfl))
  split
  · exact hookStart_memWf (putHook_memWf h1)
  · exact dropHook_memWf h1
  · exact putHook_memWf h1
  · exact hs
  · exact h1

theorem hookIssue_memWf {kind : HookKind} {same : Bool} {key : Nat} {i : PInstr} {t0 : Thread} (hs : s.memWf) :
    (hookIssue kind same key i t0 s).memWf := by
  simp only [hookIssue]
  refine ite_run_memWf hs (TStep.finish_memWf (TStep.andThen_memWf (need_memWf hs) fun _ _ _ h => TStep.andThen_memWf (pop_memWf h)
      fun _ _ _ h => TStep.andThen_memWf (threadRead_memWf h) fun _ _ _ h => TStep.andThen_memWf (countUp_memWf h) fun _ _ _ h =>
      TStep.andThen_memWf (hookSlot_memWf h) fun _ _ _ h => ?_))
  generalize e1 : hookTake _ _ _ _ _ _ = p1
  have h1 : p1.memWf := e1 ▸ hookTake_memWf (putThread_memWf h)
  split <;> exact h1

theorem opGather_memWf {same : Bool} {key : Nat} {i : PInstr} {t : Thread} (hs : s.memWf) : (opGather same key i t s).memWf :=
  hookIssue_memWf hs

theorem opPool_memWf {same : Bool} {key : Nat} {i : PInstr} {t : Thread} (hs : s.memWf) : (opPool same key i t s).memWf :=
  hookIssue_memWf hs

theorem opGatherAddr_memWf {same : Bool} {key : Nat} {i : PInstr} {t : Thread} (hs : s.memWf) : (opGatherAddr same key i t s).memWf :=
  hookIssue_memWf hs

theorem dropRetained_memWf {key : Nat} {k : Fin 4} (hs : s.memWf) : (dropRetained key k s).memWf := hs.same rfl

theorem opGatherResume_memWf {same : Bool} {key : Nat} {i : PInstr} {t0 : Thread} (hs : s.memWf) :
    (opGatherResume same key i t0 s).memWf := by
  simp only [opGatherResume]
  refine ite_run_memWf hs (TStep.finish_memWf (TStep.andThen_memWf (need_memWf hs) fun _ _ _ h =>
    TStep.andThen_memWf (pop_memWf h) fun _ _ _ h => TStep.andThen_memWf (pop_memWf h) fun _ _ _ h =>
    TStep.andThen_memWf (threadRead_memWf h) fun _ _ _ h => TStep.andThen_memWf (countUp_memWf h) fun _ _ _ h =>
    TStep.andThen_memWf (hookSlot_memWf h) fun _ _ s h => ?_))
  split
  · exact h
  · generalize e1 : decideClaim _ _ _ _ _ _ _ _ = p1
    have h1 : p1.2.memWf := e1 ▸ decideClaim_memWf h
    split
    · exact h1
    · exact h1
    · exact h
    · exact hookDrive_memWf (putThread_memWf (State.memWf.with_tl (noteGrant_memWf (dropRetained_memWf h1)) rfl))

theorem sendValidations_memWf {x : HookOp} (hs : s.memWf) : (sendValidations x s).memWf := by
  refine foldl_memWf hs fun s f h => ?_
  split
  · exact keep_ite h sendGet_memWf
  · exact h

theorem validateOp_memWf {tile : Fin 16} {id : Nat} (hs : s.memWf) : (validateOp tile id s).memWf := by
  simp only [validateOp]
  split
  · exact ite_memWf hs (keep_ite (sendValidations_memWf hs) fun h => hookDrive_memWf (modWindow_memWf h))
  · exact hs

theorem abandonWindow_memWf (hs : s.memWf) : (abandonWindow s).2.memWf := by
  simp only [abandonWindow]
  split
  · exact hs
  · exact ite_snd_memWf hs (foldl_memWf (modStp_memWf hs) fun _ _ => hookEnd_memWf)

theorem noteRewritten_memWf {table row : Nat} (hs : s.memWf) : (noteRewritten table row s).memWf := hs.same rfl

/-! ### Purl -/

theorem modPurl_memWf {f : PurlUnit → PurlUnit} (hs : s.memWf) : (modPurl f s).memWf := hs.same rfl

theorem writeElems_memWf {t : Table} {pa : Nat} {vs : List (Nat × Nat)} (hs : s.memWf) : (writeElems t pa vs s).memWf :=
  setSectorVersions_memWf (writeEvent_memWf (foldl_memWf hs fun _ _ => t1Put_memWf))

theorem parkSector_memWf {u : Update} {t : Table} {x : Nat × List Nat} {s' : State} (hs : s.memWf) (e : parkSector u t x s = some s') :
    s'.memWf := by
  obtain ⟨k, -, rfl⟩ := Option.map_eq_some_iff.1 e
  exact ite_memWf (logErr_memWf (hs.same rfl)) (hs.same rfl)

theorem parkAll_memWf {u : Update} {t : Table} :
    ∀ {xs : List (Nat × List Nat)} {s s' : State}, s.memWf → parkAll u t xs s = some s' → s'.memWf
  | [], _, _, hs, e => Option.some.inj e ▸ hs
  | _ :: _, _, _, hs, e =>
    have ⟨_, e1, e2⟩ := Option.bind_eq_some_iff.1 e
    parkAll_memWf (parkSector_memWf hs e1) e2

theorem floatElems_memWf {table row : Nat} {t : Table} {pa : Nat} {ks : List (Nat × W32 × Rnd)} (hs : s.memWf) :
    (floatElems table row t pa ks s).memWf := modPurl_memWf (keep_ite (markStale_memWf hs) writeElems_memWf)

theorem floatUpdate_memWf {u : Update} {t : Table} {pa : Nat} {ks : List Nat} (hs : s.memWf) : (floatUpdate u t pa ks s).memWf :=
  floatElems_memWf hs

theorem flagFallback_memWf {k step table : Nat} (hs : s.memWf) : (flagFallback k step table s).memWf :=
  ite_memWf hs (logErr_memWf (stepJournal_memWf (modPurl_memWf hs)))

theorem accumNew_memWf {u : Update} {t : Table} {pa : Nat} (hs : s.memWf) : (accumNew u t pa s).memWf :=
  clearPoison_memWf (modPurl_memWf hs)

theorem exactUpdate_memWf {u : Update} {t : Table} {pa : Nat} {ks : List Nat} (hs : s.memWf) : (exactUpdate u t pa ks s).memWf :=
  modPurl_memWf (keep_ite hs accumNew_memWf)

theorem updatePlace_memWf {u : Update} (hs : s.memWf) : (updatePlace u s).2.memWf := by
  simp only [updatePlace]
  split
  · exact hs
  · split
    · exact hs
    · generalize e1 : translate _ _ _ _ _ _ = p1
      have h1 : p1.2.memWf := e1 ▸ translate_memWf hs
      split
      · exact ite_keep h1 streamAccess_memWf
      · exact h1
      · exact h1

theorem applyAt_memWf {u : Update} {t : Table} {pa : Nat} (hs : s.memWf) : (applyAt u t pa s).2.memWf := by
  simp only [applyAt]
  split
  · exact hs
  · next e =>
    have h1 := parkAll_memWf hs e
    exact ite_memWf (exactUpdate_memWf h1) (floatUpdate_memWf (ite_memWf (flagFallback_memWf (modPurl_memWf h1)) h1))

theorem countDone_memWf {u : Update} {parked : Bool} (hs : s.memWf) : (countDone u parked s).memWf :=
  ite_memWf (keep_ite (modStep_memWf hs) modCount_memWf) (keep_ite (modStep_memWf hs) modCount_memWf)

theorem countReleased_memWf {source : Nat} (hs : s.memWf) : (countReleased source s).memWf :=
  ite_memWf (modCount_memWf hs) (modCount_memWf hs)

theorem releaseRecord_memWf {r : ParkRec} (hs : s.memWf) : (releaseRecord s r).memWf := by
  simp only [releaseRecord]
  refine ite_keep ?_ countReleased_memWf
  split
  · exact hs.same rfl
  · exact ite_keep (floatElems_memWf (hs.same rfl)) flagFallback_memWf

theorem releaseCleared_memWf (hs : s.memWf) : (releaseCleared s).memWf := foldl_memWf (hs.same rfl) fun _ _ => releaseRecord_memWf

theorem modSlot_memWf {u : Update} {f : Update → Update} (hs : s.memWf) : (modSlot u f s).memWf := modPurl_memWf hs

theorem dropSlot_memWf {u : Update} (hs : s.memWf) : (dropSlot u s).memWf := modPurl_memWf hs

theorem refuseUpdate_memWf {u : Update} {reason : Nat} (hs : s.memWf) : (refuseUpdate u reason s).memWf :=
  logFull_memWf (modCount_memWf (modStep_memWf hs))

theorem applyLocal_memWf {u : Update} (hs : s.memWf) : (applyLocal u s).memWf := by
  simp only [applyLocal]
  generalize e1 : updatePlace _ _ = p1
  have h1 : p1.2.memWf := e1 ▸ updatePlace_memWf hs
  split
  · generalize e2 : applyAt _ _ _ _ = p2
    have h2 : p2.2.memWf := e2 ▸ applyAt_memWf h1
    split
    · exact countDone_memWf (dropSlot_memWf h2)
    · exact modSlot_memWf h2
  · exact modSlot_memWf h1
  · exact refuseUpdate_memWf (dropSlot_memWf h1)

theorem sendUpdate_memWf {u : Update} (hs : s.memWf) : (sendUpdate u s).memWf := sendRouted_memWf hs

theorem storeSlots_memWf (hs : s.memWf) : (storeSlots s).memWf :=
  foldl_memWf hs fun _ _ h => ite_memWf h (sendUpdate_memWf (modPurl_memWf (dropSlot_memWf h)))

theorem purlRead_memWf {x : RowAddOp} {seg : Fin 8} {off n : Nat} (hs : s.memWf) : (purlRead x seg off n s).2.memWf := by
  simp only [purlRead]
  generalize e1 : xRead _ _ _ _ _ _ = p1
  have h1 : p1.2.memWf := e1 ▸ xRead_memWf (streamAccess_memWf hs)
  split <;> exact h1

theorem rowDraws_memWf {tile : Fin 16} {n : Nat} (hs : s.memWf) : (rowDraws tile n s).2.memWf := hs.same rfl

theorem enterUpdate_memWf {x : RowAddOp} {t : Table} {table row owner : Nat} {bf : Bool} {vals : List W32} (hs : s.memWf) :
    (enterUpdate x t table row owner bf vals s).memWf := modCount_memWf (modPurl_memWf (ite_snd_memWf (rowDraws_memWf hs) hs))

theorem acceptRow_memWf {x : RowAddOp} {d : BitVec 256} {first same : Bool} (hs : s.memWf) : (acceptRow x d first same s).2.memWf := by
  simp only [acceptRow]
  refine ite_snd_memWf hs ?_
  refine ite_snd_memWf hs ?_
  split
  · exact hs
  · refine ite_snd_memWf hs ?_
    generalize e1 : purlRead _ _ _ _ _ = p1
    have h1 : p1.2.memWf := e1 ▸ purlRead_memWf hs
    split
    · exact h1
    · exact h1
    · exact h1
    · split
      · exact h1
      · refine ite_snd_memWf (logErr_memWf h1) ?_
        generalize e2 : purlRead _ _ _ _ _ = p2
        have h2 : p2.2.memWf := e2 ▸ purlRead_memWf h1
        split
        · exact h2
        · exact h2
        · exact h2
        · generalize e3 : decideClaim _ _ _ _ _ _ _ _ = p3
          have h3 : p3.2.memWf := e3 ▸ decideClaim_memWf h2
          split
          · exact h3
          · exact h3
          · exact h3
          · exact enterUpdate_memWf h3

theorem putRowAdd_memWf {x y : RowAddOp} (hs : s.memWf) : (putRowAdd x y s).memWf := modPurl_memWf hs

theorem dropRowAdd_memWf {x : RowAddOp} (hs : s.memWf) : (dropRowAdd x s).memWf := modPurl_memWf hs

theorem rowAddEnd_memWf {x : RowAddOp} {status : Nat} {xf : W64} (hs : s.memWf) : (rowAddEnd x status xf s).memWf :=
  ite_memWf (opDone_memWf (dropRowAdd_memWf hs)) (opDone_memWf (dropRowAdd_memWf hs))

theorem rowAddDesc_memWf {x : RowAddOp} (hs : s.memWf) : (rowAddDesc x s).2.2.memWf := by
  simp only [rowAddDesc]
  generalize e1 : purlRead _ _ _ _ _ = p1
  have h1 : p1.2.memWf := e1 ▸ purlRead_memWf hs
  split
  · exact h1
  · exact h1
  · exact h1
  · refine ite_snd_snd_memWf h1 ?_
    split <;> exact h1

theorem rowAddRun_memWf : ∀ {fuel : Nat} {x : RowAddOp} {same : Bool} {s : State}, s.memWf → (rowAddRun fuel x same s).memWf
  | 0, _, _, _, hs => hs
  | fuel + 1, x, same, s, hs => by
    simp only [rowAddRun]
    split
    · generalize e1 : rowAddDesc _ _ = p1
      have h1 : p1.2.2.memWf := e1 ▸ rowAddDesc_memWf hs
      split
      · exact rowAddRun_memWf (putRowAdd_memWf h1)
      · exact putRowAdd_memWf h1
      · exact h1
      · exact rowAddEnd_memWf h1
    · generalize e1 : acceptRow _ _ _ _ _ = p1
      have h1 : p1.2.memWf := e1 ▸ acceptRow_memWf hs
      split
      · exact putRowAdd_memWf h1
      · exact h1
      · exact rowAddEnd_memWf h1
      · have h2 {y z : RowAddOp} := putRowAdd_memWf (x := y) (y := z) h1
        exact ite_memWf (rowAddRun_memWf h2)
          (ite_memWf (rowAddRun_memWf (putRowAdd_memWf h2)) (opDone_memWf (dropRowAdd_memWf h2)))

theorem rowAddResume_memWf {x : RowAddOp} (hs : s.memWf) : (rowAddResume s x).memWf := by
  simp only [rowAddResume]
  split
  · exact rowAddRun_memWf hs
  · exact rowAddEnd_memWf hs
  · exact hs

theorem opRowAdd_memWf {same : Bool} {key : Nat} {i : PInstr} {t0 : Thread} (hs : s.memWf) : (opRowAdd same key i t0 s).memWf := by
  simp only [opRowAdd]
  refine ite_run_memWf hs (TStep.finish_memWf (TStep.andThen_memWf (need_memWf hs) fun _ _ _ h => TStep.andThen_memWf (pop_memWf h)
      fun _ _ _ h => TStep.andThen_memWf (threadRead_memWf h) fun _ _ _ h => TStep.andThen_memWf (countUp_memWf h) fun _ _ _ h => ?_))
  split
  · exact h
  · split
    · exact h
    · exact h
    · exact h
    · exact storeSlots_memWf (rowAddRun_memWf (putThread_memWf (modPurl_memWf h)))

theorem dropInbound_memWf {u : Update} (hs : s.memWf) : (dropInbound u s).memWf := modPurl_memWf hs

theorem keepInbound_memWf {u : Update} {w : Stall} (hs : s.memWf) : (keepInbound u w s).memWf := modPurl_memWf (dropInbound_memWf hs)

theorem nakUpdate_memWf {u : Update} {reason : Nat} (hs : s.memWf) : (nakUpdate u reason s).memWf := sendRouted_memWf (modCount_memWf hs)

theorem applyInbound_memWf {u : Update} (hs : s.memWf) : (applyInbound u s).memWf := by
  simp only [applyInbound]
  generalize e1 : updatePlace _ _ = p1
  have h1 : p1.2.memWf := e1 ▸ updatePlace_memWf hs
  split
  · generalize e2 : applyAt _ _ _ _ = p2
    have h2 : p2.2.memWf := e2 ▸ applyAt_memWf h1
    split
    · exact sendRouted_memWf (modPurl_memWf (countDone_memWf (dropInbound_memWf h2)))
    · exact keepInbound_memWf h2
  · exact keepInbound_memWf h1
  · exact nakUpdate_memWf (dropInbound_memWf h1)

theorem adderRun_memWf {exact : Bool} {src : Fin 17} {i : Nat} (hs : s.memWf) : (adderRun exact src i s).memWf := by
  simp only [adderRun]
  split
  · exact hs
  · refine ite_memWf hs ?_
    split
    · exact ite_memWf (applyLocal_memWf hs) (applyInbound_memWf hs)
    · exact ite_memWf (refuseUpdate_memWf (dropSlot_memWf hs)) (nakUpdate_memWf (dropInbound_memWf hs))
    · exact hs

/-! ### Tally -/

theorem checkBegin_memWf {p : CheckFor} (hs : s.memWf) : (checkBegin p s).memWf := hs.same rfl

theorem auditReread_memWf {id : Nat} (hs : s.memWf) : (auditReread id s).memWf := by
  simp only [auditReread]
  split
  · exact hs
  · split
    · exact hs
    · exact hs.same rfl

theorem raiseAlarm_memWf {x : Nat × Nat} (hs : s.memWf) : (raiseAlarm s x).memWf := modStp_memWf (raise_memWf ((logFull_memWf hs).same rfl))

/-! ### Steps -/

theorem openStep_memWf {n : Nat} (hs : s.memWf) : (openStep n s).memWf := modStp_memWf hs

theorem openWindow_memWf {n : Nat} (hs : s.memWf) : (openWindow n s).memWf := (modStp_memWf hs).same rfl

theorem confirmNow_memWf {h : HeldConfirm} (hs : s.memWf) : (confirmNow h s).memWf :=
  ite_memWf (completeAt_memWf hs) (ite_memWf (modStp_memWf (modCmd_memWf (modWindow_memWf (modStep_memWf hs)))) (completeAt_memWf
      (modStep_memWf (ite_keep hs abandonWindow_memWf))))

theorem confirmDue_memWf {h : HeldConfirm} (hs : s.memWf) : (confirmDue h s).memWf :=
  ite_memWf (modCmd_memWf (modStp_memWf hs)) (confirmNow_memWf hs)

theorem finishValidation_memWf (hs : s.memWf) : (finishValidation s).memWf := by
  simp only [finishValidation]
  split
  · exact ite_memWf (completeAt_memWf (modStp_memWf hs)) hs
  · exact hs

theorem stageBegin_memWf {n k : Nat} (hs : s.memWf) : (stageBegin n k s).memWf := stepJournal_memWf (modStep_memWf hs)

theorem stageEnd_memWf {n k a b c : Nat} (hs : s.memWf) : (stageEnd n k a b c s).memWf := stageBegin_memWf (stepJournal_memWf hs)

theorem closeStart_memWf {n : Nat} {owner : Nat × Nat} (hs : s.memWf) : (closeStart n owner s).memWf :=
  stageBegin_memWf (modStep_memWf (modCmd_memWf hs))

theorem closeWait_memWf {st : Step} {res : Option Nat} (hs : s.memWf) : (closeWait st res s).memWf := by
  simp only [closeWait]
  split
  · exact modCmd_memWf hs
  · exact hs

theorem closeStage1_memWf (hs : s.memWf) : (closeStage1 s).memWf := by
  simp only [closeStage1]
  split
  · exact ite_memWf hs (ite_memWf (ite_keep hs closeWait_memWf) (closeWait_memWf (stageEnd_memWf (closeWait_memWf hs))))
  · exact hs

theorem sendDrain_memWf {n dst : Nat} (hs : s.memWf) : (sendDrain n dst s).memWf := sendRouted_memWf (modStp_memWf hs)

theorem drainProgress_memWf (hs : s.memWf) : (drainProgress s).memWf := by
  simp only [drainProgress]
  split
  · exact ite_memWf (foldl_memWf hs fun _ _ h => keep_ite h sendDrain_memWf) hs
  · exact hs

theorem closeStage2_memWf (hs : s.memWf) : (closeStage2 s).memWf := by
  simp only [closeStage2]
  split
  · exact ite_memWf (stageEnd_memWf (closeWait_memWf hs)) hs
  · exact hs

theorem closeStage3_memWf (hs : s.memWf) : (closeStage3 s).memWf := by
  simp only [closeStage3]
  split
  · refine ite_memWf hs ?_
    split
    · exact checkBegin_memWf hs
    · exact hs
  · exact hs

theorem closeBalanced_memWf {c : Check} {n : Nat} (hs : s.memWf) : (closeBalanced c n s).memWf :=
  stageEnd_memWf (keep_ite (foldl_memWf (hs.same rfl) fun _ _ => raiseAlarm_memWf) modStep_memWf)

theorem convertAt_memWf {a : Accum} {t : Table} {pa : Nat} (hs : s.memWf) : (convertAt a t pa s).memWf := by
  refine foldl_memWf (foldl_memWf (ite_memWf (markStale_memWf hs) (writeElems_memWf (markStale_memWf hs))) fun s x h => ?_)
    fun s x h => logErr_memWf (ite_memWf h (h.same rfl))
  cases e : parkSector _ t (x, _) s with
  | none => exact h
  | some s' => exact parkSector_memWf h e

theorem accumDrop_memWf {a : Accum} (hs : s.memWf) : (accumDrop a s).memWf := modPurl_memWf hs

theorem convertOne_memWf {n : Nat} {cls : Fin 4} {a : Accum} (hs : s.memWf) : (convertOne n cls s a).memWf := by
  simp only [convertOne]
  split
  · exact accumDrop_memWf hs
  · split
    · exact accumDrop_memWf hs
    · generalize e1 : translate _ _ _ _ _ _ = p1
      have h1 : p1.2.memWf := e1 ▸ translate_memWf hs
      split
      · exact modStep_memWf (accumDrop_memWf (convertAt_memWf h1))
      · exact h1
      · exact accumDrop_memWf (logFaultIn_memWf h1)

theorem closeStage4_memWf (hs : s.memWf) : (closeStage4 s).memWf := by
  simp only [closeStage4]
  split
  · exact keep_ite (foldl_memWf hs fun _ _ => convertOne_memWf) stageEnd_memWf
  · exact hs

theorem readPrimary_memWf {cls : Fin 4} {id row : Nat} (hs : s.memWf) : (readPrimary cls id row s).2.memWf := by
  simp only [readPrimary]
  split
  · exact hs
  · split
    · exact hs
    · generalize e1 : xRead _ _ _ _ _ _ = p1
      have h1 : p1.2.memWf := e1 ▸ xRead_memWf hs
      split <;> exact h1

theorem refreshRows_memWf {cls : Fin 4} {id : Nat} : ∀ {cs : List RowCopy} {s : State}, s.memWf → (refreshRows cls id cs s).2.memWf
  | [], _, hs => hs
  | c :: cs, s, hs => by
    simp only [refreshRows]
    split
    · generalize e1 : readPrimary _ _ _ _ = p1
      have h1 : p1.2.memWf := e1 ▸ readPrimary_memWf hs
      split
      · exact refreshRows_memWf (noteRewritten_memWf h1)
      · exact refreshRows_memWf h1
      · exact refreshRows_memWf h1
    · exact refreshRows_memWf hs

theorem refreshReplicas_memWf {cls : Fin 4} (hs : s.memWf) : (refreshReplicas cls s).2.memWf := by
  refine foldl_snd_memWf hs fun p t h => ?_
  simp only
  split
  · exact h
  · exact refreshRows_memWf h

theorem closeStage5_memWf (hs : s.memWf) : (closeStage5 s).memWf := by
  simp only [closeStage5]
  split
  · exact keep_ite (modStep_memWf (refreshReplicas_memWf hs)) stageEnd_memWf
  · exact hs

theorem flipStep_memWf {n : Nat} (hs : s.memWf) : (flipStep n s).memWf :=
  foldl_memWf (modStep_memWf (modPurl_memWf (modStp_memWf hs))) fun _ _ => applyInbound_memWf

theorem closeStage6_memWf (hs : s.memWf) : (closeStage6 s).memWf := by
  simp only [closeStage6]
  split
  · exact ite_memWf hs (keep_ite (keep_ite hs flipStep_memWf) stageEnd_memWf)
  · exact hs

theorem clearHot_memWf (hs : s.memWf) : (clearHot s).memWf := by
  refine foldl_memWf hs fun s t h => foldl_memWf h fun s b h => ?_
  split
  · exact ite_keep h blockMod_memWf
  · exact h

theorem writeReadMostly_memWf (hs : s.memWf) : (writeReadMostly s).memWf := by
  refine foldl_memWf hs fun s t h => foldl_memWf h fun s b h => ?_
  split
  · exact ite_keep h wbStart_memWf
  · exact h

theorem writeStepRecord_memWf {n : Nat} (hs : s.memWf) : (writeStepRecord n s).2.memWf := foldl_memWf hs fun _ _ => nvmeIssue_memWf

theorem closeStage7_memWf (hs : s.memWf) : (closeStage7 s).memWf := by
  simp only [closeStage7]
  split
  · next st _ =>
    have h1 := modPurl_memWf
      (f := fun p =>
        { p with fellRows := p.fellRows.filter (fun x => x.1 != st.num), fellTables := p.fellTables.filter (fun x => x.1 != st.num) })
      (modStp_memWf (f := fun x => { x with live := x.live.filter (fun y => y.num != st.num) })
        (stepJournal_memWf (kind := 2) (stage := 7) (step := st.num) (a := (writeStepRecord st.num (writeReadMostly (clearHot s))).1)
          (b := 0) (c := 0) (writeStepRecord_memWf (n := st.num) (writeReadMostly_memWf (clearHot_memWf hs)))))
    generalize modPurl _ _ = t at h1 ⊢
    have h2 {a b : W64} : State.memWf (match st.closer with
        | some o => complete (Fin.ofNat 64 o.1) o.2 stOK 0 a b { t with rst := { t.rst with closePending := false } }
        | none => { t with rst := { t.rst with closePending := false } }) := by
      split
      · exact complete_memWf h1.with_rst
      · exact h1.with_rst
    split
    · exact ite_memWf h2 (confirmNow_memWf (modStp_memWf h2))
    · exact h2
  · exact hs

/-! ### Matrix -/

theorem stagePut_memWf {tile : Fin 16} {off : Nat} {bs : List Byte} (hs : s.memWf) : (stagePut tile off bs s).memWf := staging_vmod_memWf hs

theorem opMxop_memWf {key : Nat} {i : PInstr} {t0 : Thread} (hs : s.memWf) : (opMxop key i t0 s).memWf := by
  simp only [opMxop]
  refine ite_run_memWf hs (TStep.finish_memWf (TStep.andThen_memWf (need_memWf hs) fun _ _ _ h => TStep.andThen_memWf (pop_memWf h)
      fun _ _ _ h => TStep.andThen_memWf (threadRead_memWf h) fun _ _ _ h => TStep.andThen_memWf (countUp_memWf h) fun _ _ _ h => ?_))
  refine ite_step_memWf h ?_
  split
  · exact h
  · exact noteGrant_memWf (h.same rfl)

theorem opStream_memWf {key : Nat} {i : PInstr} {t0 : Thread} (hs : s.memWf) : (opStream key i t0 s).memWf := by
  simp only [opStream]
  refine ite_run_memWf hs (TStep.finish_memWf (TStep.andThen_memWf (need_memWf hs) fun _ _ _ h => TStep.andThen_memWf (pop_memWf h)
      fun _ _ _ h => TStep.andThen_memWf (threadRead_memWf h) fun _ _ _ h => TStep.andThen_memWf (countUp_memWf h) fun _ _ _ h => ?_))
  split
  · exact h
  · exact streamAdd_memWf h

theorem putMx_memWf {x y : MxOp} (hs : s.memWf) : (putMx x y s).memWf := hs.same rfl

theorem mxFinish_memWf {x y : MxOp} {status : Nat} {xi xf : W64} (hs : s.memWf) : (mxFinish x y status xi xf s).memWf := putMx_memWf hs

theorem loadStep_memWf {x : MxOp} (hs : s.memWf) : (loadStep x s).2.memWf := by
  simp only [loadStep]
  generalize e1 : xRead _ _ _ _ _ _ = p1
  have h1 : p1.2.memWf := e1 ▸ xRead_memWf hs
  split
  · split
    · exact mxFinish_memWf h1
    · exact putMx_memWf (stagePut_memWf h1)
  · exact putMx_memWf h1
  · exact mxFinish_memWf h1
  · exact mxFinish_memWf h1
  · exact h1

theorem storeStep_memWf {x : MxOp} (hs : s.memWf) : (storeStep x s).2.memWf := by
  simp only [storeStep]
  generalize e1 : xStore _ _ _ _ _ = p1
  have h1 : p1.2.memWf := e1 ▸ xStore_memWf hs
  split
  · exact putMx_memWf (h1.same rfl)
  · exact putMx_memWf h1
  · exact mxFinish_memWf h1
  · exact h1

theorem mxRows_memWf {step : MxOp → State → Option MxOp × State} : ∀ {fuel : Nat} {x : MxOp} {s : State}, s.memWf →
    (∀ x s, s.memWf → (step x s).2.memWf) → (mxRows step fuel x s).memWf
  | 0, _, _, hs, _ => hs
  | fuel + 1, x, s, hs, hf => by
    rw [mxRows]
    split
    · exact mxFinish_memWf hs
    · generalize e1 : step _ _ = p1
      have h1 : p1.2.memWf := e1 ▸ hf _ _ hs
      split
      · exact mxRows_memWf h1 hf
      · exact h1

theorem drainRow_memWf {x : MxOp} {acc i : Nat} (hs : s.memWf) : (drainRow x acc i s).1.memWf := (stagePut_memWf hs).same rfl

theorem matmulRun_memWf {x : MxOp} (hs : s.memWf) : (matmulRun x s).memWf :=
  ite_memWf (mxFinish_memWf (foldl_fst_memWf (hs.same rfl) fun _ _ => drainRow_memWf)) (mxFinish_memWf (hs.same rfl))

theorem elemRun_memWf {x : MxOp} (hs : s.memWf) : (elemRun x s).memWf :=
  mxFinish_memWf ((foldl_memWf hs fun _ _ => stagePut_memWf).same rfl)

theorem seedRun_memWf {x : MxOp} (hs : s.memWf) : (seedRun x s).memWf := mxFinish_memWf (hs.same rfl)

theorem mxRun_memWf {kind : Nat} {run : MxOp → State → State} {tile : Fin 16} (hs : s.memWf) (hf : ∀ x0 s, s.memWf → (run x0 s).memWf) :
    (mxRun kind run tile s).memWf := by
  simp only [mxRun]
  split
  · exact hs
  · refine ite_memWf hs ?_
    split
    · exact hf _ _ hs
    · exact mxFinish_memWf hs
    · exact hs

theorem mxRelease_memWf {x : MxOp} {status : Nat} {xi xf : W64} (hs : s.memWf) : (mxRelease x status xi xf s).memWf :=
  opDone_memWf (hs.same rfl)

theorem mxComplete_memWf {tile : Fin 16} (hs : s.memWf) : (mxComplete tile s).memWf := by
  simp only [mxComplete]
  split
  · exact hs
  · split
    · exact hs
    · refine ite_memWf hs ?_
      refine ite_memWf (mxRelease_memWf hs) ?_
      split
      · exact mxRelease_memWf (logErr_memWf hs)
      · generalize e1 : xStore _ _ _ _ _ = p1
        have h1 : p1.2.memWf := e1 ▸ xStore_memWf hs
        split
        · exact mxRelease_memWf h1
        · exact mxRelease_memWf (logErr_memWf h1)
        · exact putMx_memWf h1
        · exact h1
      · exact hs

/-! ### Grants -/

theorem runOf_memWf {op : POp} {key : Nat} {i : PInstr} {t : Thread} (hs : s.memWf) : (runOf op key i t s).memWf := by
  unfold runOf
  cases op with
  | nop => exact opNop_memWf hs
  | dup => exact opDup_memWf hs
  | swap => exact opSwap_memWf hs
  | drop => exact opDrop_memWf hs
  | over_ => exact opOver_memWf hs
  | rot => exact opRot_memWf hs
  | pick => exact opPick_memWf hs
  | pushi => exact opPushi_memWf hs
  | pushx => exact opPushx_memWf hs
  | add => exact opAdd_memWf hs
  | sub => exact opSub_memWf hs
  | and => exact opAnd_memWf hs
  | or => exact opOr_memWf hs
  | xor => exact opXor_memWf hs
  | andn => exact opAndn_memWf hs
  | neg => exact opNeg_memWf hs
  | not => exact opNot_memWf hs
  | mins => exact opMins_memWf hs
  | maxs => exact opMaxs_memWf hs
  | minu => exact opMinu_memWf hs
  | maxu => exact opMaxu_memWf hs
  | shl => exact opShl_memWf hs
  | shr => exact opShr_memWf hs
  | sar => exact opSar_memWf hs
  | rol => exact opRol_memWf hs
  | clz => exact opClz_memWf hs
  | popc => exact opPopc_memWf hs
  | bperm => exact opBperm_memWf hs
  | bfx => exact opBfx_memWf hs
  | bfi => exact opBfi_memWf hs
  | mul => exact opMul_memWf hs
  | mulh => exact opMulh_memWf hs
  | cmp => exact opCmp_memWf hs
  | plog => exact opPlog_memWf hs
  | pfrom => exact opPfrom_memWf hs
  | pto => exact opPto_memWf hs
  | ld => exact opLd_memWf hs
  | st => exact opSt_memWf hs
  | aadd => exact opAadd_memWf hs
  | bcopy => exact opBcopy_memWf hs
  | br => exact opBr_memWf hs
  | bz => exact opBz_memWf hs
  | bnz => exact opBnz_memWf hs
  | call => exact opCall_memWf hs
  | calli => exact opCalli_memWf hs
  | bri => exact opBri_memWf hs
  | ret => exact opRet_memWf hs
  | end_ => exact opEnd_memWf hs
  | rds => exact opRds_memWf hs
  | wrs => exact opWrs_memWf hs
  | rdwait => exact opRdwait_memWf hs
  | sgrd => exact opSgrd_memWf hs
  | waitc => exact opWaitc_memWf hs
  | fenceT => exact opFenceT_memWf hs
  | fenceD => exact opFenceD_memWf hs
  | fenceS => exact opFenceS_memWf hs
  | gather => exact opGather_memWf hs
  | pool => exact opPool_memWf hs
  | gatherAddr => exact opGatherAddr_memWf hs
  | gatherResume => exact opGatherResume_memWf hs
  | rowAdd => exact opRowAdd_memWf hs
  | stream => exact opStream_memWf hs
  | mxop => exact opMxop_memWf hs

theorem reissue_memWf {key : Nat} (hs : s.memWf) : (reissue key s).memWf := by
  simp only [reissue]
  split
  · split
    · exact issue_memWf hs fun _ _ _ _ => runOf_memWf
    · exact hs
  · exact hs

theorem claimGrant_memWf {res scope : Nat} (hs : s.memWf) : (claimGrant res scope s).memWf := by
  refine ite_memWf hs ?_
  split
  · exact hs
  · exact (reissue_memWf (endWait_memWf hs.with_th)).with_th

/-! ### Command -/

theorem bufFault_memWf {n : Fin 64} {a : Nat} (hs : s.memWf) : (bufFault n a s).2.memWf := logReadRefused_memWf hs

theorem readBuf_memWf {n : Fin 64} {e : Entry} {len : Nat} {k : List Byte → State → CmdEnd × State} (hs : s.memWf)
    (hf : ∀ x0 s, s.memWf → (k x0 s).2.memWf) : (readBuf n e len s k).2.memWf := by
  simp only [readBuf]
  split
  · exact bufFault_memWf hs
  · exact hf _ _ hs

theorem writeBuf_memWf {e : Entry} {bs : List Byte} (hs : s.memWf) : (writeBuf e bs s).memWf := hostWrite_memWf hs

theorem schedule_memWf {es : List SchedEntry} (hs : s.memWf) : (schedule es s).2.memWf := by
  simp only [schedule]
  split
  · exact hs
  · split
    · exact ite_snd_memWf (foldl_memWf hs fun _ _ => schedPut_memWf) (foldl_memWf hs fun _ _ => schedPut_memWf)
    · exact hs

theorem settleCmd_memWf {n : Fin 64} {cid : Nat} {r : CmdEnd × State} (hs : r.2.memWf) : (settleCmd n cid r).memWf := by
  simp only [settleCmd]
  generalize e1 : r = p1
  have h1 : p1.2.memWf := e1 ▸ hs
  split
  · exact complete_memWf h1
  · exact complete_memWf h1
  · exact h1
  · exact modCmd_memWf h1
  · exact modCmd_memWf h1

/-- What a catalogue row runs, and what it does at a malformed field, keep the memories canonical. -/
structure CmdDef.KeepsMem (d : CmdDef) : Prop where
  run : ∀ n e (s : State), s.memWf → (d.run n e s).2.memWf
  onFault : ∀ e o (s : State), s.memWf → (d.onFault e o s).memWf

theorem runCmd_memWf {d : CmdDef} {n : Fin 64} {e : Entry} (hd : d.KeepsMem) (hs : s.memWf) : (runCmd d n e s).2.memWf := by
  simp only [runCmd]
  split
  · exact hs
  · split
    · exact ite_keep hs (hd.onFault _ _ _)
    · exact hd.run _ _ _ hs

theorem fetchCmd_memWf {n : Fin 64} {same : Bool} (hs : s.memWf) : (fetchCmd n same s).memWf := by
  simp only [fetchCmd]
  refine ite_memWf hs ?_
  refine ite_memWf (decideClaim_memWf hs) ?_
  split
  · exact quarantine_memWf (violation_memWf (modQp_memWf (decideClaim_memWf hs)))
  · split
    · exact completeUnslotted_memWf (modQp_memWf (decideClaim_memWf hs))
    · exact completeUnslotted_memWf (modQp_memWf (decideClaim_memWf hs))
    · exact ite_memWf (completeUnslotted_memWf (modQp_memWf (decideClaim_memWf hs))) (admitCmd_memWf (modQp_memWf (decideClaim_memWf hs)))

theorem publish_memWf {n : Fin 64} {e : Entry} (hs : s.memWf) : (publish n e s).memWf :=
  sqTailNow_memWf (hs.with_host (wf_cellsWrite hs.host _ _) rfl)

theorem beginFront_memWf {d : CmdDef} {n : Fin 64} {e : Entry} (hd : d.KeepsMem) (hs : s.memWf) : (beginFront d n e s).memWf := by
  simp only [beginFront]
  split
  · exact ite_memWf (settleCmd_memWf (runCmd_memWf hd (modCmd_memWf hs))) hs
  · exact hs

theorem command_memWf {d : CmdDef} {n : Fin 64} {e0 : Entry} (hd : d.KeepsMem) (hs : s.memWf) : (command d n e0 s).memWf :=
  ite_memWf (beginFront_memWf hd (fetchCmd_memWf (publish_memWf hs))) (beginFront_memWf hd hs)

theorem interimDue_memWf {n : Fin 64} {cid : Nat} (hs : s.memWf) : (interimDue n cid s).memWf := by
  simp only [interimDue]
  split
  · split
    · exact ite_memWf hs (post_memWf (modCmd_memWf hs))
    · exact hs
  · exact hs

theorem coalExpiry_memWf {n : Fin 64} (hs : s.memWf) : (coalExpiry n s).memWf := ite_memWf (raiseQp_memWf (modQp_memWf hs)) hs

/-! ### Identity -/

theorem modFw_memWf {f : FwUnit → FwUnit} (hs : s.memWf) : (modFw f s).memWf := hs.same rfl

theorem cmdIdRead_keepsMem : cmdIdRead.KeepsMem where
  run _ _ _ hs := writeBuf_memWf hs
  onFault _ _ _ hs := hs

theorem cmdTagRead_keepsMem : cmdTagRead.KeepsMem where
  run _ _ _ hs := writeBuf_memWf hs
  onFault _ _ _ hs := hs

theorem tagCommit_memWf {a : Nat} {bs : List Byte} (hs : s.memWf) : (tagCommit a bs s).memWf := modFw_memWf hs

theorem cmdTagWrite_keepsMem : cmdTagWrite.KeepsMem where
  run _ _ _ hs := readBuf_memWf hs fun _ _ h => ite_snd_memWf h (ite_snd_memWf h (tagCommit_memWf h))
  onFault _ _ _ hs := hs

theorem keyCommit_memWf {bs : List Byte} {bad : Bool} (hs : s.memWf) : (keyCommit bs bad s).2.memWf :=
  ite_snd_memWf (modFw_memWf hs) (modFw_memWf hs)

theorem cmdKeyUpdate_keepsMem {bad : Bool} : (cmdKeyUpdate bad).KeepsMem where
  run _ _ _ hs := by
      simp only [cmdKeyUpdate]
      refine readBuf_memWf hs fun _ _ h => ?_
      split
      · exact h
      · exact keyCommit_memWf h
  onFault _ _ _ hs := hs

theorem cmdKeyStatus_keepsMem : cmdKeyStatus.KeepsMem :=
  ⟨fun _ _ _ hs => hs, fun _ _ _ hs => hs⟩

/-! ### FabricPort -/

theorem sendAck_memWf {p : Fin 9} {nak : Bool} (hs : s.memWf) : (sendAck p nak s).memWf := emit_memWf (modPort_memWf hs)

theorem sendCredit_memWf {p : Fin 9} (hs : s.memWf) : (sendCredit p s).memWf := ite_memWf hs (sendOn_memWf (modPort_memWf hs))

theorem consumeMsg_memWf {p : Fin 9} {vc : Fin 5} {m : List Byte} (hs : s.memWf) : (consumeMsg p vc m s).memWf :=
  ite_memWf hs (ite_keep (modPort_memWf hs) sendCredit_memWf)

theorem floodOwn_memWf (hs : s.memWf) : (floodOwn s).memWf := foldl_memWf (modFab_memWf hs) fun _ _ h => ite_keep h sendOn_memWf

theorem reissueGet_memWf {g : RowGet} {dest : Nat} (hs : s.memWf) : (reissueGet g dest s).memWf :=
  transmitGet_memWf (modFab_memWf (modCount_memWf hs))

theorem resendAll_memWf (hs : s.memWf) : (resendAll s).memWf := by
  refine foldl_memWf (foldl_memWf hs fun _ _ => reissueGet_memWf) fun s x h => ?_
  split
  · exact h
  · exact sendUpdate_memWf h

theorem recomputeRoutes_memWf (hs : s.memWf) : (recomputeRoutes s).memWf := ite_memWf hs (resendAll_memWf (modFab_memWf hs))

theorem rawSend_memWf {p : Fin 9} {m : List Byte} (hs : s.memWf) : (rawSend p m s).memWf := emit_memWf (modPort_memWf hs)

theorem sendLeave_memWf {p : Fin 9} {reason : Nat} (hs : s.memWf) : (sendLeave p reason s).memWf := ite_keep hs rawSend_memWf

theorem dropArrivals_memWf {p : Fin 9} (hs : s.memWf) : (dropArrivals p s).memWf :=
  pruneFaults_memWf (modPurl_memWf (foldl_memWf (modFab_memWf (foldl_memWf hs fun _ _ => modCount_memWf)) fun _ _ => modCount_memWf))

theorem portDown_memWf {p : Fin 9} (hs : s.memWf) : (portDown p s).memWf := ite_keep (modPort_memWf (chainLost_memWf hs)) floodOwn_memWf

theorem portReset_memWf {p : Fin 9} (hs : s.memWf) : (portReset p s).memWf :=
  portDown_memWf (dropArrivals_memWf (sqFlushIds_memWf (dropHeld_memWf hs)))

theorem portResetBye_memWf {p : Fin 9} (hs : s.memWf) : (portResetBye p s).memWf := portReset_memWf (sendLeave_memWf hs)

theorem fencePort_memWf {p : Fin 9} (hs : s.memWf) : (fencePort p s).memWf :=
  raise_memWf (logErr_memWf (resendAll_memWf (modFab_memWf (floodOwn_memWf (chainLost_memWf (modPort_memWf (dropArrivals_memWf
      (sqFlushIds_memWf (sendLeave_memWf hs)))))))))

theorem portViol_memWf {p : Fin 9} {cause ref : Nat} (hs : s.memWf) : (portViol p cause ref s).memWf :=
  ite_keep (modPort_memWf (logErr_memWf hs)) fencePort_memWf

theorem replayFlits_memWf {p : Fin 9} (hs : s.memWf) : (replayFlits p s).memWf :=
  ite_memWf hs (ite_keep (logErr_memWf (emit_memWf (modPort_memWf hs))) fun h => portReset_memWf (logErr_memWf h))

theorem takeAck_memWf {p : Fin 9} {ack : Nat} (hs : s.memWf) : (takeAck p ack s).memWf := ite_memWf (pump_memWf (modPort_memWf hs)) hs

theorem takeControl_memWf {p : Fin 9} {ack : Nat} {valid nak : Bool} (hs : s.memWf) : (takeControl p ack valid nak s).memWf :=
  ite_keep (ite_keep hs takeAck_memWf) replayFlits_memWf

theorem linkControl_memWf {p : Fin 9} {ack : Fin 1024} {valid nak : Bool} (hs : s.memWf) : (linkControl p ack valid nak s).memWf :=
  ite_keep hs takeControl_memWf

theorem replayTimeout_memWf {p : Fin 9} (hs : s.memWf) : (replayTimeout p s).memWf := ite_keep hs replayFlits_memWf

theorem ackTimer_memWf {p : Fin 9} (hs : s.memWf) : (ackTimer p s).memWf := ite_keep hs sendAck_memWf

theorem creditTimer_memWf {p : Fin 9} (hs : s.memWf) : (creditTimer p s).memWf := sendCredit_memWf hs

theorem linkError_memWf {p : Fin 9} (hs : s.memWf) : (linkError p s).memWf := ite_memWf hs (logErr_memWf (sendAck_memWf hs))

theorem flitArrives_memWf {p : Fin 9} {f : BitVec 2048} (hs : s.memWf) : (flitArrives p f s).memWf :=
  ite_memWf hs (ite_memWf (linkError_memWf hs) (keep_ite (takeControl_memWf hs) fun h => keep_ite h fun h => ite_memWf (linkError_memWf h)
      (ite_memWf (portViol_memWf (keep_ite h sendAck_memWf)) (ite_keep (modPort_memWf h) sendAck_memWf))))

theorem linkDst_memWf {p : Fin 9} (hs : s.memWf) : (linkDst p s).2.memWf := by
  simp only [linkDst]
  refine ite_snd_memWf hs ?_
  split
  · exact hs
  · exact drawFree_memWf hs

theorem sendHello_memWf {p : Fin 9} (hs : s.memWf) : (sendHello p s).memWf := rawSend_memWf (modPort_memWf (linkDst_memWf hs))

theorem answerWaiter_memWf {p : Fin 9} {status r0 : Nat} (hs : s.memWf) : (answerWaiter p status r0 s).memWf :=
  foldl_memWf (modPort_memWf hs) fun _ _ => complete_memWf

theorem refuseJoin_memWf {p : Fin 9} {peer : Nat} (hs : s.memWf) : (refuseJoin p peer s).memWf := answerWaiter_memWf (modPort_memWf hs)

theorem joinPort_memWf {p : Fin 9} {m : List Byte} (hs : s.memWf) : (joinPort p m s).memWf := by
  simp only [joinPort]
  refine answerWaiter_memWf (foldl_memWf ?_ fun _ _ h => ite_keep h sendUpdate_memWf)
  split
  · exact ite_keep (floodOwn_memWf (modStp_memWf (ite_keep (modCount_memWf (modFab_memWf (modPort_memWf hs))) modPurl_memWf))) fun h =>
        foldl_memWf h fun _ _ => sendDrain_memWf
  · exact floodOwn_memWf (modStp_memWf (ite_keep (modCount_memWf (modFab_memWf (modPort_memWf hs))) modPurl_memWf))

theorem tryJoin_memWf {p : Fin 9} {m : List Byte} (hs : s.memWf) : (tryJoin p m s).memWf :=
  ite_memWf (refuseJoin_memWf hs) (ite_memWf (refuseJoin_memWf (logErr_memWf hs)) (joinPort_memWf hs))

theorem portTrained_memWf {p : Fin 9} {now : W64} (hs : s.memWf) : (portTrained p now s).memWf :=
  ite_memWf hs (rawSend_memWf (linkDst_memWf (modPort_memWf hs)))

theorem plyFailure_memWf {p : Fin 9} {ply : Fin 8} (hs : s.memWf) : (plyFailure p ply s).memWf :=
  ite_memWf hs (ite_keep (modPort_memWf hs) fun h => portReset_memWf (logErr_memWf h))

theorem helloArrives_memWf {p : Fin 9} {m : List Byte} (hs : s.memWf) : (helloArrives p m s).memWf :=
  ite_memWf hs (ite_memWf (portViol_memWf hs) (ite_memWf (tryJoin_memWf (ite_keep hs portReset_memWf)) (modPort_memWf
      (ite_keep hs portReset_memWf))))

theorem echoReqArrives_memWf {p : Fin 9} {m : List Byte} {hold : W64} (hs : s.memWf) : (echoReqArrives p m hold s).memWf :=
  ite_memWf hs (ite_memWf (portViol_memWf (consumeMsg_memWf hs)) (ite_memWf (sendOn_memWf (consumeMsg_memWf hs)) (rawSend_memWf
      (consumeMsg_memWf hs))))

theorem echoRspArrives_memWf {p : Fin 9} {m : List Byte} {now : W64} (hs : s.memWf) : (echoRspArrives p m now s).memWf := by
  simp only [echoRspArrives]
  refine ite_memWf hs ?_
  refine ite_memWf (portViol_memWf (consumeMsg_memWf hs)) ?_
  refine ite_memWf (consumeMsg_memWf hs) ?_
  refine ite_memWf ?_ (modPort_memWf (consumeMsg_memWf hs))
  refine ite_memWf (answerWaiter_memWf (logErr_memWf (modPort_memWf (modPort_memWf (consumeMsg_memWf hs))))) ?_
  split
  · exact tryJoin_memWf (sendHello_memWf (modPort_memWf (consumeMsg_memWf hs)))
  · exact sendHello_memWf (modPort_memWf (consumeMsg_memWf hs))

theorem delayMeasure_memWf {p : Fin 9} {now : W64} (hs : s.memWf) : (delayMeasure p now s).memWf :=
  ite_memWf (sendOn_memWf (modPort_memWf hs)) hs

theorem leaveArrives_memWf {p : Fin 9} {m : List Byte} (hs : s.memWf) : (leaveArrives p m s).memWf :=
  ite_memWf hs (ite_memWf (portViol_memWf (consumeMsg_memWf hs)) (portDown_memWf (dropArrivals_memWf (ite_keep hs modStp_memWf))))

theorem linkPeriod_memWf (hs : s.memWf) : (linkPeriod s).memWf := ite_keep (modFab_memWf hs) floodOwn_memWf

theorem originTimeout_memWf {o : Fin 512} (hs : s.memWf) : (originTimeout o s).memWf := modFab_memWf hs

theorem linkStateArrives_memWf {p : Fin 9} {m : List Byte} (hs : s.memWf) : (linkStateArrives p m s).memWf :=
  ite_memWf hs (ite_memWf (portViol_memWf (consumeMsg_memWf hs)) (keep_ite (consumeMsg_memWf hs) fun h => keep_ite (modFab_memWf h) fun h =>
      foldl_memWf h fun _ _ h => ite_keep h sendOn_memWf))

/-! ### FabricMsg -/

theorem nakRequest_memWf {vc : Fin 5} {m : List Byte} {reason : Nat} (hs : s.memWf) : (nakRequest vc m reason s).memWf :=
  sendRouted_memWf hs

theorem forwardMsg_memWf {vc : Fin 5} {m : List Byte} (hs : s.memWf) : (forwardMsg vc m s).memWf := by
  simp only [forwardMsg]
  split
  · exact ite_memWf (ite_keep hs nakRequest_memWf) (sendOn_memWf hs)
  · exact ite_keep hs nakRequest_memWf

theorem malformedMsg_memWf {p : Fin 9} {vc : Fin 5} {m : List Byte} (hs : s.memWf) : (malformedMsg p vc m s).memWf :=
  portViol_memWf (ite_keep (ite_keep hs nakRequest_memWf) fun h => ite_memWf (modCount_memWf h) (modCount_memWf h))

theorem receiveMsg_memWf {type : Nat} {p : Fin 9} {vc : Fin 5} {m : List Byte} {handle : State → State} (hs : s.memWf)
    (hf : ∀ s, s.memWf → (handle s).memWf) : (receiveMsg type p vc m handle s).memWf :=
  ite_memWf hs (ite_memWf (malformedMsg_memWf (consumeMsg_memWf hs)) (ite_memWf (forwardMsg_memWf (consumeMsg_memWf hs)) (hf _
      (consumeMsg_memWf hs))))

theorem answerGet_memWf {g : Service} {m : List Byte} (hs : s.memWf) : (answerGet g m s).memWf := sendRouted_memWf (modCount_memWf hs)

theorem refuseGet_memWf {g : Service} {reason : Nat} (hs : s.memWf) : (refuseGet g reason s).memWf := answerGet_memWf hs

theorem keepRef_memWf {g : Service} {blk : Nat} {before : Option DirEntry} (hs : s.memWf) : (keepRef g blk before s).memWf := by
  simp only [keepRef]
  split
  · exact ite_keep hs blockMod_memWf
  · exact hs

theorem keepService_memWf {g : Service} {w : Stall} (hs : s.memWf) : (keepService g w s).memWf := modFab_memWf hs

theorem serveGet_memWf {g : Service} (hs : s.memWf) : (serveGet g s).memWf := by
  simp only [serveGet]
  split
  · exact refuseGet_memWf hs
  · split
    · exact refuseGet_memWf hs
    · split
      · exact answerGet_memWf hs
      · generalize e1 : xRead _ _ _ _ _ _ = p1
        have h1 : p1.2.memWf := e1 ▸ xRead_memWf hs
        split
        · exact answerGet_memWf (keepRef_memWf h1)
        · exact keepService_memWf h1
        · exact keepService_memWf h1
        · exact refuseGet_memWf h1
        · exact refuseGet_memWf h1

theorem resumeService_memWf {g : Service} (hs : s.memWf) : (resumeService s g).memWf := by
  simp only [resumeService]
  split
  · exact serveGet_memWf (modFab_memWf hs)
  · exact refuseGet_memWf (modFab_memWf hs)
  · exact hs

theorem runServices_memWf (hs : s.memWf) : (runServices s).memWf := foldl_memWf hs fun _ _ => resumeService_memWf

theorem serveValidate_memWf {g : Service} {m : List Byte} (hs : s.memWf) : (serveValidate g m s).memWf := by
  simp only [serveValidate]
  split
  · exact refuseGet_memWf hs
  · split
    · exact refuseGet_memWf hs
    · exact answerGet_memWf hs

theorem rowGetArrives_memWf {p : Fin 9} {vc : Fin 5} {m : List Byte} (hs : s.memWf) : (rowGetArrives p vc m s).memWf := by
  simp only [rowGetArrives]
  refine receiveMsg_memWf hs fun _ h => ?_
  split
  · exact refuseGet_memWf (modCount_memWf h)
  · exact ite_memWf (ite_keep (refuseGet_memWf (ite_keep (modCount_memWf h) logErr_memWf)) portViol_memWf) (ite_memWf (serveValidate_memWf
        (modCount_memWf h)) (serveGet_memWf (modCount_memWf h)))

theorem dropAnswer_memWf {p : Fin 9} (hs : s.memWf) : (dropAnswer p s).memWf := modPort_memWf hs

theorem settleGet_memWf {g : RowGet} {r : GetResult} {version frame track : Nat} (hs : s.memWf) :
    (settleGet g r version frame track s).memWf := by
  simp only [settleGet]
  split
  · exact dropGet_memWf (modCount_memWf hs)
  · exact modGet_memWf (modCount_memWf hs)

theorem settleValidate_memWf {g : RowGet} {current : Bool} (hs : s.memWf) : (settleValidate g current s).memWf := by
  simp only [settleValidate]
  split
  · exact dropGet_memWf (modCount_memWf hs)
  · exact putHook_memWf (dropGet_memWf (modCount_memWf hs))

theorem rowDataArrives_memWf {p : Fin 9} {vc : Fin 5} {m : List Byte} (hs : s.memWf) : (rowDataArrives p vc m s).memWf := by
  simp only [rowDataArrives]
  refine receiveMsg_memWf hs fun _ h => ?_
  split
  · exact dropAnswer_memWf h
  · exact ite_memWf (malformedMsg_memWf h) (ite_memWf (settleValidate_memWf h) (settleGet_memWf h))

theorem rerouteGet_memWf {g : RowGet} (hs : s.memWf) : (rerouteGet g s).memWf :=
  ite_memWf (dropGet_memWf (modCount_memWf hs)) (reissueGet_memWf hs)

theorem getNotOwner_memWf {g : RowGet} {gen : Nat} (hs : s.memWf) : (getNotOwner g gen s).memWf :=
  ite_memWf (modGet_memWf hs) (ite_memWf (modGet_memWf hs) (ite_memWf (rerouteGet_memWf hs) (settleGet_memWf hs)))

theorem getNak_memWf {g : RowGet} {reason gen : Nat} (hs : s.memWf) : (getNak g reason gen s).memWf :=
  ite_memWf (settleValidate_memWf hs) (ite_memWf (getNotOwner_memWf hs) (ite_memWf (settleGet_memWf hs) (settleGet_memWf hs)))

theorem dropStored_memWf {u : Update} (hs : s.memWf) : (dropStored u s).memWf := modPurl_memWf hs

theorem waitStored_memWf {u : Update} {w : GetWait} (hs : s.memWf) : (waitStored u w s).memWf := modPurl_memWf hs

theorem rerouteUpdate_memWf {u : Update} (hs : s.memWf) : (rerouteUpdate u s).memWf :=
  ite_memWf (refuseUpdate_memWf (dropStored_memWf hs)) (ite_memWf (modPurl_memWf (modCount_memWf (modPurl_memWf (modCount_memWf
      (dropStored_memWf hs))))) (sendUpdate_memWf (modPurl_memWf (modCount_memWf (modPurl_memWf (modCount_memWf (dropStored_memWf hs)))))))

theorem addNak_memWf {p : Fin 9} {vc : Fin 5} {m : List Byte} {r : Resend} {reason gen : Nat} (hs : s.memWf) :
    (addNak p vc m r reason gen s).memWf :=
  ite_memWf (ite_memWf (waitStored_memWf hs) (ite_memWf (waitStored_memWf hs) (ite_memWf (rerouteUpdate_memWf hs) (refuseUpdate_memWf
      (dropStored_memWf hs))))) (ite_memWf (malformedMsg_memWf hs) (refuseUpdate_memWf (dropStored_memWf hs)))

theorem rowNakArrives_memWf {p : Fin 9} {vc : Fin 5} {m : List Byte} (hs : s.memWf) : (rowNakArrives p vc m s).memWf := by
  simp only [rowNakArrives]
  refine receiveMsg_memWf hs fun _ h => ?_
  refine ite_memWf ?_ ?_
  · split
    · exact dropAnswer_memWf h
    · exact ite_memWf (malformedMsg_memWf h) (getNak_memWf h)
  · refine ite_memWf (keep_ite h dropAnswer_memWf) ?_
    split
    · exact dropAnswer_memWf h
    · exact addNak_memWf h

theorem rowAckArrives_memWf {p : Fin 9} {vc : Fin 5} {m : List Byte} (hs : s.memWf) : (rowAckArrives p vc m s).memWf := by
  simp only [rowAckArrives]
  refine receiveMsg_memWf hs fun _ h => ?_
  split
  · exact dropAnswer_memWf h
  · exact modCount_memWf (modStep_memWf (dropStored_memWf h))

theorem releaseGen_memWf (hs : s.memWf) : (releaseGen s).memWf :=
  foldl_memWf (foldl_memWf hs fun _ _ => rerouteGet_memWf) fun _ _ => rerouteUpdate_memWf

theorem routeRecompute_memWf (hs : s.memWf) : (routeRecompute s).memWf := ite_keep hs recomputeRoutes_memWf

theorem getReissue_memWf {req : Nat} (hs : s.memWf) : (getReissue req s).memWf := by
  simp only [getReissue]
  split
  · exact ite_keep hs reissueGet_memWf
  · exact hs

theorem addResend_memWf {dst : Fin 512} {sq : W64} (hs : s.memWf) : (addResend dst sq s).memWf := by
  simp only [addResend]
  split
  · exact ite_keep hs sendUpdate_memWf
  · exact hs

theorem notOwnerResend_memWf {dst : Fin 512} (hs : s.memWf) : (notOwnerResend dst s).memWf :=
  ite_memWf hs (foldl_memWf (foldl_memWf hs fun _ _ => rerouteGet_memWf) fun _ _ h => ite_memWf (sendUpdate_memWf (waitStored_memWf h))
      (rerouteUpdate_memWf h))

theorem refuseAdd_memWf {m : List Byte} {u : Update} {reason : Nat} (hs : s.memWf) : (refuseAdd m u reason s).memWf :=
  nakUpdate_memWf (modCount_memWf hs)

theorem rowAddArrives_memWf {p : Fin 9} {vc : Fin 5} {m : List Byte} (hs : s.memWf) : (rowAddArrives p vc m s).memWf := by
  simp only [rowAddArrives]
  refine receiveMsg_memWf hs fun _ h => ?_
  refine ite_memWf (portViol_memWf (refuseAdd_memWf h)) ?_
  refine ite_memWf (sendRouted_memWf (modStep_memWf (modCount_memWf h))) ?_
  refine ite_memWf (malformedMsg_memWf h) ?_
  refine ite_memWf h ?_
  refine ite_memWf (portViol_memWf (refuseAdd_memWf h)) ?_
  split
  · exact refuseAdd_memWf h
  · exact ite_memWf (refuseAdd_memWf h) (ite_memWf (malformedMsg_memWf h) (ite_memWf (ite_keep (refuseAdd_memWf (ite_keep h logErr_memWf))
        portViol_memWf) (ite_memWf (modPurl_memWf (modCount_memWf h)) (applyInbound_memWf (modCount_memWf h)))))

theorem drainArrives_memWf {p : Fin 9} {m : List Byte} (hs : s.memWf) : (drainArrives p m s).memWf :=
  ite_memWf hs (receiveMsg_memWf hs fun _ h => ite_keep (ite_keep h modStp_memWf) fun h => sendDrain_memWf (modStp_memWf h))

theorem creditArrives_memWf {p : Fin 9} {m : List Byte} (hs : s.memWf) : (creditArrives p m s).memWf :=
  receiveMsg_memWf hs fun _ h => pump_memWf (ite_keep (modPort_memWf h) portViol_memWf)

theorem messageForward_memWf {p : Fin 9} {vc : Fin 5} {m : List Byte} (hs : s.memWf) : (messageForward p vc m s).memWf :=
  ite_memWf (forwardMsg_memWf (consumeMsg_memWf hs)) hs

theorem gaugeSend_memWf {beat phase delay hops root : Nat} (hs : s.memWf) : (gaugeSend beat phase delay hops root s).memWf :=
  foldl_memWf hs fun _ _ h => ite_keep h sendOn_memWf

theorem gaugeOriginate_memWf (hs : s.memWf) : (gaugeOriginate s).memWf := ite_memWf (gaugeSend_memWf (drawFree_memWf hs)) hs

theorem withOrigin_memWf {f : State → State} (hs : s.memWf) (hf : ∀ s, s.memWf → (f s).memWf) : (withOrigin f s).memWf :=
  ite_keep (hf _ hs) gaugeOriginate_memWf

theorem gaugeArrives_memWf {p : Fin 9} {m : List Byte} {since : Nat} {off : Int} (hs : s.memWf) : (gaugeArrives p m since off s).memWf :=
  receiveMsg_memWf hs fun _ h => ite_memWf (portViol_memWf (modPort_memWf h)) (ite_memWf (logErr_memWf h) (ite_keep (gaugeEdge_memWf
      (h.same rfl)) fun h => gaugeSend_memWf (drawFree_memWf h)))

/-! ### Power -/

theorem modPm_memWf {f : PowerUnit → PowerUnit} (hs : s.memWf) : (modPm f s).memWf := hs.same rfl

theorem modMonitor_memWf {m : Fin 88} {f : Monitor → Monitor} (hs : s.memWf) : (modMonitor m f s).memWf := modPm_memWf hs

theorem pmEvent_memWf {k : Nat} (hs : s.memWf) : (pmEvent k s).memWf := ite_memWf hs (keep_ite (modPm_memWf hs) raise_memWf)

theorem monitorSample_memWf {m : Fin 88} {v : BitVec 16} (hs : s.memWf) : (monitorSample m v s).memWf :=
  ite_memWf (ite_keep hs modMonitor_memWf) (ite_memWf hs (ite_memWf (ite_keep (ite_keep (modMonitor_memWf hs) fun h => pmEvent_memWf
      (logErr_memWf h)) pmEvent_memWf) (modMonitor_memWf hs)))

theorem thermalRelease_memWf {m : Fin 88} (hs : s.memWf) : (thermalRelease m s).memWf := ite_keep hs modMonitor_memWf

theorem withLadder_memWf {f : State → State} (hs : s.memWf) (hf : ∀ s, s.memWf → (f s).memWf) : (withLadder f s).memWf :=
  ite_memWf (pmEvent_memWf (hf _ hs)) (ite_keep (hf _ hs) pmEvent_memWf)

theorem thermTripRow_memWf {m : Fin 48} {v : BitVec 16} (hs : s.memWf) : (thermTripRow m v s).memWf := by
  have h1 := modMonitor_memWf (m := Fin.ofNat 88 m.val) (f := fun x => { x with value := v }) hs
  exact ite_memWf hs (ite_memWf h1.with_pins (logErr_memWf (withLadder_memWf h1 fun _ h => modPm_memWf h.with_pins)))

theorem rampStart_memWf (hs : s.memWf) : (rampStart s).memWf := keep_ite hs modPm_memWf

theorem targetChanged_memWf {old : Nat} (hs : s.memWf) : (targetChanged old s).memWf := modPm_memWf hs

theorem takeGrant_memWf {w : Nat} (hs : s.memWf) : (takeGrant w s).memWf := pmEvent_memWf (targetChanged_memWf (modPm_memWf hs))

theorem grantAtOnce_memWf (hs : s.memWf) : (grantAtOnce s).memWf := by
  simp only [grantAtOnce]
  refine ite_memWf hs (rampStart_memWf ?_)
  split
  · exact takeGrant_memWf hs
  · exact hs

theorem grantDecrease_memWf (hs : s.memWf) : (grantDecrease s).memWf := by
  simp only [grantDecrease]
  split
  · exact ite_keep hs takeGrant_memWf
  · exact hs

theorem tensionFires_memWf (hs : s.memWf) : (tensionFires s).memWf := by
  simp only [tensionFires]
  refine ite_memWf hs (ite_memWf (grantDecrease_memWf hs) (rampStart_memWf ?_))
  split
  · exact ite_keep hs takeGrant_memWf
  · exact hs

theorem rampStep_memWf (hs : s.memWf) : (rampStep s).memWf := ite_keep hs modPm_memWf

theorem setHostCap_memWf {w : Nat} (hs : s.memWf) : (setHostCap w s).memWf :=
  keep_ite (targetChanged_memWf (modPm_memWf hs)) rampStart_memWf

theorem powerTick_memWf {watts : Nat} (hs : s.memWf) : (powerTick watts s).memWf :=
  ite_memWf hs (ite_keep (withLadder_memWf hs fun _ h => modPm_memWf (modPm_memWf (modPm_memWf h))) modPm_memWf)

theorem brakeAssert_memWf (hs : s.memWf) : (brakeAssert s).memWf :=
  ite_memWf (hs.same rfl) (pmEvent_memWf (logErr_memWf (withLadder_memWf (hs.same rfl) fun _ => modPm_memWf)))

theorem brakeDeassert_memWf (hs : s.memWf) : (brakeDeassert s).memWf :=
  ite_memWf (hs.same rfl) (grantAtOnce_memWf (pmEvent_memWf (modPm_memWf (hs.same rfl))))

theorem powerReset_memWf {cold : Bool} (hs : s.memWf) : (powerReset cold s).memWf := ite_memWf (hs.same rfl) (hs.same rfl)

theorem standaloneCheck_memWf (hs : s.memWf) : (standaloneCheck s).memWf := ite_memWf (pmEvent_memWf (modPm_memWf hs)) hs

theorem grantAtS7_memWf (hs : s.memWf) : (grantAtS7 s).memWf :=
  ite_memWf (ite_memWf (modPm_memWf hs) (rampStart_memWf (takeGrant_memWf hs))) (grantAtOnce_memWf hs)

theorem sensorCheck_memWf (hs : s.memWf) : (sensorCheck s).memWf := by
  simp only [sensorCheck]
  refine ite_memWf hs ?_
  split
  · exact emit_memWf (hs.same rfl)
  · exact hs.same rfl

/-! ### Firmware -/

theorem modBank_memWf {b : Fin 2} {f : Bank → Bank} (hs : s.memWf) : (modBank b f s).memWf := modFw_memWf hs

theorem noteDelivery_memWf {st sub : Nat} (hs : s.memWf) : (noteDelivery st sub s).memWf := modFw_memWf hs

theorem discardDelivery_memWf {st sub : Nat} (hs : s.memWf) : (discardDelivery st sub s).memWf := noteDelivery_memWf (modFw_memWf hs)

theorem sendChunk_memWf {off : Nat} {last : Bool} {version : Nat} {bs : List Byte} (hs : s.memWf) :
    (sendChunk off last version bs s).memWf := foldl_memWf hs fun _ _ h => ite_keep h sendOn_memWf

theorem sendCut_memWf {last : Bool} {version : Nat} :
    ∀ {off fuel : Nat} {bs : List Byte} {s : State}, s.memWf → (sendCut off last version fuel bs s).memWf
  | _, 0, _, _, hs => hs
  | _, fuel + 1, _, _, hs => ite_memWf hs (ite_memWf (sendChunk_memWf hs) (sendCut_memWf (fuel := fuel) (sendChunk_memWf hs)))

theorem applyStart_memWf {bytes : List Byte} {owner : Option (Nat × Nat)} (hs : s.memWf) : (applyStart bytes owner s).memWf :=
  modBank_memWf (modFw_memWf hs)

theorem stageStore_memWf {owner : Nat × Nat} {d : Staging} {off : Nat} {bs : List Byte} {last : Bool} (hs : s.memWf) :
    (stageStore owner d off bs last s).2.memWf :=
  ite_snd_memWf (discardDelivery_memWf hs) (ite_snd_memWf (modFw_memWf (sendCut_memWf hs)) (ite_snd_memWf (discardDelivery_memWf
      (sendCut_memWf hs)) (applyStart_memWf (sendCut_memWf hs))))

theorem stageFirst_memWf {owner : Nat × Nat} {bs : List Byte} {last : Bool} (hs : s.memWf) : (stageFirst owner bs last s).2.memWf := by
  simp only [stageFirst]
  refine ite_snd_memWf hs ?_
  refine ite_snd_memWf (discardDelivery_memWf (modFw_memWf hs)) ?_
  split
  · exact discardDelivery_memWf (ite_keep (modFw_memWf hs) sendCut_memWf)
  · exact stageStore_memWf (modFw_memWf hs)

theorem recoveryEnd_memWf {all : List Byte} (hs : s.memWf) : (recoveryEnd all s).memWf := modBank_memWf (modFw_memWf hs)

theorem recoveryStore_memWf {d : Staging} {bs : List Byte} {last : Bool} (hs : s.memWf) : (recoveryStore d bs last s).2.memWf :=
  ite_snd_memWf (discardDelivery_memWf (modBank_memWf hs)) (ite_snd_memWf (modFw_memWf (modBank_memWf hs)) (ite_snd_memWf
      (discardDelivery_memWf (modBank_memWf hs)) (recoveryEnd_memWf (modBank_memWf hs))))

theorem recoveryFirst_memWf {bs : List Byte} {last : Bool} (hs : s.memWf) : (recoveryFirst bs last s).2.memWf := by
  simp only [recoveryFirst]
  refine ite_snd_memWf (discardDelivery_memWf (modFw_memWf hs)) ?_
  split
  · exact discardDelivery_memWf (modFw_memWf hs)
  · exact recoveryStore_memWf (modFw_memWf hs)

theorem stageRun_memWf {n : Fin 64} {e : Entry} {bs : List Byte} (hs : s.memWf) : (stageRun n e bs s).2.memWf := by
  simp only [stageRun]
  refine ite_snd_memWf (ite_snd_memWf (recoveryFirst_memWf hs) (stageFirst_memWf hs)) ?_
  split
  · exact ite_snd_memWf hs (ite_snd_memWf (recoveryStore_memWf hs) (stageStore_memWf hs))
  · exact hs

theorem cmdFwStage_keepsMem : cmdFwStage.KeepsMem where
  run _ _ _ hs := readBuf_memWf hs fun _ _ => stageRun_memWf
  onFault _ _ _ hs := hs

theorem applyOwner_memWf {a : Apply} {st sub r0 : Nat} (hs : s.memWf) : (applyOwner a st sub r0 s).memWf := by
  simp only [applyOwner]
  split
  · exact complete_memWf hs
  · exact hs

theorem applyEnd_memWf (hs : s.memWf) : (applyEnd s).memWf := by
  simp only [applyEnd]
  split
  · exact hs
  · refine ite_memWf hs ?_
    split
    · exact applyOwner_memWf (noteDelivery_memWf (modFw_memWf hs))
    · split
      · exact applyOwner_memWf (noteDelivery_memWf (modFw_memWf hs))
      · exact applyOwner_memWf (modFw_memWf (modBank_memWf hs))

theorem cmdFwChainSet_keepsMem : cmdFwChainSet.KeepsMem where
  run _ _ _ hs := ite_snd_memWf hs (modFw_memWf hs)
  onFault _ _ _ hs := hs

theorem chunkDrop_memWf (hs : s.memWf) : (chunkDrop s).memWf := modFw_memWf hs

theorem chunkForward_memWf {m : List Byte} (hs : s.memWf) : (chunkForward m s).memWf := sendChunk_memWf hs

theorem chunkStore_memWf {d : Staging} {m : List Byte} (hs : s.memWf) : (chunkStore d m s).memWf := by
  simp only [chunkStore]
  refine ite_memWf (ite_memWf (discardDelivery_memWf hs) (ite_memWf (modFw_memWf (foldl_memWf hs fun _ _ => chunkForward_memWf)) (ite_memWf
      (modFw_memWf (foldl_memWf hs fun _ _ => chunkForward_memWf)) (ite_memWf (discardDelivery_memWf (foldl_memWf hs fun _ _ =>
      chunkForward_memWf)) (applyStart_memWf (foldl_memWf hs fun _ _ => chunkForward_memWf)))))) ?_
  refine ite_memWf (ite_memWf (discardDelivery_memWf hs) (modFw_memWf hs)) ?_
  split
  · exact ite_memWf (discardDelivery_memWf hs) (ite_memWf (modFw_memWf (foldl_memWf hs fun _ _ => chunkForward_memWf)) (ite_memWf
        (modFw_memWf (foldl_memWf hs fun _ _ => chunkForward_memWf)) (ite_memWf (discardDelivery_memWf (foldl_memWf hs fun _ _ =>
        chunkForward_memWf)) (applyStart_memWf (foldl_memWf hs fun _ _ => chunkForward_memWf)))))
  · exact ite_memWf (ite_memWf (discardDelivery_memWf (noteDelivery_memWf hs)) (ite_memWf (modFw_memWf (foldl_memWf (noteDelivery_memWf hs)
        fun _ _ => chunkForward_memWf)) (ite_memWf (modFw_memWf (foldl_memWf (noteDelivery_memWf hs) fun _ _ => chunkForward_memWf))
        (ite_memWf (discardDelivery_memWf (foldl_memWf (noteDelivery_memWf hs) fun _ _ => chunkForward_memWf)) (applyStart_memWf
        (foldl_memWf (noteDelivery_memWf hs) fun _ _ => chunkForward_memWf)))))) (discardDelivery_memWf hs)

theorem chunkArrives_memWf {p : Fin 9} {m : List Byte} (hs : s.memWf) : (chunkArrives p m s).memWf := by
  refine receiveMsg_memWf hs fun s h => ite_memWf (portViol_memWf h) (ite_memWf (chunkDrop_memWf h) (ite_memWf ?_ ?_))
  · exact ite_memWf (chunkDrop_memWf h) (ite_memWf (portViol_memWf (modFw_memWf h)) (chunkStore_memWf (modFw_memWf h)))
  · split
    · exact ite_memWf (chunkDrop_memWf h) (ite_memWf (portViol_memWf h) (ite_memWf (portViol_memWf h) (chunkStore_memWf h)))
    · exact chunkDrop_memWf h

theorem cmdFwActivate_keepsMem : cmdFwActivate.KeepsMem where
  run _ _ _ hs := ite_snd_memWf hs (schedule_memWf hs)
  onFault _ _ _ hs := hs

theorem activate_memWf {n : Fin 64} {cid : Nat} {late : Bool} (hs : s.memWf) : (activate n cid late s).memWf :=
  raise_memWf (completeAt_memWf ((foldl_memWf (modFw_memWf (modBank_memWf (drawFree_memWf hs))) fun _ _ => modThread_memWf).same rfl))

theorem selfConfirm_memWf (hs : s.memWf) : (selfConfirm s).memWf := ite_memWf (raise_memWf (modFw_memWf (modBank_memWf hs))) hs

theorem trialFail_memWf (hs : s.memWf) : (trialFail s).memWf := modFw_memWf (modBank_memWf (modBank_memWf hs))

theorem cmdFwDiscard_keepsMem : cmdFwDiscard.KeepsMem where
  run _ _ s hs := by
    simp only [cmdFwDiscard]
    refine ite_snd_memWf hs (modBank_memWf (modFw_memWf (foldl_memWf (State.memWf.with_gg ?_) fun _ _ => abandonOwner_memWf)))
    split
    · exact applyOwner_memWf (modFw_memWf hs)
    · exact hs
  onFault _ _ _ hs := hs

theorem bootOrder_memWf (hs : s.memWf) : (bootOrder s).2.memWf :=
  ite_snd_memWf (ite_snd_memWf (modBank_memWf (modBank_memWf hs)) (modBank_memWf (modBank_memWf hs))) (ite_snd_memWf (ite_snd_memWf
      (modBank_memWf (modBank_memWf hs)) (modBank_memWf (modBank_memWf hs))) hs)

theorem cmdFwStatus_keepsMem : cmdFwStatus.KeepsMem where
  run _ _ _ hs := drawFree_memWf (writeBuf_memWf hs)
  onFault _ _ _ hs := hs

/-! ### Sideband -/

theorem sbAnswer_memWf {r : SbReply} (hs : s.memWf) : (sbAnswer r s).memWf := ite_keep hs emit_memWf

theorem modSb_memWf {f : Sideband → Sideband} (hs : s.memWf) : (modSb f s).memWf := hs.same rfl

theorem dynamicAddress_memWf {a : BitVec 7} (hs : s.memWf) : (dynamicAddress a s).memWf :=
  ite_memWf hs (ite_keep (emit_memWf (modSb_memWf hs)) fun h => modPm_memWf (takeGrant_memWf (pmEvent_memWf (modPm_memWf h))))

theorem setEid_memWf {e : Byte} (hs : s.memWf) : (setEid e s).memWf :=
  ite_memWf hs (ite_memWf (sbAnswer_memWf hs) (sbAnswer_memWf (modSb_memWf hs)))

theorem getEid_memWf (hs : s.memWf) : (getEid s).memWf := sbAnswer_memWf hs

theorem pldmOf_memWf {t : Nat} {r : SbReply} (hs : s.memWf) : (pldmOf t r s).memWf := sbAnswer_memWf hs

theorem getPdr_memWf {id : Nat} (hs : s.memWf) : (getPdr id s).memWf := sbAnswer_memWf hs

theorem setReceiver_memWf {r : Option Byte} (hs : s.memWf) : (setReceiver r s).memWf := ite_memWf (sbAnswer_memWf (modSb_memWf hs)) hs

theorem grantWatts_memWf {w : Nat} (hs : s.memWf) : (grantWatts w s).memWf :=
  ite_memWf hs (ite_memWf (sbAnswer_memWf hs) (sbAnswer_memWf (modPm_memWf hs)))

theorem grantCommit_memWf {b : W32} (hs : s.memWf) : (grantCommit b s).memWf :=
  ite_memWf hs (sbAnswer_memWf (grantAtOnce_memWf (modPm_memWf hs)))

theorem fruMetadata_memWf (hs : s.memWf) : (fruMetadata s).memWf := sbAnswer_memWf hs

theorem fruTable_memWf {first : Bool} (hs : s.memWf) : (fruTable first s).memWf := by
  simp only [fruTable]
  refine ite_memWf hs ?_
  split <;> exact sbAnswer_memWf (ite_keep hs modSb_memWf)

/-! ### Spdm -/

theorem spdmAnswer_memWf {r : SpdmReply} (hs : s.memWf) : (spdmAnswer r s).memWf := ite_keep hs emit_memWf

theorem spdmStep_memWf {ph : SpdmPhase} {r : SpdmReply} (hs : s.memWf) : (spdmStep ph r s).memWf := ite_memWf (emit_memWf (hs.same rfl)) hs

theorem versioned_memWf {ver : Byte} {f : State → State} (hs : s.memWf) (hf : ∀ s, s.memWf → (f s).memWf) : (versioned ver f s).memWf :=
  ite_memWf (hf _ hs) (spdmAnswer_memWf hs)

theorem negotiated_memWf {ver : Byte} {f : State → State} (hs : s.memWf) (hf : ∀ s, s.memWf → (f s).memWf) : (negotiated ver f s).memWf :=
  versioned_memWf hs fun _ h => ite_memWf (hf _ h) (spdmAnswer_memWf h)

theorem spdmGetVersion_memWf (hs : s.memWf) : (spdmGetVersion s).memWf := spdmStep_memWf hs

theorem spdmCapabilities_memWf {ver : Byte} (hs : s.memWf) : (spdmCapabilities ver s).memWf :=
  versioned_memWf hs fun _ h => ite_memWf (spdmStep_memWf h) (spdmAnswer_memWf h)

theorem spdmAlgorithms_memWf {ver : Byte} (hs : s.memWf) : (spdmAlgorithms ver s).memWf :=
  versioned_memWf hs fun _ h => ite_memWf (spdmStep_memWf h) (spdmAnswer_memWf h)

theorem spdmDigests_memWf {ver : Byte} (hs : s.memWf) : (spdmDigests ver s).memWf := negotiated_memWf hs fun _ => spdmAnswer_memWf

theorem spdmCertificate_memWf {ver : Byte} {slot : Fin 8} {off len : BitVec 16} (hs : s.memWf) :
    (spdmCertificate ver slot off len s).memWf := negotiated_memWf hs fun _ h => ite_memWf (spdmAnswer_memWf h) (spdmAnswer_memWf h)

theorem nextSignature_memWf (hs : s.memWf) : (nextSignature s).2.memWf := hs.same rfl

theorem spdmChallenge_memWf {ver : Byte} {slot : Fin 8} (hs : s.memWf) : (spdmChallenge ver slot s).memWf :=
  negotiated_memWf hs fun _ h => ite_memWf (spdmAnswer_memWf h) (spdmAnswer_memWf (nextSignature_memWf h))

theorem spdmMeasurements_memWf {ver index : Byte} {sign : Bool} (hs : s.memWf) : (spdmMeasurements ver index sign s).memWf :=
  negotiated_memWf hs fun _ h => ite_memWf (spdmAnswer_memWf h) (ite_memWf (spdmAnswer_memWf (nextSignature_memWf h)) (spdmAnswer_memWf h))

theorem spdmOther_memWf {ver : Byte} (hs : s.memWf) : (spdmOther ver s).memWf := versioned_memWf hs fun _ => spdmAnswer_memWf

theorem doeDiscovery_memWf {i : Byte} (hs : s.memWf) : (doeDiscovery i s).memWf :=
  ite_memWf hs (ite_memWf (emit_memWf hs) (ite_memWf (emit_memWf hs) (emit_memWf hs)))

theorem h2dSnoop_memWf (hs : s.memWf) : (h2dSnoop s).memWf := ite_keep hs emit_memWf

/-! ### Session -/

theorem cmdNegotiate_keepsMem : cmdNegotiate.KeepsMem where
  run _ _ _ hs := ite_snd_memWf (ite_memWf hs.with_rst hs) (State.memWf.with_mb (ite_memWf hs.with_rst hs))
  onFault _ _ _ hs := hs

theorem cmdIdentify_keepsMem : cmdIdentify.KeepsMem where
  run _ _ _ hs := writeBuf_memWf hs
  onFault _ _ _ hs := hs

theorem cmdQpCreate_keepsMem : cmdQpCreate.KeepsMem where
  run _ _ _ hs := ite_snd_memWf hs (ite_snd_memWf (violation_memWf hs) (ite_snd_memWf (violation_memWf hs) (modQp_memWf hs)))
  onFault _ _ _ hs := ite_keep hs violation_memWf

theorem cmdQpDelete_keepsMem : cmdQpDelete.KeepsMem where
  run _ _ _ hs := ite_snd_memWf hs (ite_snd_memWf hs (stopQp_memWf hs))
  onFault _ _ _ hs := hs

theorem cmdResetReport_keepsMem : cmdResetReport.KeepsMem where
  run _ _ _ hs := writeBuf_memWf hs
  onFault _ _ _ hs := hs

/-! ### Spaces -/

theorem modTx_memWf {f : TxUnit → TxUnit} (hs : s.memWf) : (modTx f s).memWf := hs.same rfl

theorem bumpGen_memWf {tag : Nat} (hs : s.memWf) : (bumpGen tag s).memWf := modTx_memWf hs

theorem cmdAsCreate_keepsMem : cmdAsCreate.KeepsMem where
  run _ _ _ hs := ite_snd_memWf hs (ite_snd_memWf hs (retryFaultIns_memWf (rereadPool_memWf (modTx_memWf hs))))
  onFault _ _ _ hs := hs

theorem dropInval_memWf {i : Inval} (hs : s.memWf) : (dropInval i s).memWf := modTx_memWf hs

theorem invalProgress_memWf {i : Inval} (hs : s.memWf) : (invalProgress s i).memWf :=
  ite_memWf hs (ite_memWf (complete_memWf (retryFaultIns_memWf (ite_memWf (modTx_memWf (dropInval_memWf (emptyWithdrawn_memWf hs)))
      (modTx_memWf (dropInval_memWf (emptyWithdrawn_memWf hs)))))) (modCmd_memWf (emptyWithdrawn_memWf hs)))

theorem cmdAsDestroy_keepsMem : cmdAsDestroy.KeepsMem where
  run _ _ _ hs := ite_snd_memWf hs (invalProgress_memWf (modTx_memWf (modRes_memWf (bumpGen_memWf hs) rfl)))
  onFault _ _ _ hs := hs

theorem ptUnits_memWf : ∀ {n a k : Nat} {bs : List Byte} {s : State}, s.memWf → (ptUnits a bs k n s).2.memWf
  | 0, _, _, _, _, hs => hs
  | n + 1, _, _, _, _, hs => ite_snd_memWf hs (ptUnits_memWf (n := n) (t1Store_memWf hs))

theorem ptPieces_memWf {n : Fin 64} : ∀ {fuel src dst left k : Nat} {s : State}, s.memWf → (ptPieces n src dst left k fuel s).2.memWf
  | 0, _, _, _, _, _, hs => hs
  | fuel + 1, src, dst, left, k, s, hs => by
    simp only [ptPieces]
    split
    · exact hs
    · split
      · exact bufFault_memWf hs
      · generalize e1 : ptUnits _ _ _ _ _ = p1
        have h1 : p1.2.memWf := e1 ▸ ptUnits_memWf hs
        split
        · exact h1
        · exact ptPieces_memWf h1

theorem cmdPtWrite_keepsMem : cmdPtWrite.KeepsMem where
  run _ _ _ hs := ite_snd_memWf hs (ptPieces_memWf hs)
  onFault _ _ _ hs := hs

theorem cmdInvalTag_keepsMem : cmdInvalTag.KeepsMem where
  run _ _ _ hs := ite_snd_memWf hs (bumpGen_memWf hs)
  onFault _ _ _ hs := hs

theorem cmdInvalRange_keepsMem : cmdInvalRange.KeepsMem where
  run _ _ _ hs := ite_snd_memWf hs (ite_snd_memWf hs (modTx_memWf (uncacheRange_memWf hs)))
  onFault _ _ _ hs := hs

theorem invalAck_memWf {i : Nat} {k : Fin 58} (hs : s.memWf) : (invalAck i k s).memWf := by
  simp only [invalAck]
  split
  · exact hs
  · exact ite_memWf hs (ite_keep (modTx_memWf hs) fun h => invalProgress_memWf (rereadPool_memWf h))

theorem invalsProgress_memWf (hs : s.memWf) : (invalsProgress s).memWf := foldl_memWf hs fun _ _ => invalProgress_memWf

theorem walkComplete_memWf {tag : BitVec 12} {va : BitVec 52} (hs : s.memWf) : (walkComplete tag va s).memWf := ite_keep hs cacheLeaf_memWf

theorem cmdFaultRingSet_keepsMem : cmdFaultRingSet.KeepsMem where
  run _ _ _ hs := ite_snd_memWf hs (modTx_memWf hs)
  onFault _ _ _ hs := hs

theorem cmdFaultResume_keepsMem : cmdFaultResume.KeepsMem where
  run _ _ _ hs := by
    simp only [cmdFaultResume]
    split
    · exact hs
    · exact endFault_memWf hs
  onFault _ _ _ hs := hs

/-! ### TableCommands -/

theorem modTbl_memWf {f : TableUnit → TableUnit} (hs : s.memWf) : (modTbl f s).memWf := hs.same rfl

theorem noTable_memWf {e : Entry} (hs : s.memWf) : (noTable e s).2.memWf := hs

theorem cmdTableCreate_keepsMem : cmdTableCreate.KeepsMem where
  run _ _ _ hs := by
      simp only [cmdTableCreate]
      refine readBuf_memWf hs fun _ _ h => ?_
      split
      · exact ite_keep h logErr_memWf
      · exact modTbl_memWf h
  onFault _ _ _ hs := hs

theorem dropRefreshes_memWf {h obj : Nat} (hs : s.memWf) : (dropRefreshes h obj s).memWf :=
  foldl_memWf hs fun _ _ h => abandonOwner_memWf (logErr_memWf (h.same rfl))

theorem dropHotSet_memWf {h : Nat} (hs : s.memWf) : (dropHotSet h s).memWf := modTbl_memWf hs

theorem endTableFaultIn_memWf {x : FaultIn} (hs : s.memWf) : (endTableFaultIn s x).memWf := releaseStalls_memWf (modRes_memWf hs rfl)

theorem destroyTable_memWf {id : Nat} (hs : s.memWf) : (destroyTable id s).memWf :=
  retryFaultIns_memWf (foldl_memWf (modRes_memWf (modTbl_memWf (foldl_memWf hs fun _ _ h => dropHotSet_memWf (dropRefreshes_memWf h))) rfl)
      fun _ _ => endTableFaultIn_memWf)

theorem cmdTableDestroy_keepsMem : cmdTableDestroy.KeepsMem where
  run _ _ _ hs := by
    simp only [cmdTableDestroy]
    split
    · exact noTable_memWf hs
    · exact ite_snd_memWf hs (destroyTable_memWf hs)
  onFault _ _ _ hs := hs

theorem cmdTableQuery_keepsMem : cmdTableQuery.KeepsMem where
  run _ _ _ hs := by
    simp only [cmdTableQuery]
    split
    · exact noTable_memWf hs
    · split
      · exact hs
      · exact writeBuf_memWf hs
  onFault _ _ _ hs := hs

theorem loadCopies_memWf {cls : Fin 4} {t : Table} : ∀ {cs : List RowCopy} {s : State}, s.memWf → (loadCopies cls t cs s).2.memWf
  | [], _, hs => hs
  | c :: cs, s, hs => by
    simp only [loadCopies]
    split
    · exact loadCopies_memWf hs
    · generalize e1 : xRead _ _ _ _ _ _ = p1
      have h1 : p1.2.memWf := e1 ▸ xRead_memWf hs
      split
      · exact loadCopies_memWf h1
      · exact h1
      · exact h1
      · exact h1
      · exact h1

theorem hotLoadOn_memWf {n : Fin 64} {e : Entry} (hs : s.memWf) : (hotLoadOn n e s).2.memWf := by
  simp only [hotLoadOn]
  split
  · split
    · exact modTbl_memWf (loadCopies_memWf hs)
    · exact modCmd_memWf (modTbl_memWf (loadCopies_memWf hs))
    · exact dropHotSet_memWf (modTbl_memWf (loadCopies_memWf hs))
  · exact hs

theorem cmdHotsetLoad_keepsMem : cmdHotsetLoad.KeepsMem where
  run _ _ _ hs := by
      simp only [cmdHotsetLoad]
      refine readBuf_memWf hs fun _ _ h => ?_
      split
      · exact noTable_memWf h
      · split
        · exact h
        · exact ite_snd_memWf h (ite_snd_memWf h (ite_snd_memWf h (hotLoadOn_memWf (modTbl_memWf h))))
  onFault _ _ _ hs := hs

theorem cmdHotsetRefresh_keepsMem : cmdHotsetRefresh.KeepsMem where
  run _ _ _ hs := ite_snd_memWf hs (schedule_memWf hs)
  onFault _ _ _ hs := hs

theorem cmdHotsetDrop_keepsMem : cmdHotsetDrop.KeepsMem where
  run _ _ _ hs := ite_snd_memWf hs (dropHotSet_memWf (dropRefreshes_memWf hs))
  onFault _ _ _ hs := hs

theorem refreshHot_memWf {h : Nat} (hs : s.memWf) : (refreshHot s h).memWf := by
  simp only [refreshHot]
  split
  · exact modTbl_memWf hs
  · exact modTbl_memWf (refreshRows_memWf hs)

theorem replicaOn_memWf {n : Fin 64} {e : Entry} (hs : s.memWf) : (replicaOn n e s).2.memWf := by
  simp only [replicaOn]
  split
  · split
    · exact hs
    · split
      · exact modTbl_memWf (loadCopies_memWf hs)
      · exact modCmd_memWf (modTbl_memWf (loadCopies_memWf hs))
      · exact modTbl_memWf (modTbl_memWf (loadCopies_memWf hs))
  · exact hs

theorem cmdReplicaSet_keepsMem : cmdReplicaSet.KeepsMem where
  run _ _ _ hs := by
    simp only [cmdReplicaSet]
    split
    · exact noTable_memWf hs
    · refine ite_snd_memWf hs ?_
      split
      · exact hs
      · exact replicaOn_memWf (modTbl_memWf hs)
  onFault _ _ _ hs := hs

theorem cmdReplicaDrop_keepsMem : cmdReplicaDrop.KeepsMem where
  run _ _ _ hs := by
    simp only [cmdReplicaDrop]
    split
    · exact noTable_memWf hs
    · split
      · exact hs
      · exact modTbl_memWf hs
  onFault _ _ _ hs := hs

/-! ### TierCommands -/

theorem rangeFault_memWf {va status : Nat} (hs : s.memWf) : (rangeFault va status s).2.memWf := hs

theorem fetchBlock_memWf {id b : Nat} {cls : Fin 4} {hot : Bool} (hs : s.memWf) : (fetchBlock id b cls hot s).2.memWf := by
  simp only [fetchBlock]
  generalize e1 : touchAway _ _ _ _ _ = p1
  have h1 : p1.2.memWf := e1 ▸ touchAway_memWf hs
  split <;> exact blockMod_memWf h1

theorem moveToTier_memWf {tier id b : Nat} {cls : Fin 4} (hs : s.memWf) : (moveToTier tier id b cls s).2.memWf := by
  simp only [moveToTier]
  split
  · exact hs
  · exact ite_snd_memWf (ite_snd_memWf hs (fetchBlock_memWf hs)) (ite_snd_memWf hs (ite_snd_memWf hs (ite_snd_memWf (blockMod_memWf hs)
        (ite_snd_memWf hs (ite_snd_memWf (ite_snd_memWf (ite_snd_memWf hs (blockLeave_memWf hs)) (wbStart_memWf hs))
        (fetchBlock_memWf hs))))))

theorem prefetchOn_memWf {n : Fin 64} {e : Entry} : ∀ {fuel : Nat} {s : State}, s.memWf → (prefetchOn n e fuel s).2.memWf
  | 0, _, hs => hs
  | fuel + 1, s, hs => by
    simp only [prefetchOn]
    split
    · exact hs
    · split
      · exact hs
      · split
        · exact hs
        · generalize e1 : moveToTier _ _ _ _ _ = p1
          have h1 : p1.2.memWf := e1 ▸ moveToTier_memWf hs
          split
          · exact prefetchOn_memWf (modCmd_memWf h1)
          · exact modCmd_memWf h1
          · exact h1

theorem prefetchStart_memWf {n : Fin 64} {e : Entry} (hs : s.memWf) : (prefetchStart n e s).2.memWf := by
  simp only [prefetchStart]
  split
  · exact rangeFault_memWf hs
  · exact prefetchOn_memWf hs

theorem cmdPrefetch_keepsMem : cmdPrefetch.KeepsMem where
  run _ _ _ hs := ite_snd_memWf (schedule_memWf hs) (prefetchStart_memWf hs)
  onFault _ _ _ hs := hs

theorem adviseAll_memWf {f : DirEntry → DirEntry × Bool} {blocks : List (Nat × Nat × Nat)} (hs : s.memWf) :
    (adviseAll f blocks s).2.memWf := by
  refine foldl_snd_memWf hs fun p x h => ?_
  split
  · exact h
  · exact blockMod_memWf h

theorem pruneAbsets_memWf (hs : s.memWf) : (pruneAbsets s).memWf := modRes_memWf hs rfl

theorem adviseRun_memWf {e : Entry} {mask : BitVec 512} (hs : s.memWf) : (adviseRun e mask s).2.memWf := by
  simp only [adviseRun]
  split
  · exact adviseAll_memWf hs
  · exact adviseAll_memWf hs
  · refine ite_snd_memWf (pruneAbsets_memWf (adviseAll_memWf hs)) ?_
    split
    · exact pruneAbsets_memWf (adviseAll_memWf hs)
    · split
      · exact hs
      · exact pruneAbsets_memWf (adviseAll_memWf (modRes_memWf hs rfl))
  · exact ite_snd_memWf hs (adviseAll_memWf hs)

theorem cmdAdvise_keepsMem : cmdAdvise.KeepsMem where
  run _ _ _ hs := by
    simp only [cmdAdvise]
    refine ite_snd_memWf (readBuf_memWf hs fun _ _ h => ?_) ?_
    · split
      · exact rangeFault_memWf h
      · exact adviseRun_memWf h
    · split
      · exact rangeFault_memWf hs
      · exact adviseRun_memWf hs
  onFault _ _ _ hs := hs

theorem abandonNvme_memWf {p : Fin 4} (hs : s.memWf) : (abandonNvme p s).memWf :=
  foldl_memWf (foldl_memWf (modDrive_memWf hs fun _ => rfl) fun _ _ => nvmeFailed_memWf) fun _ _ => faultInEnd_memWf

theorem reinitDrive_memWf {p : Fin 4} {r : DriveReport} (hs : s.memWf) : (reinitDrive p r s).2.memWf :=
  ite_snd_memWf (unfenceBlocks_memWf (initDrive_memWf (abandonNvme_memWf hs))) (modDrive_memWf (abandonNvme_memWf hs) fun _ => rfl)

theorem cmdDriveUnfence_keepsMem {r : DriveReport} : (cmdDriveUnfence r).KeepsMem where
  run _ _ _ hs := by
    simp only [cmdDriveUnfence]
    generalize e1 : reinitDrive _ _ _ = p1
    have h1 : p1.2.memWf := e1 ▸ reinitDrive_memWf hs
    split <;> exact h1
  onFault _ _ _ hs := hs

/-! ### Launch -/

theorem modTh_memWf {f : ThreadUnit → ThreadUnit} (hs : s.memWf) : (modTh f s).memWf := hs.same rfl

theorem cmdPatternLoad_keepsMem : cmdPatternLoad.KeepsMem where
  run _ _ _ hs := by
      simp only [cmdPatternLoad]
      refine readBuf_memWf hs fun _ _ h => ?_
      split
      · exact h
      · exact modTh_memWf h
  onFault _ _ _ hs := hs

theorem cmdPatternUnload_keepsMem : cmdPatternUnload.KeepsMem where
  run _ _ _ hs := ite_snd_memWf hs (modTh_memWf hs)
  onFault _ _ _ hs := hs

theorem launchRead_memWf {n : Fin 64} {e : Entry} {b : Nat} (hs : s.memWf) : (launchRead n e b s).2.memWf := by
  simp only [launchRead]
  split
  · exact hs
  · exact hs
  · exact ite_snd_memWf hs (ite_snd_memWf hs (modTh_memWf hs))

theorem launchOn_memWf {n : Fin 64} {e : Entry} (hs : s.memWf) : (launchOn n e s).2.memWf := by
  simp only [launchOn]
  refine ite_snd_memWf hs ?_
  generalize e1 : xRead _ _ _ _ _ _ = p1
  have h1 : p1.2.memWf := e1 ▸ xRead_memWf hs
  split
  · exact launchRead_memWf h1
  · exact modCmd_memWf h1
  · exact h1
  · exact h1
  · exact h1

theorem cmdLaunch_keepsMem : cmdLaunch.KeepsMem where
  run _ _ _ hs := launchOn_memWf hs
  onFault _ _ _ hs := hs

theorem drainPurl_memWf {tile : Nat} (hs : s.memWf) : (drainPurl tile s).memWf :=
  storeSlots_memWf (foldl_memWf hs fun _ _ h => ite_memWf (applyLocal_memWf (modSlot_memWf h)) h)

theorem endThreads_memWf {tile : Nat} (hs : s.memWf) : (endThreads tile s).2.memWf :=
  foldl_memWf (modTh_memWf hs) fun _ _ => modLaunch_memWf

theorem clearTile_memWf {tile : Fin 16} (hs : s.memWf) : (clearTile tile s).memWf := by
  refine modTbl_memWf (modTx_memWf (modPurl_memWf (hs.with_staging (fun i => ?_) rfl)))
  by_cases h : tile = i
  · subst h; simp only [modTl, vset_self, wf_nil]
  · simpa only [modTl, vset_other _ _ h] using hs.staging i

theorem tileReset_memWf {tile : Fin 16} (hs : s.memWf) : (tileReset tile s).2.memWf :=
  pruneFaults_memWf (dropHeld_memWf (sqFlushIds_memWf (clearTile_memWf (endThreads_memWf (drainPurl_memWf hs)))))

theorem cmdTileReset_keepsMem : cmdTileReset.KeepsMem where
  run _ _ _ hs := ite_snd_memWf hs (tileReset_memWf hs)
  onFault _ _ _ hs := hs

/-! ### StepCommands -/

theorem disown_memWf {n : Fin 64} {cid : Nat} (hs : s.memWf) : (disown n cid s).memWf := hs.same rfl

theorem openEffect_memWf {n : Fin 64} {e : Entry} (hs : s.memWf) : (openEffect n e s).2.memWf :=
  ite_snd_memWf hs (disown_memWf (openStep_memWf hs))

theorem cmdStepOpen_keepsMem : cmdStepOpen.KeepsMem where
  run _ _ _ hs := by
    simp only [cmdStepOpen]
    refine ite_snd_memWf hs ?_
    refine ite_snd_memWf (ite_snd_memWf hs (schedule_memWf hs)) ?_
    refine ite_snd_memWf hs ?_
    split
    · exact ite_snd_memWf (openEffect_memWf hs) hs
    · exact openEffect_memWf (foldl_memWf hs fun _ _ => schedPut_memWf)
  onFault _ _ _ hs := hs

theorem cmdStepConfirm_keepsMem : cmdStepConfirm.KeepsMem where
  run _ _ _ hs := ite_snd_memWf hs (ite_snd_memWf (ite_snd_memWf (schedule_memWf hs) hs) (confirmDue_memWf hs))
  onFault _ _ _ hs := hs

theorem closeEffect_memWf {n : Fin 64} {e : Entry} (hs : s.memWf) : (closeEffect n e s).2.memWf := ite_snd_memWf hs (closeStart_memWf hs)

theorem cmdStepClose_keepsMem : cmdStepClose.KeepsMem where
  run _ _ _ hs := by
    simp only [cmdStepClose]
    refine ite_snd_memWf hs ?_
    refine ite_snd_memWf (ite_snd_memWf (schedule_memWf hs) hs) ?_
    refine ite_snd_memWf hs ?_
    split
    · exact ite_snd_memWf (closeEffect_memWf hs) hs
    · exact closeEffect_memWf (foldl_memWf hs fun _ _ => schedPut_memWf)
  onFault _ _ _ hs := hs

theorem specOpenEffect_memWf {n : Fin 64} {e : Entry} (hs : s.memWf) : (specOpenEffect n e s).2.memWf :=
  ite_snd_memWf hs (disown_memWf (openWindow_memWf hs))

theorem cmdSpecOpen_keepsMem : cmdSpecOpen.KeepsMem where
  run _ _ _ hs := ite_snd_memWf hs (schedule_memWf hs)
  onFault _ _ _ hs := hs

theorem cmdSpecAbandon_keepsMem : cmdSpecAbandon.KeepsMem where
  run _ _ _ hs := ite_snd_memWf hs (abandonWindow_memWf hs)
  onFault _ _ _ hs := hs

theorem cmdStepQuery_keepsMem : cmdStepQuery.KeepsMem where
  run _ _ _ hs := writeBuf_memWf hs
  onFault _ _ _ hs := hs

/-! ### FabricCommands -/

theorem cmdFabricId_keepsMem : cmdFabricId.KeepsMem where
  run _ _ _ hs := ite_snd_memWf hs (modFab_memWf hs)
  onFault _ _ _ hs := hs

theorem waitJoin_memWf {p : Fin 9} {n : Fin 64} {e : Entry} (hs : s.memWf) : (waitJoin p n e s).2.memWf := modPort_memWf hs

theorem portDisable_memWf {p : Fin 9} (hs : s.memWf) : (portDisable p s).memWf :=
  answerWaiter_memWf (keep_ite (modPort_memWf hs) portResetBye_memWf)

theorem portEnable_memWf {p : Fin 9} {n : Fin 64} {e : Entry} (hs : s.memWf) : (portEnable p n e s).2.memWf := by
  simp only [portEnable]
  split
  · exact hs
  · exact waitJoin_memWf hs
  · exact waitJoin_memWf (modPort_memWf hs)

theorem cmdPortConfig_keepsMem : cmdPortConfig.KeepsMem where
  run _ _ _ hs := ite_snd_memWf (portDisable_memWf hs) (ite_snd_memWf hs (ite_snd_memWf (ite_snd_memWf (modPort_memWf (portResetBye_memWf
      (modPort_memWf hs))) (modPort_memWf hs)) (portEnable_memWf (modPort_memWf hs))))
  onFault _ _ _ hs := hs

theorem loadMap_memWf {gen : Nat} {es : List ShardEntry} (hs : s.memWf) : (loadMap gen es s).2.memWf :=
  ite_snd_memWf hs (releaseGen_memWf (modFab_memWf hs))

theorem loadRun_memWf {n : Fin 64} {e : Entry} (hs : s.memWf) : (loadRun n e s).2.memWf := by
  simp only [loadRun]
  refine readBuf_memWf hs fun _ _ h => ?_
  split
  · exact h
  · exact ite_snd_memWf h (ite_snd_memWf (modFab_memWf h) (loadMap_memWf h))

theorem releaseLoads_memWf (hs : s.memWf) : (releaseLoads s).memWf :=
  ite_memWf hs (foldl_memWf (modFab_memWf hs) fun _ _ h => settleCmd_memWf (loadMap_memWf h))

theorem cmdShardmapLoad_keepsMem : cmdShardmapLoad.KeepsMem where
  run _ _ _ hs := loadRun_memWf hs
  onFault _ _ _ hs := hs

theorem cmdPortReset_keepsMem {r : DriveReport} : (cmdPortReset r).KeepsMem where
  run _ _ _ hs := by
    simp only [cmdPortReset]
    refine ite_snd_memWf ?_ (ite_snd_memWf hs (waitJoin_memWf (portResetBye_memWf hs)))
    generalize e1 : reinitDrive _ _ _ = p1
    have h1 : p1.2.memWf := e1 ▸ reinitDrive_memWf (sqFlushIds_memWf hs)
    split <;> exact h1
  onFault _ _ _ hs := hs

theorem cmdPortUnfence_keepsMem : cmdPortUnfence.KeepsMem where
  run _ _ _ hs := ite_snd_memWf hs (waitJoin_memWf (portReset_memWf (modPort_memWf hs)))
  onFault _ _ _ hs := hs

theorem countFec_memWf {p : Fin 9} (hs : s.memWf) : (countFec s p).memWf := ite_memWf (modPort_memWf (drawFree_memWf hs)) hs

theorem countAllFec_memWf (hs : s.memWf) : (countAllFec s).memWf := foldl_memWf hs fun _ _ => countFec_memWf

theorem cmdFabricStatus_keepsMem : cmdFabricStatus.KeepsMem where
  run _ _ s hs := by
    have h1 := countAllFec_memWf hs
    simp only [cmdFabricStatus]
    generalize countAllFec s = s at h1
    exact writeBuf_memWf h1
  onFault _ _ _ hs := hs

/-! ### Scrub -/

theorem reservedLoss_memWf {sec : Nat} (hs : s.memWf) : (reservedLoss sec s).memWf := by
  simp only [reservedLoss]
  refine ite_memWf hs (ite_memWf (ite_memWf hs (logErr_memWf (hs.with_ram rfl))) ?_)
  exact ite_memWf ((drawFree_memWf hs).with_ram rfl) (logErr_memWf (drawFree_memWf hs))

theorem scrubNext_memWf {k : Fin 8} (hs : s.memWf) : (scrubNext k s).memWf :=
  ite_memWf (modStack_memWf (drawFree_memWf hs)) (modStack_memWf hs)

theorem scrubRead_memWf {k : Fin 8} {ecc : Ecc} (hs : s.memWf) : (scrubRead k ecc s).memWf :=
  ite_memWf hs (keep_ite (scrubNext_memWf hs) fun h => ite_memWf (repairStart_memWf h) (ite_keep (eccRead_memWf h) reservedLoss_memWf))

theorem scrubSlotEnd_memWf (hs : s.memWf) : (scrubSlotEnd s).memWf := by
  simp only [scrubSlotEnd]
  split
  · exact hs
  · exact ite_memWf hs ((foldl_memWf hs fun _ _ h => ite_memWf (logErr_memWf (modStack_memWf h)) h).same rfl)

theorem scrubSlotBegin_memWf (hs : s.memWf) : (scrubSlotBegin s).memWf := by
  simp only [scrubSlotBegin]
  split
  · exact hs
  · exact hs.same rfl

theorem scrubCheck_memWf (hs : s.memWf) : (scrubCheck s).memWf := by
  simp only [scrubCheck]
  split
  · exact hs
  · exact ite_memWf hs (hs.same rfl)

theorem cmdScrubSlot_keepsMem : cmdScrubSlot.KeepsMem where
  run _ _ _ hs := by
    simp only [cmdScrubSlot]
    refine ite_snd_memWf hs ?_
    generalize e1 : schedule _ _ = p1
    have h1 : p1.2.memWf := e1 ▸ schedule_memWf hs
    split
    · exact h1
    · exact h1.same rfl
  onFault _ _ _ hs := hs

/-! ### Control -/

theorem cmdGaugeConfig_keepsMem : cmdGaugeConfig.KeepsMem where
  run _ _ _ hs := ite_snd_memWf hs (hs.same rfl)
  onFault _ _ _ hs := hs

theorem cmdGaugeRebase_keepsMem : cmdGaugeRebase.KeepsMem where
  run _ _ _ hs := (ite_keep (cancelSchedule_memWf hs) abandonWindow_memWf).same rfl
  onFault _ _ _ hs := hs

theorem cmdSchedRead_keepsMem : cmdSchedRead.KeepsMem where
  run _ _ _ hs := writeBuf_memWf hs
  onFault _ _ _ hs := hs

theorem schedRemove_memWf {i : Nat} {x : SchedEntry} (hs : s.memWf) : (schedRemove i x s).memWf :=
  foldl_memWf (hs.same rfl) fun _ _ => abandonOwner_memWf

theorem cmdSchedCancel_keepsMem : cmdSchedCancel.KeepsMem where
  run _ _ _ hs := by
    simp only [cmdSchedCancel]
    split
    · exact ite_snd_memWf (schedRemove_memWf hs) hs
    · exact hs
  onFault _ _ _ hs := hs

theorem cmdTensionSlot_keepsMem : cmdTensionSlot.KeepsMem where
  run _ _ _ hs := schedule_memWf hs
  onFault _ _ _ hs := hs

theorem cmdPowerCap_keepsMem : cmdPowerCap.KeepsMem where
  run _ _ _ hs := ite_snd_memWf (setHostCap_memWf hs) (setHostCap_memWf hs)
  onFault _ _ _ hs := hs

theorem monPage_memWf : ∀ {ms : List (Fin 88)} {s : State}, s.memWf → (monPage ms s).2.memWf
  | [], _, hs => hs
  | _ :: ms, _, hs => monPage_memWf (ms := ms) (drawFree_memWf hs)

theorem hottestResult_memWf (hs : s.memWf) : (hottestResult s).2.memWf := by
  simp only [hottestResult]
  split
  · exact hs
  · exact drawFree_memWf hs

theorem cmdMonRead_keepsMem : cmdMonRead.KeepsMem where
  run _ _ _ hs := by
    simp only [cmdMonRead]
    exact writeBuf_memWf (hottestResult_memWf (monPage_memWf hs))
  onFault _ _ _ hs := hs

theorem cmdThermLimit_keepsMem : cmdThermLimit.KeepsMem where
  run _ _ _ hs := modMonitor_memWf hs
  onFault _ _ _ hs := hs

theorem newestIndex_memWf (hs : s.memWf) : (newestIndex s).2.memWf := by
  simp only [newestIndex]
  split
  · exact hs
  · exact drawFree_memWf hs

theorem cmdLogRead_keepsMem : cmdLogRead.KeepsMem where
  run _ _ _ hs := writeBuf_memWf (newestIndex_memWf hs)
  onFault _ _ _ hs := hs

theorem cmdLogMirrorSet_keepsMem : cmdLogMirrorSet.KeepsMem where
  run _ _ _ hs := hs.same rfl
  onFault _ _ _ hs := hs

theorem auditEnd_memWf {c : Check} {qp cid : Nat} (hs : s.memWf) : (auditEnd c qp cid s).memWf := by
  simp only [auditEnd]
  split
  · exact complete_memWf (writeBuf_memWf (foldl_memWf (hs.same rfl) fun _ _ => raiseAlarm_memWf))
  · exact foldl_memWf (hs.same rfl) fun _ _ => raiseAlarm_memWf

theorem cmdTallyAudit_keepsMem : cmdTallyAudit.KeepsMem where
  run _ _ _ hs := ite_snd_memWf hs (checkBegin_memWf hs)
  onFault _ _ _ hs := hs

theorem cmdTallyRead_keepsMem : cmdTallyRead.KeepsMem where
  run _ _ _ hs := by
    simp only [cmdTallyRead]
    split
    · exact writeBuf_memWf hs
    · exact hs
  onFault _ _ _ hs := hs

theorem cmdWarmReset_keepsMem : cmdWarmReset.KeepsMem where
  run _ _ _ hs := hs.same rfl
  onFault _ _ _ hs := hs

theorem modBind_memWf {f : BindOff → BindOff} (hs : s.memWf) : (modBind f s).memWf := hs.same rfl

theorem bindCount_memWf (hs : s.memWf) : (bindCount s).memWf := by
  simp only [bindCount]
  split
  · exact hs
  · exact modBind_memWf hs

theorem bindWrite_memWf {x : Nat × Nat × DirEntry} (hs : s.memWf) : (bindWrite s x).memWf :=
  ite_memWf (ite_memWf hs (modBind_memWf (logErr_memWf hs))) (ite_memWf hs (modBind_memWf (wbStart_memWf hs)))

theorem bindFinish_memWf {o : BindOff} (hs : s.memWf) : (bindFinish o s).memWf :=
  complete_memWf (drawFree_memWf (State.memWf.with_rst (foldl_memWf hs fun _ _ h => ite_memWf (modPort_memWf (sendLeave_memWf h)) h)))

theorem bindRun_memWf : ∀ {fuel : Nat} {s : State}, s.memWf → (bindRun fuel s).memWf
  | 0, _, hs => hs
  | fuel + 1, s, hs => by
    simp only [bindRun]
    split
    · exact hs
    · refine ite_memWf (ite_memWf hs (ite_memWf (complete_memWf hs.with_rst) (bindRun_memWf (modCmd_memWf (modBind_memWf hs))))) ?_
      have h2 : State.memWf ((dirtyBlocks (bindCount s)).foldl bindWrite (bindCount s)) :=
        foldl_memWf (bindCount_memWf hs) fun _ _ => bindWrite_memWf
      refine ite_memWf (ite_memWf h2 ?_) (ite_memWf (ite_memWf hs ?_) (ite_memWf hs (bindFinish_memWf hs)))
      · refine bindRun_memWf (modBind_memWf (foldl_memWf h2 fun _ _ h => ?_))
        exact ite_keep h nvmeIssue_memWf
      · exact bindRun_memWf (modBind_memWf (ite_memWf hs (writeStepRecord_memWf hs)))

theorem cmdBindOff_keepsMem : cmdBindOff.KeepsMem where
  run _ _ _ hs := ite_snd_memWf hs (ite_snd_memWf (hs.same rfl) (hs.same rfl))
  onFault _ _ _ hs := hs

/-! ### Registers -/

theorem Reg.onRead_memWf {r : Reg} (hs : s.memWf) : (Reg.onRead r s).memWf := by
  simp only [Reg.onRead]
  split
  · exact hs.same rfl
  · exact hs.same rfl
  · exact hs.same rfl
  · exact hs.same rfl
  · exact hs.same rfl
  · exact clearMemCount_memWf hs
  · exact clearMemStack_memWf hs
  · exact clearRepaired_memWf hs
  · exact hs.same rfl
  · exact drawFree_memWf hs
  · exact drawFree_memWf hs
  · exact clearHighWater_memWf hs
  · exact clearSqCount_memWf hs
  · exact hs

theorem writeMsix_memWf {v : Fin 128} {w : Fin 4} {x : Nat} (hs : s.memWf) : (writeMsix v w x s).memWf := sendPending_memWf (hs.same rfl)

theorem Reg.write_memWf {r : Reg} {v : Nat} (hs : s.memWf) : (Reg.write r v s).memWf := by
  simp only [Reg.write]
  split
  · exact hs.same rfl
  · exact writeCtrl_memWf hs
  · exact hs.same rfl
  · exact hs.same rfl
  · exact doorbell_memWf hs
  · exact doorbell_memWf hs
  · exact hs.same rfl
  · exact hs.same rfl
  · exact writeMemSel_memWf hs
  · exact hs.same rfl
  · exact hs.same rfl
  · exact hs.same rfl
  · exact writeFrHead_memWf hs
  · exact writeSqSel_memWf hs
  · exact writeMsix_memWf hs
  · exact hs

theorem read4_memWf {off : Nat} (hs : s.memWf) : (read4 off s).2.memWf := by
  simp only [read4]
  split
  · exact hs
  · exact ite_snd_memWf ((Reg.onRead_memWf hs).same rfl) (Reg.onRead_memWf hs)
  · split
    · exact hs.same rfl
    · exact hs

theorem read8_memWf {off : Nat} (hs : s.memWf) : (read8 off s).2.memWf := by
  simp only [read8]
  split
  · exact ite_snd_memWf (Reg.onRead_memWf hs) (read4_memWf (read4_memWf hs))
  · exact read4_memWf hs

theorem write4_memWf {off v : Nat} (hs : s.memWf) : (write4 off v s).memWf := by
  simp only [write4]
  split
  · exact violation_memWf hs
  · exact ite_memWf (hs.same rfl) (Reg.write_memWf hs)
  · exact Reg.write_memWf (hs.same rfl)

theorem write8_memWf {off v : Nat} (hs : s.memWf) : (write8 off v s).memWf := by
  simp only [write8]
  split
  · exact ite_memWf (Reg.write_memWf (hs.same rfl)) (write4_memWf (write4_memWf hs))
  · split
    · exact write4_memWf (violation_memWf hs)
    · exact violation_memWf hs

theorem barRead_memWf {off size : Nat} (hs : s.memWf) : (barRead off size s).memWf :=
  ite_memWf (emit_memWf hs) (ite_memWf (emit_memWf (violation_memWf hs)) (ite_memWf (emit_memWf (read4_memWf hs)) (ite_memWf (emit_memWf
      (read8_memWf hs)) (emit_memWf (violation_memWf hs)))))

theorem barWrite_memWf {off size v : Nat} (hs : s.memWf) : (barWrite off size v s).memWf :=
  ite_memWf hs (ite_memWf (violation_memWf hs) (ite_memWf (write4_memWf hs) (ite_memWf (write8_memWf hs) (violation_memWf hs))))

theorem partRead_memWf {off : Nat} {p : RegPart} (hs : s.memWf) : (partRead off p s).memWf := by
  simp only [partRead]
  split <;> exact barRead_memWf hs

theorem partWrite_memWf {off : Nat} {p : RegPart} {v : W64} (hs : s.memWf) : (partWrite off p v s).memWf := by
  simp only [partWrite]
  split <;> exact barWrite_memWf hs

theorem unmask_memWf {v : Option (Fin 128)} (hs : s.memWf) : (unmask v s).memWf := by
  simp only [unmask]
  split
  · exact writeMsix_memWf hs
  · exact sendAllPending_memWf (hs.same rfl)

/-! ### HostLink -/

theorem apOwnLog_memWf {tag va : Nat} {wr : Bool} (hs : s.memWf) : (apOwnLog tag va wr s).memWf := by
  simp only [apOwnLog]
  split
  · exact logErr_memWf hs
  · exact logErr_memWf hs
  · exact logErr_memWf hs
  · exact hs

theorem apRefuse_memWf {k : Fin 8} {cause va : Nat} {piece : Option Nat} {wr : Bool} (hs : s.memWf) :
    (apRefuse k cause va piece wr s).memWf := by
  simp only [apRefuse]
  split
  · exact apOwnLog_memWf (violation_memWf (hs.same rfl))
  · exact violation_memWf (hs.same rfl)

theorem apTouch_memWf {x : Slice} {va n : Nat} {wr : Bool} (hs : s.memWf) : (apTouch x va n wr s).memWf :=
  foldl_memWf hs fun _ _ => xlateOne_memWf

theorem bar2Read_memWf {off n : Nat} {ecc : Ecc} (hs : s.memWf) : (bar2Read off n ecc s).memWf := by
  simp only [bar2Read]
  refine ite_memWf hs (ite_memWf (emit_memWf hs) (ite_memWf (emit_memWf (violation_memWf hs)) ?_))
  split
  · exact emit_memWf (apRefuse_memWf hs)
  · refine emit_memWf (ite_keep ?_ logErr_memWf)
    split
    · exact eccRead_memWf (apTouch_memWf hs)
    · exact apTouch_memWf hs

theorem bar2Write_memWf {off : Nat} {data : List (Option Byte)} (hs : s.memWf) : (bar2Write off data s).memWf := by
  simp only [bar2Write]
  refine ite_memWf hs ?_
  refine ite_memWf (violation_memWf hs) ?_
  split
  · exact apRefuse_memWf hs
  · exact ite_memWf (logErr_memWf (apTouch_memWf hs)) (foldl_memWf (apTouch_memWf hs) fun _ _ => t1Store_memWf)

theorem tlpViolation_memWf {kind : TlpKind} {addr : W64} (hs : s.memWf) : (tlpViolation kind addr s).memWf := by
  simp only [tlpViolation]
  refine ite_memWf hs ?_
  split
  · exact violation_memWf hs
  · exact emit_memWf (violation_memWf hs)
  · exact violation_memWf hs

theorem readRefused_memWf {r : RefusedRead} (hs : s.memWf) : (readRefused r s).memWf := by
  simp only [readRefused]
  split
  · exact ite_memWf (quarantine_memWf (violation_memWf hs)) hs
  · split
    · exact ite_memWf (faultInFail_memWf (logReadRefused_memWf hs)) hs
    · exact hs
  · exact ite_keep hs logReadRefused_memWf

theorem d3Enter_memWf (hs : s.memWf) : (d3Enter s).memWf := ite_memWf (hs.same rfl) hs

theorem d0Return_memWf (hs : s.memWf) : (d0Return s).memWf := ite_memWf (releaseHeld_memWf (hs.same rfl)) hs

theorem bmeClear_memWf (hs : s.memWf) : (bmeClear s).memWf := hs.same rfl

theorem bmeSet_memWf (hs : s.memWf) : (bmeSet s).memWf := ite_memWf (releaseHeld_memWf (hs.same rfl)) hs

theorem rateGts_memWf {code : Nat} (hs : s.memWf) : (rateGts code s).2.memWf := ite_snd_memWf (drawFree_memWf hs) hs

theorem linkTrained_memWf {width rate : Nat} {flit cxl : Bool} (hs : s.memWf) : (linkTrained width rate flit cxl s).memWf :=
  ite_memWf hs (releaseHeld_memWf (ite_keep (ite_keep (rateGts_memWf (hs.same rfl)) logErr_memWf) logErr_memWf))

/-! ### Schedule -/

theorem noteLate_memWf {e : SchedEntry} {late : Bool} (hs : s.memWf) : (noteLate e late s).memWf := by
  simp only [noteLate]
  split
  · exact modCmd_memWf hs
  · exact hs

theorem runOwner_memWf {e : SchedEntry} {run : Fin 64 → Entry → State → CmdEnd × State} (hs : s.memWf)
    (hf : ∀ x0 x1 s, s.memWf → (run x0 x1 s).2.memWf) : (runOwner e run s).memWf := by
  simp only [runOwner]
  split
  · exact settleCmd_memWf (hf _ _ _ hs)
  · exact hs

theorem fireSimple_memWf {e : SchedEntry} {f : State → State} (hs : s.memWf) (hf : ∀ s, s.memWf → (f s).memWf) :
    (fireSimple e f s).memWf := by
  simp only [fireSimple]
  split
  · exact settleCmd_memWf (hf _ hs)
  · exact hf _ hs

theorem fireWindowDeadline_memWf {e : SchedEntry} (hs : s.memWf) : (fireWindowDeadline e s).memWf := ite_keep hs abandonWindow_memWf

theorem fireConfirmDeadline_memWf {e : SchedEntry} (hs : s.memWf) : (fireConfirmDeadline e s).memWf :=
  ite_memWf (logErr_memWf (abandonWindow_memWf hs)) hs

theorem refreshNamed_memWf {e : SchedEntry} (hs : s.memWf) : (refreshNamed e s).memWf := refreshHot_memWf hs

theorem fireEntry_memWf {e : SchedEntry} {late : Bool} (hs : s.memWf) : (fireEntry e late s).memWf := by
  simp only [fireEntry]
  split
  · exact runOwner_memWf (noteLate_memWf hs) fun _ _ _ => confirmDue_memWf
  · exact fireWindowDeadline_memWf (noteLate_memWf hs)
  · exact fireConfirmDeadline_memWf (noteLate_memWf hs)
  · exact runOwner_memWf (noteLate_memWf hs) fun _ _ _ => closeEffect_memWf
  · exact modStep_memWf (noteLate_memWf hs)
  · exact runOwner_memWf (noteLate_memWf hs) fun _ _ _ => openEffect_memWf
  · exact runOwner_memWf (noteLate_memWf hs) fun _ _ _ => specOpenEffect_memWf
  · exact ite_memWf (runOwner_memWf (noteLate_memWf hs) fun _ _ _ => prefetchStart_memWf) (fireSimple_memWf (noteLate_memWf hs) fun _ =>
        refreshNamed_memWf)
  · exact fireSimple_memWf (noteLate_memWf hs) fun _ => scrubSlotBegin_memWf
  · exact fireSimple_memWf (noteLate_memWf hs) fun _ => tensionFires_memWf
  · split
    · exact activate_memWf (noteLate_memWf hs)
    · exact noteLate_memWf hs
  · exact noteLate_memWf hs

theorem noteWait_memWf {e : SchedEntry} (hs : s.memWf) : (noteWait e s).memWf := by
  simp only [noteWait]
  split
  · exact modCmd_memWf hs
  · exact hs

theorem atMark_memWf {kind i : Nat} (hs : s.memWf) : (atMark kind i s).memWf := by
  simp only [atMark]
  split
  · trivial
  · split
    · trivial
    · split
      · exact deferEntry_memWf (reachMark_memWf hs)
      · split
        · exact deferEntry_memWf (reachMark_memWf hs)
        · exact consume_memWf (reachMark_memWf hs)

theorem markRow_memWf {kind : Nat} {i : Fin 256} (hs : s.memWf) : (markRow kind i s).memWf := by
  simp only [markRow]
  split
  · exact hs
  · generalize e1 : atMark _ _ _ = p1
    have h1 : p1.memWf := e1 ▸ atMark_memWf hs
    split
    · exact hs
    · split
      · exact noteWait_memWf h1
      · exact h1
    · exact fireEntry_memWf h1

theorem runLate_memWf {x : Nat × SchedEntry} (hs : s.memWf) : (runLate s x).memWf := by
  simp only [runLate]
  split
  · exact fireEntry_memWf (consumeLate_memWf hs)
  · exact hs

theorem resumeMark_memWf (hs : s.memWf) : (resumeMark s).memWf := by
  simp only [resumeMark]
  split
  · exact hs
  · exact ite_memWf hs (foldl_memWf (hs.same rfl) fun _ _ => runLate_memWf)

theorem runJumped_memWf {x : Nat × SchedEntry} (hs : s.memWf) : (runJumped s x).memWf := by
  simp only [runJumped]
  split
  · exact hs
  · exact ite_memWf (noteWait_memWf (deferEntry_memWf hs)) (runLate_memWf (logErr_memWf hs))

theorem gwordFrame_memWf {frame : BitVec 80} {since : W64} {off : Int} (hs : s.memWf) : (gwordFrame frame since off s).memWf :=
  gaugeEdge_memWf hs

theorem gaugeLock_memWf (hs : s.memWf) : (gaugeLock s).memWf := by
  simp only [gaugeLock]
  refine ite_memWf hs ?_
  split
  · exact hs
  · exact keep_ite (setGState_memWf (hs.same rfl)) fun h => foldl_memWf h fun _ _ => runJumped_memWf

theorem missingEdge_memWf {i : Fin 2} (hs : s.memWf) : (missingEdge i s).memWf :=
  ite_memWf hs (ite_memWf (misbehave_memWf hs) (ite_memWf (hs.same rfl) hs))

theorem localBeatRow_memWf (hs : s.memWf) : (localBeatRow s).memWf := ite_keep hs localBeat_memWf

theorem holdover1000_memWf (hs : s.memWf) : (holdover1000 s).memWf :=
  ite_memWf hs (keep_ite (ite_keep hs setGState_memWf) fun h => foldl_memWf h fun _ _ h => abandonOwner_memWf
      ((ite_keep h abandonWindow_memWf).same rfl))

/-! ### Reset -/

theorem modRst_memWf {f : ResetUnit → ResetUnit} (hs : s.memWf) : (modRst f s).memWf := hs.same rfl

theorem configReset_memWf (hs : s.memWf) : (configReset s).memWf := hs.same rfl

theorem dropHost_memWf (hs : s.memWf) : (dropHost s).memWf := hs.same rfl

theorem linkDrop_memWf (hs : s.memWf) : (linkDrop s).memWf := hs.same rfl

theorem coldState_memWf {kind : ResetKind} {phase : Phase} (hs : s.memWf) : (coldState kind phase s).memWf := by
  refine ⟨hs.host, wf_nil, fun t => ?_, fun p => ?_⟩
  · exact resetMemoriesCanonical.staging t
  · simpa only [coldState, Fin.getElem_fin, Vector.getElem_map, driveOnly] using hs.drives p

theorem coldReset_memWf {kind : ResetKind} (hs : s.memWf) : (coldReset kind s).memWf := (coldState_memWf hs).with_pins

theorem powerOff_memWf (hs : s.memWf) : (powerOff s).memWf := (coldState_memWf hs).with_pins

theorem powerGood_memWf (hs : s.memWf) : (powerGood s).memWf := ite_memWf hs (modRst_memWf (coldReset_memWf hs)).with_pins

theorem inputExcursion_memWf {mv : BitVec 32} (hs : s.memWf) : (inputExcursion mv s).memWf := ite_keep hs powerOff_memWf

theorem railExcursion_memWf {i : Fin 24} {mv : BitVec 32} (hs : s.memWf) : (railExcursion i mv s).memWf := ite_keep hs powerOff_memWf

theorem auxRemoved_memWf (hs : s.memWf) : (auxRemoved s).memWf := hs.same rfl

theorem coldTrigger_memWf {kind : ResetKind} (hs : s.memWf) : (coldTrigger kind s).memWf := keep_ite hs coldReset_memWf

theorem quiesceStart_memWf {kind : ResetKind} (hs : s.memWf) : (quiesceStart kind s).memWf := modRst_memWf hs

theorem warmTrigger_memWf {kind : ResetKind} {drop : Bool} (hs : s.memWf) : (warmTrigger kind drop s).memWf :=
  ite_memWf hs (keep_ite (ite_keep hs dropHost_memWf) fun h => quiesceStart_memWf (h.same rfl))

theorem modResetAssert_memWf (hs : s.memWf) : (modResetAssert s).memWf := coldTrigger_memWf (hs.same rfl)

theorem modResetDeassert_memWf (hs : s.memWf) : (modResetDeassert s).memWf := hs.same rfl

theorem warmResetAssert_memWf (hs : s.memWf) : (warmResetAssert s).memWf := warmTrigger_memWf (hs.same rfl)

theorem warmResetDeassert_memWf (hs : s.memWf) : (warmResetDeassert s).memWf := hs.same rfl

theorem perstAssert_memWf (hs : s.memWf) : (perstAssert s).memWf := warmTrigger_memWf (configReset_memWf (linkDrop_memWf (hs.same rfl)))

theorem linkStart_memWf (hs : s.memWf) : (linkStart s).memWf := ite_keep hs emit_memWf

theorem perstDeassert_memWf (hs : s.memWf) : (perstDeassert s).memWf := linkStart_memWf (hs.same rfl)

theorem flrReset_memWf (hs : s.memWf) : (flrReset s).memWf := ite_memWf (warmTrigger_memWf (configReset_memWf hs)) hs

theorem cancelFaultIns_memWf (hs : s.memWf) : (cancelFaultIns s).memWf := by
  simp only [cancelFaultIns]
  refine modRes_memWf (foldl_memWf hs fun _ _ h => blockMod_memWf ?_) rfl
  split
  · exact modRes_memWf h rfl
  · exact h

theorem cancelTransfers_memWf (hs : s.memWf) : (cancelTransfers s).memWf := by
  have h1 : State.memWf (s.res.writeBacks.foldl (fun s w => wbCancel w.table w.blk s) (cancelFaultIns s)) :=
    foldl_memWf (cancelFaultIns_memWf hs) fun _ _ => wbCancel_memWf
  refine h1.with_drives (fun p => ?_) rfl
  simpa only [cancelTransfers, modRes, Fin.getElem_fin, Vector.getElem_map] using h1.drives p

theorem txReset_memWf (hs : s.memWf) : (txReset s).memWf := modTx_memWf hs

theorem endLaunches_memWf (hs : s.memWf) : (endLaunches s).memWf := modRst_memWf (modTh_memWf (foldl_memWf hs fun _ _ => modCmd_memWf))

theorem endTiles_memWf (hs : s.memWf) : (endTiles s).memWf :=
  modTbl_memWf (modPurl_memWf (hs.with_staging resetMemoriesCanonical.staging rfl))

theorem stepsReset_memWf {held : Nat} (hs : s.memWf) : (stepsReset held s).memWf := (modStp_memWf hs).same rfl

theorem fabricReset_memWf (hs : s.memWf) : (fabricReset s).memWf := by
  simp only [fabricReset]
  refine modFab_memWf (modPurl_memWf (foldl_memWf (foldl_memWf hs fun _ _ h => ?_) fun _ _ h => ?_))
  · exact dropArrivals_memWf h
  · exact modCount_memWf h

theorem mailboxReset_memWf (hs : s.memWf) : (mailboxReset s).memWf := (hs.same rfl).same rfl

theorem trialReset_memWf (hs : s.memWf) : (trialReset s).memWf := modFw_memWf (ite_memWf (ite_keep (trialFail_memWf hs) modRst_memWf) hs)

theorem quiesceDrain_memWf (hs : s.memWf) : (quiesceDrain s).memWf := foldl_memWf (hs.same rfl) fun _ _ => drainPurl_memWf

theorem quiesceComplete_memWf {ns : W32} (hs : s.memWf) : (quiesceComplete ns s).memWf := by
  have h1 := powerReset_memWf (cold := false) (sqFlushAll_memWf (mailboxReset_memWf (trialReset_memWf (fabricReset_memWf
    (stepsReset_memWf (held := (s.tl.hooks.filter (fun x => x.spec)).length) (txReset_memWf
      (cancelTransfers_memWf (endTiles_memWf (endLaunches_memWf (quiesceDrain_memWf hs))))))))))
  simp only [quiesceComplete]
  refine ite_memWf hs (ite_memWf hs ?_)
  generalize powerReset _ _ = t at h1 ⊢
  exact modRst_memWf (h1.same rfl)

theorem quiesceTimeout_memWf {ns : W32} (hs : s.memWf) : (quiesceTimeout ns s).memWf := ite_memWf hs (coldReset_memWf (logErr_memWf hs))

theorem trialExpiry_memWf (hs : s.memWf) : (trialExpiry s).memWf :=
  ite_memWf (quiesceStart_memWf (ite_keep (modFw_memWf (trialFail_memWf hs)) modRst_memWf)) hs

/-! ### CastOn -/

theorem stageFail_memWf {code : Nat} (hs : s.memWf) : (stageFail code s).memWf := logErr_memWf (modRst_memWf hs)

theorem recoveryEnter_memWf {code : Nat} (hs : s.memWf) : (recoveryEnter code s).memWf := modRst_memWf hs

theorem markDamage_memWf {b : BootReport} (hs : s.memWf) : (markDamage b s).memWf := modFw_memWf hs

theorem bootCold_memWf {b : BootReport} (hs : s.memWf) : (bootCold b s).memWf := by
  simp only [bootCold]
  refine ite_memWf (stageFail_memWf hs) ?_
  refine ite_memWf (recoveryEnter_memWf (modFw_memWf (markDamage_memWf (hs.same rfl)))) ?_
  refine ite_memWf (recoveryEnter_memWf (modFw_memWf (markDamage_memWf (hs.same rfl)))) ?_
  generalize e1 : bootOrder _ = p1
  have h1 : p1.2.memWf := e1 ▸ bootOrder_memWf (modFw_memWf (markDamage_memWf (hs.same rfl)))
  split
  · exact recoveryEnter_memWf h1
  · exact recoveryEnter_memWf h1
  · exact h1

theorem castOnS1_memWf {b : BootReport} (hs : s.memWf) : (castOnS1 b s).memWf :=
  ite_memWf hs (keep_ite (linkStart_memWf (modRst_memWf hs)) bootCold_memWf)

theorem castOnS2_memWf (hs : s.memWf) : (castOnS2 s).memWf := by
  simp only [castOnS2]
  refine ite_memWf hs ?_
  split
  · exact modFw_memWf (modRst_memWf hs)
  · exact recoveryEnter_memWf (modRst_memWf hs)

theorem excludeStack_memWf {m : BitVec 8} {k : Nat} (hs : s.memWf) : (excludeStack m s k).memWf := keep_ite hs logErr_memWf

theorem initDrives_memWf {h : HardwareReport} (hs : s.memWf) : (initDrives h s).memWf :=
  initDrive_memWf (initDrive_memWf (initDrive_memWf (initDrive_memWf hs)))

theorem trainCold_memWf {h : HardwareReport} (hs : s.memWf) : (trainCold h s).memWf :=
  ite_memWf (stageFail_memWf hs) (raise_memWf (modRst_memWf (initDrives_memWf (foldl_memWf ((drawFree_memWf hs).same rfl) fun _ _ =>
      excludeStack_memWf))))

theorem recount_memWf {which : Nat → Bool} (hs : s.memWf) : (recount which s).memWf :=
  modRst_memWf (foldl_memWf hs fun _ _ => raiseAlarm_memWf)

theorem journalReplay_memWf (hs : s.memWf) : (journalReplay s).memWf := by
  simp only [journalReplay]
  split
  · exact ite_memWf (modRst_memWf hs) (modRst_memWf hs)
  · exact hs

theorem trainWarm_memWf {h : HardwareReport} (hs : s.memWf) : (trainWarm h s).memWf :=
  recount_memWf (journalReplay_memWf (modRst_memWf (emptyWithdrawn_memWf (modTx_memWf (foldl_memWf (initDrives_memWf (modRst_memWf hs))
      fun _ _ => rereadPool_memWf)))))

theorem castOnS3_memWf {h : HardwareReport} (hs : s.memWf) : (castOnS3 h s).memWf :=
  ite_memWf hs (ite_memWf (trainWarm_memWf (modRst_memWf hs)) (trainCold_memWf (modRst_memWf hs)))

theorem castOnS4_memWf (hs : s.memWf) : (castOnS4 s).memWf := ite_memWf (releaseHeld_memWf (modRst_memWf hs)) hs

theorem abandonCmds_memWf {n : Fin 64} (hs : s.memWf) : (abandonCmds s n).memWf := foldl_memWf hs fun _ _ => complete_memWf

theorem applyEnable_memWf (hs : s.memWf) : (applyEnable s).memWf := ite_memWf (enableQp0_memWf hs) (ite_keep hs disableQp0_memWf)

theorem closeInterim_memWf (hs : s.memWf) : (closeInterim s).memWf := by
  simp only [closeInterim]
  refine ite_memWf hs ?_
  split
  · split
    · exact ite_memWf hs (post_memWf (modCmd_memWf hs))
    · exact hs
  · exact hs

theorem logFallback_memWf (hs : s.memWf) : (logFallback s).memWf := by
  simp only [logFallback]
  split
  · exact raise_memWf (logErr_memWf (modFw_memWf hs))
  · exact hs

theorem finishClose_memWf (hs : s.memWf) : (finishClose s).memWf := by
  simp only [finishClose]
  split
  · exact closeStage7_memWf hs
  · exact hs

theorem castOnS5_memWf (hs : s.memWf) : (castOnS5 s).memWf :=
  ite_memWf hs (finishClose_memWf (logFallback_memWf (standaloneCheck_memWf (closeInterim_memWf (releaseDoorbells_memWf (applyEnable_memWf
      (ite_keep (modRst_memWf hs) fun h => foldl_memWf h fun _ _ => abandonCmds_memWf)))))))

theorem portStart_memWf {p : Fin 9} (hs : s.memWf) : (portStart s p).memWf := ite_keep hs modPort_memWf

theorem castOnS7_memWf (hs : s.memWf) : (castOnS7 s).memWf :=
  ite_memWf (foldl_memWf (grantAtS7_memWf (modRst_memWf hs)) fun _ _ => portStart_memWf) hs

theorem stageTime_memWf (hs : s.memWf) : (stageTime s).memWf := ite_keep hs stageFail_memWf

theorem closeResume_memWf (hs : s.memWf) : (closeResume s).memWf := by
  simp only [closeResume]
  split
  · exact ite_memWf (stageBegin_memWf (modRst_memWf hs)) hs
  · exact hs

theorem recountCheck_memWf (hs : s.memWf) : (recountCheck s).memWf := ite_memWf (raise_memWf (modRst_memWf (recount_memWf hs))) hs

/-! ### Settle -/

theorem portFatal_memWf {p : Fin 9} (hs : s.memWf) : (portFatal s p).memWf :=
  ite_memWf hs (modPort_memWf (dropArrivals_memWf (sendLeave_memWf hs)))

theorem fatalEnter_memWf (hs : s.memWf) : (fatalEnter s).memWf :=
  foldl_memWf (withLadder_memWf hs fun _ h => modPm_memWf (h.same rfl)) fun _ _ => portFatal_memWf

theorem damageSteps_memWf (hs : s.memWf) : (damageSteps s).memWf := modStp_memWf hs

theorem containOne_memWf {c : Containment} (hs : s.memWf) : (containOne s c).memWf := by
  simp only [containOne]
  refine ite_memWf (keep_ite hs fatalEnter_memWf) ?_
  split
  · exact ite_keep hs tileReset_memWf
  · exact ite_keep hs portReset_memWf
  · exact ite_keep hs fenceDrive_memWf
  · exact quarantine_memWf hs
  · exact ite_keep hs damageSteps_memWf
  · exact hs

theorem contain_memWf (hs : s.memWf) : (contain s).memWf := foldl_memWf (hs.same rfl) fun _ _ => containOne_memWf

theorem clearedSectors_memWf (hs : s.memWf) : (clearedSectors s).memWf :=
  ite_memWf hs (releaseCleared_memWf (foldl_memWf hs fun _ _ => releaseStalls_memWf))

theorem wakeThread_memWf {x : Nat × Thread} (hs : s.memWf) : (wakeThread s x).memWf := by
  simp only [wakeThread]
  split
  · exact hs
  · split
    · exact threadFault_memWf hs
    · exact ite_memWf (reissue_memWf (modThread_memWf hs)) hs
    · exact ite_memWf (reissue_memWf (modThread_memWf hs)) hs
    · exact hs

theorem releaseThread_memWf {x : Nat × Thread} (hs : s.memWf) : (releaseThread s x).memWf := by
  simp only [releaseThread]
  split
  · exact hs
  · exact ite_memWf (pruneFaults_memWf (modTx_memWf (foldl_memWf (freeContext_memWf hs) fun _ _ => dropRetained_memWf))) hs

theorem threadsOn_memWf (hs : s.memWf) : (threadsOn s).memWf :=
  ite_memWf hs (foldl_memWf (foldl_memWf (foldl_memWf hs fun _ _ => wakeThread_memWf) fun _ _ => releaseThread_memWf) fun _ _ =>
      launchEnd_memWf)

theorem unassignedFront_memWf {n : Fin 64} (hs : s.memWf) : (unassignedFront s n).memWf := by
  simp only [unassignedFront]
  split
  · exact ite_keep hs complete_memWf
  · exact hs

theorem hotProgress_memWf {n : Fin 64} {c : Cmd} (hs : s.memWf) : (hotProgress n c s).memWf := by
  simp only [hotProgress]
  split
  · exact settleCmd_memWf (hotLoadOn_memWf hs)
  · exact settleCmd_memWf (dropHotSet_memWf hs)
  · exact hs

theorem replicaProgress_memWf {n : Fin 64} {c : Cmd} (hs : s.memWf) : (replicaProgress n c s).memWf := by
  simp only [replicaProgress]
  split
  · exact settleCmd_memWf (replicaOn_memWf hs)
  · split
    · exact settleCmd_memWf (modTbl_memWf hs)
    · exact hs
  · exact hs

theorem launchProgress_memWf {n : Fin 64} {c : Cmd} (hs : s.memWf) : (launchProgress n c s).memWf := by
  simp only [launchProgress]
  refine ite_memWf hs ?_
  split
  · exact settleCmd_memWf (launchOn_memWf hs)
  · exact settleCmd_memWf hs
  · exact hs

theorem progressCmd_memWf {n : Fin 64} {c0 : Cmd} (hs : s.memWf) : (progressCmd n s c0).memWf := by
  simp only [progressCmd]
  split
  · exact hs
  · refine ite_memWf hs (ite_memWf (ite_keep hs hotProgress_memWf) (ite_memWf (ite_keep hs replicaProgress_memWf) (ite_memWf ?_
      (ite_memWf (launchProgress_memWf hs) (ite_memWf (ite_keep hs fun h => ?_) (ite_memWf (ite_keep hs fun h => ?_)
      (ite_memWf (ite_keep hs fun h => ?_) hs)))))))
    · exact ite_keep hs fun h => settleCmd_memWf (prefetchOn_memWf h)
    · exact settleCmd_memWf (cmdInvalRange_keepsMem.run _ _ _ h)
    · exact settleCmd_memWf (cmdTallyAudit_keepsMem.run _ _ _ h)
    · exact settleCmd_memWf h

theorem progressClass_memWf {k : Nat} (hs : s.memWf) : (progressClass s k).memWf :=
  foldl_memWf hs fun _ _ h => ite_memWf (foldl_memWf h fun _ _ => progressCmd_memWf) h

theorem commandsOn_memWf (hs : s.memWf) : (commandsOn s).memWf :=
  ite_memWf hs (foldl_memWf (foldl_memWf hs fun _ _ => unassignedFront_memWf) fun _ _ => progressClass_memWf)

theorem checkEnd_memWf (hs : s.memWf) : (checkEnd s).memWf := by
  simp only [checkEnd]
  split
  · refine ite_memWf ?_ hs
    split
    · exact auditEnd_memWf hs
    · exact closeBalanced_memWf hs
  · exact hs

theorem warmCheck_memWf (hs : s.memWf) : (warmCheck s).memWf := by
  simp only [warmCheck]
  split
  · exact ite_keep hs warmTrigger_memWf
  · exact hs

theorem engineWork_memWf (hs : s.memWf) : (engineWork s).memWf :=
  ite_memWf hs (finishValidation_memWf (foldl_memWf (retryFaultIns_memWf (runServices_memWf (storeSlots_memWf (foldl_memWf hs fun _ _ =>
      rowAddResume_memWf)))) fun _ _ => refreshHot_memWf))

theorem firmwareWork_memWf (hs : s.memWf) : (firmwareWork s).memWf :=
  ite_memWf hs (bindRun_memWf (releaseLoads_memWf (invalsProgress_memWf (emptyWithdrawn_memWf (ite_keep hs drainProgress_memWf)))))

theorem holdCheck_memWf (hs : s.memWf) : (holdCheck s).memWf := ite_memWf (logFull_memWf (countViol_memWf (hs.same rfl))) hs

theorem settleRound_memWf (hs : s.memWf) : (settleRound s).memWf :=
  warmCheck_memWf (holdCheck_memWf (sensorCheck_memWf (scrubCheck_memWf (recountCheck_memWf (firmwareWork_memWf (checkEnd_memWf
      (commandsOn_memWf (engineWork_memWf (threadsOn_memWf (clearedSectors_memWf (contain_memWf hs)))))))))))

theorem settle_memWf (hs : s.memWf) : (settle s).memWf :=
  ite_memWf hs (keep_ite (settleRound_memWf hs) fun h => settleRound_memWf (settleRound_memWf h))

theorem closeRow_memWf {f : State → State} (hs : s.memWf) (hf : ∀ s, s.memWf → (f s).memWf) : (closeRow f s).memWf := ite_memWf (hf _ hs) hs

theorem controllerFatal_memWf {p : Fin 4} (hs : s.memWf) : (controllerFatal p s).memWf := ite_keep hs fenceDrive_memWf

theorem nvmeLinkDown_memWf {p : Fin 4} (hs : s.memWf) : (nvmeLinkDown p s).memWf := ite_keep hs fenceDrive_memWf

theorem d2dExhausted_memWf {link : Fin 4} (hs : s.memWf) : (d2dExhausted link s).memWf := logErr_memWf hs

theorem rateFlush_memWf {cause : Byte} {unit : BitVec 16} (hs : s.memWf) : (rateFlush cause unit s).memWf := by
  simp only [rateFlush]
  split
  · exact flushLimit_memWf hs
  · exact hs

theorem answerWith_memWf {f : State → SbReply} (hs : s.memWf) : (answerWith f s).memWf := sbAnswer_memWf hs

--@END total 1159 bad 40

end

end Sys2Proof.Machine

namespace Sys2Proof.Machine

open Sys2Proof

/-! ### Every step (O8) -/

section
variable {s : State}

/-- When a step answers a next state, its memories are canonical. -/
def NextWf (o : Host.Outcome State Fault Refusal) : Prop := ∀ t, o = .next t → t.memWf

theorem next_nextWf (hs : s.memWf) : NextWf (.next s) := fun _ e => Host.Outcome.next.inj e ▸ hs

theorem act_nextWf {f : State → State} (hs : s.memWf) (hf : (f s).memWf) : NextWf (act f s) :=
  next_nextWf (ite_memWf (settle_memWf hf) hs)

theorem actAny_nextWf {f : State → State} (hf : (f s).memWf) : NextWf (actAny f s) := next_nextWf (settle_memWf hf)

/-- A row of the mailbox is as good as what its catalogue entry runs. -/
theorem command_nextWf {d : CmdDef} {n : Fin 64} {e : Entry} (hd : d.KeepsMem) (hs : s.memWf) : NextWf (act (command d n e) s) :=
  act_nextWf hs (command_memWf hd hs)

/-- A Pyrat row is as good as the meaning of its instruction. -/
theorem issue_nextWf {op : POp} {m : Meaning} {key : Nat} (hm : m.KeepsMem) (hs : s.memWf) :
    NextWf (act (issue op m key) s) :=
  act_nextWf hs (issue_memWf hs hm)

theorem idle_memWf (hs : s.memWf) : (idle s).memWf := ite_memWf (settle_memWf (drawFree_memWf hs).with_gg) hs

/-- Every row of the table keeps the memories canonical. -/
theorem exec_nextWf {i : Instr} (hs : s.memWf) : NextWf (exec i s) := by
  unfold exec
  cases i with
  | negotiate => exact command_nextWf cmdNegotiate_keepsMem hs
  | identify => exact command_nextWf cmdIdentify_keepsMem hs
  | qpCreate => exact command_nextWf cmdQpCreate_keepsMem hs
  | qpDelete => exact command_nextWf cmdQpDelete_keepsMem hs
  | bindOff => exact command_nextWf cmdBindOff_keepsMem hs
  | warmReset => exact command_nextWf cmdWarmReset_keepsMem hs
  | resetReport => exact command_nextWf cmdResetReport_keepsMem hs
  | asCreate => exact command_nextWf cmdAsCreate_keepsMem hs
  | asDestroy => exact command_nextWf cmdAsDestroy_keepsMem hs
  | ptWrite => exact command_nextWf cmdPtWrite_keepsMem hs
  | invalTag => exact command_nextWf cmdInvalTag_keepsMem hs
  | invalRange => exact command_nextWf cmdInvalRange_keepsMem hs
  | faultRingSet => exact command_nextWf cmdFaultRingSet_keepsMem hs
  | faultResume => exact command_nextWf cmdFaultResume_keepsMem hs
  | tableCreate => exact command_nextWf cmdTableCreate_keepsMem hs
  | tableDestroy => exact command_nextWf cmdTableDestroy_keepsMem hs
  | tableQuery => exact command_nextWf cmdTableQuery_keepsMem hs
  | hotsetLoad => exact command_nextWf cmdHotsetLoad_keepsMem hs
  | hotsetRefresh => exact command_nextWf cmdHotsetRefresh_keepsMem hs
  | hotsetDrop => exact command_nextWf cmdHotsetDrop_keepsMem hs
  | prefetch => exact command_nextWf cmdPrefetch_keepsMem hs
  | advise => exact command_nextWf cmdAdvise_keepsMem hs
  | replicaSet => exact command_nextWf cmdReplicaSet_keepsMem hs
  | replicaDrop => exact command_nextWf cmdReplicaDrop_keepsMem hs
  | driveUnfence => exact command_nextWf cmdDriveUnfence_keepsMem hs
  | patternLoad => exact command_nextWf cmdPatternLoad_keepsMem hs
  | patternUnload => exact command_nextWf cmdPatternUnload_keepsMem hs
  | launch => exact command_nextWf cmdLaunch_keepsMem hs
  | stepOpen => exact command_nextWf cmdStepOpen_keepsMem hs
  | stepConfirm => exact command_nextWf cmdStepConfirm_keepsMem hs
  | stepClose => exact command_nextWf cmdStepClose_keepsMem hs
  | specOpen => exact command_nextWf cmdSpecOpen_keepsMem hs
  | specAbandon => exact command_nextWf cmdSpecAbandon_keepsMem hs
  | stepQuery => exact command_nextWf cmdStepQuery_keepsMem hs
  | tileReset => exact command_nextWf cmdTileReset_keepsMem hs
  | fabricId => exact command_nextWf cmdFabricId_keepsMem hs
  | portConfig => exact command_nextWf cmdPortConfig_keepsMem hs
  | shardmapLoad => exact command_nextWf cmdShardmapLoad_keepsMem hs
  | portReset => exact command_nextWf cmdPortReset_keepsMem hs
  | portUnfence => exact command_nextWf cmdPortUnfence_keepsMem hs
  | fabricStatus => exact command_nextWf cmdFabricStatus_keepsMem hs
  | gaugeConfig => exact command_nextWf cmdGaugeConfig_keepsMem hs
  | gaugeRebase => exact command_nextWf cmdGaugeRebase_keepsMem hs
  | schedRead => exact command_nextWf cmdSchedRead_keepsMem hs
  | schedCancel => exact command_nextWf cmdSchedCancel_keepsMem hs
  | scrubSlot => exact command_nextWf cmdScrubSlot_keepsMem hs
  | tensionSlot => exact command_nextWf cmdTensionSlot_keepsMem hs
  | powerCap => exact command_nextWf cmdPowerCap_keepsMem hs
  | monRead => exact command_nextWf cmdMonRead_keepsMem hs
  | thermLimit => exact command_nextWf cmdThermLimit_keepsMem hs
  | logRead => exact command_nextWf cmdLogRead_keepsMem hs
  | logMirrorSet => exact command_nextWf cmdLogMirrorSet_keepsMem hs
  | tallyAudit => exact command_nextWf cmdTallyAudit_keepsMem hs
  | tallyRead => exact command_nextWf cmdTallyRead_keepsMem hs
  | idRead => exact command_nextWf cmdIdRead_keepsMem hs
  | tagRead => exact command_nextWf cmdTagRead_keepsMem hs
  | tagWrite => exact command_nextWf cmdTagWrite_keepsMem hs
  | keyUpdate => exact command_nextWf cmdKeyUpdate_keepsMem hs
  | keyStatus => exact command_nextWf cmdKeyStatus_keepsMem hs
  | fwStage => exact command_nextWf cmdFwStage_keepsMem hs
  | fwActivate => exact command_nextWf cmdFwActivate_keepsMem hs
  | fwStatus => exact command_nextWf cmdFwStatus_keepsMem hs
  | fwChainSet => exact command_nextWf cmdFwChainSet_keepsMem hs
  | fwDiscard => exact command_nextWf cmdFwDiscard_keepsMem hs
  | commandFetch => exact act_nextWf hs (fetchCmd_memWf hs)
  | interimCompletion => exact act_nextWf hs (interimDue_memWf hs)
  | coalTimeExpiry => exact act_nextWf hs (coalExpiry_memWf hs)
  | mbSqTail => exact act_nextWf hs (barWrite_memWf hs)
  | mbCqHead => exact act_nextWf hs (barWrite_memWf hs)
  | qp0Enable => exact act_nextWf hs (barWrite_memWf hs)
  | qp0Disable => exact act_nextWf hs (barWrite_memWf hs)
  | reinit => exact act_nextWf hs (barWrite_memWf hs)
  | hlApSlice => exact act_nextWf hs (partWrite_memWf hs)
  | hlViolCount => exact act_nextWf hs (barRead_memWf hs)
  | hlApRefused => exact act_nextWf hs (barRead_memWf hs)
  | sqSel => exact act_nextWf hs (barWrite_memWf hs)
  | sqInfo => exact act_nextWf hs (partRead_memWf hs)
  | sqCount => exact act_nextWf hs (partRead_memWf hs)
  | erSummary => exact act_nextWf hs (barWrite_memWf hs)
  | erCount => exact act_nextWf hs (barRead_memWf hs)
  | erMemSel => exact act_nextWf hs (barWrite_memWf hs)
  | erMemCount => exact act_nextWf hs (partRead_memWf hs)
  | erMemStack => exact act_nextWf hs (partRead_memWf hs)
  | erMemPoison => exact act_nextWf hs (partRead_memWf hs)
  | pmEvent => exact act_nextWf hs (barWrite_memWf hs)
  | pmThrottleUs => exact act_nextWf hs (barRead_memWf hs)
  | tyAlarm => exact act_nextWf hs (partWrite_memWf hs)
  | txFrHead => exact act_nextWf hs (barWrite_memWf hs)
  | ggBeat => exact act_nextWf hs (partRead_memWf hs)
  | ggPhase => exact act_nextWf hs (barRead_memWf hs)
  | msixUnmask => exact act_nextWf hs (unmask_memWf hs)
  | registerWrite => exact act_nextWf hs (barWrite_memWf hs)
  | bar2Read => exact act_nextWf hs (bar2Read_memWf hs)
  | bar2Write => exact act_nextWf hs (bar2Write_memWf hs)
  | hostTlpViolation => exact act_nextWf hs (tlpViolation_memWf hs)
  | d3hotEntry => exact act_nextWf hs (d3Enter_memWf hs)
  | d0Return => exact act_nextWf hs (d0Return_memWf hs)
  | busMasterEnableClear => exact act_nextWf hs (bmeClear_memWf hs)
  | busMasterEnableSet => exact act_nextWf hs (bmeSet_memWf hs)
  | flr => exact act_nextWf hs (flrReset_memWf hs)
  | linkTrainingComplete => exact act_nextWf hs (linkTrained_memWf hs)
  | deviceReadRefused => exact act_nextWf hs (readRefused_memWf hs)
  | powerGood => exact actAny_nextWf (powerGood_memWf hs)
  | inputVoltageExcursion => exact actAny_nextWf (inputExcursion_memWf hs)
  | railExcursion => exact actAny_nextWf (railExcursion_memWf hs)
  | modResetAssert => exact actAny_nextWf (modResetAssert_memWf hs)
  | modResetDeassert => exact actAny_nextWf (modResetDeassert_memWf hs)
  | warmResetAssert => exact actAny_nextWf (warmResetAssert_memWf hs)
  | warmResetDeassert => exact actAny_nextWf (warmResetDeassert_memWf hs)
  | perstAssert => exact actAny_nextWf (perstAssert_memWf hs)
  | perstDeassert => exact actAny_nextWf (perstDeassert_memWf hs)
  | quiesceComplete => exact actAny_nextWf (quiesceComplete_memWf hs)
  | quiesceTimeout => exact actAny_nextWf (quiesceTimeout_memWf hs)
  | castOnS1 => exact actAny_nextWf (castOnS1_memWf hs)
  | castOnS2 => exact actAny_nextWf (castOnS2_memWf hs)
  | castOnS3 => exact actAny_nextWf (castOnS3_memWf hs)
  | castOnS4 => exact actAny_nextWf (castOnS4_memWf hs)
  | castOnS5 => exact actAny_nextWf (castOnS5_memWf hs)
  | castOnS7 => exact actAny_nextWf (castOnS7_memWf hs)
  | stageTimeExceeded => exact actAny_nextWf (stageTime_memWf hs)
  | closeResume => exact actAny_nextWf (closeResume_memWf hs)
  | gwordFrame => exact act_nextWf hs (withOrigin_memWf hs fun _ => gwordFrame_memWf)
  | gaugeLock => exact act_nextWf hs (withOrigin_memWf hs fun _ => gaugeLock_memWf)
  | missingEdge => exact act_nextWf hs (withOrigin_memWf hs fun _ => missingEdge_memWf)
  | localBeat => exact act_nextWf hs (withOrigin_memWf hs fun _ => localBeatRow_memWf)
  | holdoverBeat1000 => exact act_nextWf hs (holdover1000_memWf hs)
  | resumeMark => exact act_nextWf hs (resumeMark_memWf hs)
  | stepConfirmMark => exact act_nextWf hs (markRow_memWf hs)
  | speculationWindowDeadline => exact act_nextWf hs (markRow_memWf hs)
  | stepConfirmDeadline => exact act_nextWf hs (markRow_memWf hs)
  | stepCloseMark => exact act_nextWf hs (markRow_memWf hs)
  | tableVersionFlip => exact act_nextWf hs (markRow_memWf hs)
  | stepOpenMark => exact act_nextWf hs (markRow_memWf hs)
  | speculationWindowOpen => exact act_nextWf hs (markRow_memWf hs)
  | hotSetRefresh => exact act_nextWf hs (markRow_memWf hs)
  | scrubSlotBegin => exact act_nextWf hs (markRow_memWf hs)
  | tensionSlotFiring => exact act_nextWf hs (markRow_memWf hs)
  | firmwareActivation => exact act_nextWf hs (markRow_memWf hs)
  | selfConfirmation => exact act_nextWf hs (selfConfirm_memWf hs)
  | trialWindowExpiry => exact act_nextWf hs (trialExpiry_memWf hs)
  | applyComplete => exact act_nextWf hs (applyEnd_memWf hs)
  | sqPacketCommit => exact act_nextWf hs (sqCommit_memWf hs)
  | sqBadFlag => exact act_nextWf hs (sqBad_memWf hs)
  | sqFlushRequest => exact act_nextWf hs (sqFlushRequest_memWf hs)
  | sqFlushTakesEffect => exact act_nextWf hs (sqFlushEffect_memWf hs)
  | sqConsumerRead => exact act_nextWf hs (sqRead_memWf hs)
  | staleTailTimeout => exact act_nextWf hs (sqTimeout_memWf hs)
  | nop => exact issue_nextWf (fun _ _ _ _ => opNop_memWf) hs
  | dup => exact issue_nextWf (fun _ _ _ _ => opDup_memWf) hs
  | swap => exact issue_nextWf (fun _ _ _ _ => opSwap_memWf) hs
  | drop => exact issue_nextWf (fun _ _ _ _ => opDrop_memWf) hs
  | over_ => exact issue_nextWf (fun _ _ _ _ => opOver_memWf) hs
  | rot => exact issue_nextWf (fun _ _ _ _ => opRot_memWf) hs
  | pick => exact issue_nextWf (fun _ _ _ _ => opPick_memWf) hs
  | pushi => exact issue_nextWf (fun _ _ _ _ => opPushi_memWf) hs
  | pushx => exact issue_nextWf (fun _ _ _ _ => opPushx_memWf) hs
  | add => exact issue_nextWf (fun _ _ _ _ => opAdd_memWf) hs
  | sub => exact issue_nextWf (fun _ _ _ _ => opSub_memWf) hs
  | and => exact issue_nextWf (fun _ _ _ _ => opAnd_memWf) hs
  | or => exact issue_nextWf (fun _ _ _ _ => opOr_memWf) hs
  | xor => exact issue_nextWf (fun _ _ _ _ => opXor_memWf) hs
  | andn => exact issue_nextWf (fun _ _ _ _ => opAndn_memWf) hs
  | neg => exact issue_nextWf (fun _ _ _ _ => opNeg_memWf) hs
  | not => exact issue_nextWf (fun _ _ _ _ => opNot_memWf) hs
  | mins => exact issue_nextWf (fun _ _ _ _ => opMins_memWf) hs
  | maxs => exact issue_nextWf (fun _ _ _ _ => opMaxs_memWf) hs
  | minu => exact issue_nextWf (fun _ _ _ _ => opMinu_memWf) hs
  | maxu => exact issue_nextWf (fun _ _ _ _ => opMaxu_memWf) hs
  | shl => exact issue_nextWf (fun _ _ _ _ => opShl_memWf) hs
  | shr => exact issue_nextWf (fun _ _ _ _ => opShr_memWf) hs
  | sar => exact issue_nextWf (fun _ _ _ _ => opSar_memWf) hs
  | rol => exact issue_nextWf (fun _ _ _ _ => opRol_memWf) hs
  | clz => exact issue_nextWf (fun _ _ _ _ => opClz_memWf) hs
  | popc => exact issue_nextWf (fun _ _ _ _ => opPopc_memWf) hs
  | bperm => exact issue_nextWf (fun _ _ _ _ => opBperm_memWf) hs
  | bfx => exact issue_nextWf (fun _ _ _ _ => opBfx_memWf) hs
  | bfi => exact issue_nextWf (fun _ _ _ _ => opBfi_memWf) hs
  | mul => exact issue_nextWf (fun _ _ _ _ => opMul_memWf) hs
  | mulh => exact issue_nextWf (fun _ _ _ _ => opMulh_memWf) hs
  | cmp => exact issue_nextWf (fun _ _ _ _ => opCmp_memWf) hs
  | plog => exact issue_nextWf (fun _ _ _ _ => opPlog_memWf) hs
  | pfrom => exact issue_nextWf (fun _ _ _ _ => opPfrom_memWf) hs
  | pto => exact issue_nextWf (fun _ _ _ _ => opPto_memWf) hs
  | ld => exact issue_nextWf (fun _ _ _ _ => opLd_memWf) hs
  | loadDataArrival => exact act_nextWf hs (dataArrival_memWf hs)
  | st => exact issue_nextWf (fun _ _ _ _ => opSt_memWf) hs
  | aadd => exact issue_nextWf (fun _ _ _ _ => opAadd_memWf) hs
  | bcopy => exact issue_nextWf (fun _ _ _ _ => opBcopy_memWf) hs
  | bcopyCompletion => exact act_nextWf hs (copyCompletion_memWf hs)
  | br => exact issue_nextWf (fun _ _ _ _ => opBr_memWf) hs
  | bz => exact issue_nextWf (fun _ _ _ _ => opBz_memWf) hs
  | bnz => exact issue_nextWf (fun _ _ _ _ => opBnz_memWf) hs
  | call => exact issue_nextWf (fun _ _ _ _ => opCall_memWf) hs
  | calli => exact issue_nextWf (fun _ _ _ _ => opCalli_memWf) hs
  | bri => exact issue_nextWf (fun _ _ _ _ => opBri_memWf) hs
  | ret => exact issue_nextWf (fun _ _ _ _ => opRet_memWf) hs
  | end_ => exact issue_nextWf (fun _ _ _ _ => opEnd_memWf) hs
  | rds => exact issue_nextWf (fun _ _ _ _ => opRds_memWf) hs
  | wrs => exact issue_nextWf (fun _ _ _ _ => opWrs_memWf) hs
  | rdwait => exact issue_nextWf (fun _ _ _ _ => opRdwait_memWf) hs
  | sgrd => exact issue_nextWf (fun _ _ _ _ => opSgrd_memWf) hs
  | waitc => exact issue_nextWf (fun _ _ _ _ => opWaitc_memWf) hs
  | fenceT => exact issue_nextWf (fun _ _ _ _ => opFenceT_memWf) hs
  | fenceD => exact issue_nextWf (fun _ _ _ _ => opFenceD_memWf) hs
  | fenceS => exact issue_nextWf (fun _ _ _ _ => opFenceS_memWf) hs
  | gather => exact issue_nextWf (fun _ _ _ _ => opGather_memWf) hs
  | pool => exact issue_nextWf (fun _ _ _ _ => opPool_memWf) hs
  | gatherAddr => exact issue_nextWf (fun _ _ _ _ => opGatherAddr_memWf) hs
  | gatherResume => exact issue_nextWf (fun _ _ _ _ => opGatherResume_memWf) hs
  | rowAdd => exact issue_nextWf (fun _ _ _ _ => opRowAdd_memWf) hs
  | stream => exact issue_nextWf (fun _ _ _ _ => opStream_memWf) hs
  | mxop => exact issue_nextWf (fun _ _ _ _ => opMxop_memWf) hs
  | threadPlacement => exact act_nextWf hs (placeThread_memWf hs)
  | claimGrant => exact act_nextWf hs (claimGrant_memWf hs)
  | hookElementReturn => exact act_nextWf hs (hookReturn_memWf hs)
  | operationValidation => exact act_nextWf hs (validateOp_memWf hs)
  | load => exact act_nextWf hs (mxRun_memWf hs (fun _ _ h => mxRows_memWf h fun _ _ => loadStep_memWf))
  | store => exact act_nextWf hs (mxRun_memWf hs (fun _ _ h => mxRows_memWf h fun _ _ => storeStep_memWf))
  | matmul => exact act_nextWf hs (mxRun_memWf hs fun _ _ => matmulRun_memWf)
  | elemwise => exact act_nextWf hs (mxRun_memWf hs fun _ _ => elemRun_memWf)
  | seed => exact act_nextWf hs (mxRun_memWf hs fun _ _ => seedRun_memWf)
  | matrixOperationComplete => exact act_nextWf hs (mxComplete_memWf hs)
  | floatAdd => exact act_nextWf hs (adderRun_memWf hs)
  | exactAdd => exact act_nextWf hs (adderRun_memWf hs)
  | closeStage1 => exact act_nextWf hs (closeRow_memWf hs fun _ => closeStage1_memWf)
  | closeStage2 => exact act_nextWf hs (closeRow_memWf hs fun _ => closeStage2_memWf)
  | closeStage3 => exact act_nextWf hs (closeRow_memWf hs fun _ => closeStage3_memWf)
  | closeStage4 => exact act_nextWf hs (closeRow_memWf hs fun _ => closeStage4_memWf)
  | closeStage5 => exact act_nextWf hs (closeRow_memWf hs fun _ => closeStage5_memWf)
  | closeStage6 => exact act_nextWf hs (closeRow_memWf hs fun _ => closeStage6_memWf)
  | closeStage7 => exact act_nextWf hs (closeRow_memWf hs fun _ => closeStage7_memWf)
  | walkComplete => exact act_nextWf hs (walkComplete_memWf hs)
  | streamPrewalk => exact act_nextWf hs (streamPrewalk_memWf hs)
  | faultRecordWrite => exact act_nextWf hs (faultRecordWrite_memWf hs)
  | faultWatchdog => exact act_nextWf hs (faultWatchdog_memWf hs)
  | invalAck => exact act_nextWf hs (invalAck_memWf hs)
  | faultInComplete => exact act_nextWf hs (faultInEnd_memWf hs)
  | writeBackComplete => exact act_nextWf hs (wbEnd_memWf hs)
  | deallocateComplete => exact act_nextWf hs (deallocComplete_memWf hs)
  | nvmeCompletion => exact act_nextWf hs (nvmeComplete_memWf hs)
  | nvmeCommandTimeout => exact act_nextWf hs (nvmeTimeout_memWf hs)
  | nvmeAbortTimeout => exact act_nextWf hs (nvmeAbortTimeout_memWf hs)
  | controllerFatalStatus => exact act_nextWf hs (controllerFatal_memWf hs)
  | nvmeLinkDown => exact act_nextWf hs (nvmeLinkDown_memWf hs)
  | scrubRead => exact act_nextWf hs (scrubRead_memWf hs)
  | repairComplete => exact act_nextWf hs (repairEnd_memWf hs)
  | d2dRetryExhausted => exact act_nextWf hs (d2dExhausted_memWf hs)
  | portTrained => exact act_nextWf hs (portTrained_memWf hs)
  | plyFailure => exact act_nextWf hs (plyFailure_memWf hs)
  | linkControlFlit => exact act_nextWf hs (linkControl_memWf hs)
  | replayTimeout => exact act_nextWf hs (replayTimeout_memWf hs)
  | ackTimer => exact act_nextWf hs (ackTimer_memWf hs)
  | creditReturnTimer => exact act_nextWf hs (creditTimer_memWf hs)
  | rowGet => exact act_nextWf hs (rowGetArrives_memWf hs)
  | rowData => exact act_nextWf hs (rowDataArrives_memWf hs)
  | rowAddReceived => exact act_nextWf hs (rowAddArrives_memWf hs)
  | rowAck => exact act_nextWf hs (rowAckArrives_memWf hs)
  | rowNak => exact act_nextWf hs (rowNakArrives_memWf hs)
  | credit => exact act_nextWf hs (creditArrives_memWf hs)
  | gauge => exact act_nextWf hs (gaugeArrives_memWf hs)
  | fwChunk => exact act_nextWf hs (chunkArrives_memWf hs)
  | hello => exact act_nextWf hs (helloArrives_memWf hs)
  | echoReq => exact act_nextWf hs (echoReqArrives_memWf hs)
  | echoRsp => exact act_nextWf hs (echoRspArrives_memWf hs)
  | linkDelayMeasure => exact act_nextWf hs (delayMeasure_memWf hs)
  | linkState => exact act_nextWf hs (linkStateArrives_memWf hs)
  | linkStatePeriod => exact act_nextWf hs (linkPeriod_memWf hs)
  | originTimeout => exact act_nextWf hs (originTimeout_memWf hs)
  | routeRecompute => exact act_nextWf hs (routeRecompute_memWf hs)
  | drain => exact act_nextWf hs (drainArrives_memWf hs)
  | leave => exact act_nextWf hs (leaveArrives_memWf hs)
  | messageForward => exact act_nextWf hs (messageForward_memWf hs)
  | rowGetReissue => exact act_nextWf hs (getReissue_memWf hs)
  | rowAddResend => exact act_nextWf hs (addResend_memWf hs)
  | notOwnerResend => exact act_nextWf hs (notOwnerResend_memWf hs)
  | auditReread => exact act_nextWf hs (auditReread_memWf hs)
  | rateLimitFlush => exact act_nextWf hs (rateFlush_memWf hs)
  | monitorSample => exact actAny_nextWf (monitorSample_memWf hs)
  | thermalRelease => exact act_nextWf hs (thermalRelease_memWf hs)
  | thermTrip => exact actAny_nextWf (thermTripRow_memWf hs)
  | powerControlTick => exact act_nextWf hs (powerTick_memWf hs)
  | rampStep => exact act_nextWf hs (rampStep_memWf hs)
  | grantDecrease => exact act_nextWf hs (grantDecrease_memWf hs)
  | pwrBrakeAssert => exact actAny_nextWf (brakeAssert_memWf hs)
  | pwrBrakeDeassert => exact actAny_nextWf (brakeDeassert_memWf hs)
  | grantW => exact act_nextWf hs (grantWatts_memWf hs)
  | grantBeat => exact act_nextWf hs (grantCommit_memWf hs)
  | entdaa => exact act_nextWf hs (dynamicAddress_memWf hs)
  | setEndpointId => exact act_nextWf hs (setEid_memWf hs)
  | getEndpointId => exact act_nextWf hs (getEid_memWf hs)
  | getMctpVersionSupport => exact act_nextWf hs (sbAnswer_memWf hs)
  | getMessageTypeSupport => exact act_nextWf hs (sbAnswer_memWf hs)
  | getTid => exact act_nextWf hs (sbAnswer_memWf hs)
  | getPldmVersion => exact act_nextWf hs (pldmOf_memWf hs)
  | getPldmTypes => exact act_nextWf hs (sbAnswer_memWf hs)
  | getPldmCommands => exact act_nextWf hs (pldmOf_memWf hs)
  | getPdrRepositoryInfo => exact act_nextWf hs (sbAnswer_memWf hs)
  | getPdr => exact act_nextWf hs (getPdr_memWf hs)
  | getSensorReading => exact act_nextWf hs (answerWith_memWf hs)
  | getStateSensorReadings => exact act_nextWf hs (answerWith_memWf hs)
  | getNumericEffecterValue => exact act_nextWf hs (answerWith_memWf hs)
  | setEventReceiver => exact act_nextWf hs (setReceiver_memWf hs)
  | getFruRecordTableMetadata => exact act_nextWf hs (fruMetadata_memWf hs)
  | getFruRecordTable => exact act_nextWf hs (fruTable_memWf hs)
  | unsupportedSidebandRequest => exact act_nextWf hs (sbAnswer_memWf hs)
  | getVersion => exact act_nextWf hs (spdmGetVersion_memWf hs)
  | getCapabilities => exact act_nextWf hs (spdmCapabilities_memWf hs)
  | negotiateAlgorithms => exact act_nextWf hs (spdmAlgorithms_memWf hs)
  | getDigests => exact act_nextWf hs (spdmDigests_memWf hs)
  | getCertificate => exact act_nextWf hs (spdmCertificate_memWf hs)
  | challenge => exact act_nextWf hs (spdmChallenge_memWf hs)
  | getMeasurements => exact act_nextWf hs (spdmMeasurements_memWf hs)
  | spdmUnsupportedRequest => exact act_nextWf hs (spdmOther_memWf hs)
  | flit => exact act_nextWf hs (flitArrives_memWf hs)
  | h2dSnoop => exact act_nextWf hs (h2dSnoop_memWf hs)
  | doeDiscovery => exact act_nextWf hs (doeDiscovery_memWf hs)
  | scrubSlotEnd => exact act_nextWf hs (scrubSlotEnd_memWf hs)
  | auxInputRemoved => exact actAny_nextWf (auxRemoved_memWf hs)
  | accessPerformed => exact act_nextWf hs (accessPerformed_memWf hs)

theorem step_nextWf (hs : s.memWf) : NextWf (step s) := by
  unfold step
  split
  · exact next_nextWf (idle_memWf hs)
  · exact exec_nextWf (hs.same rfl)

end

/-- Settles O8: each row of the table, and a step without a pending command, keeps the byte memories canonical. -/
theorem stepKeepsMemoriesCanonical : Obligations.StepKeepsMemoriesCanonical :=
  fun _ t hs e => step_nextWf hs t e

end Sys2Proof.Machine

namespace Sys2Proof.Machine

open Sys2Proof

/-! ### Opening, confirming and closing a step (R16, R17, R22, R23) -/

theorem binding_schedPut (x : SchedEntry) (s : State) : binding (schedPut s x) = binding s := by
  simp only [schedPut]; split <;> rfl

theorem schedPut_stp (x : SchedEntry) (s : State) : (schedPut s x).stp = s.stp := by
  simp only [schedPut]; split <;> rfl

/-- A new schedule entry does not keep a step from opening. -/
theorem openOk_schedPut (k : Nat) (x : SchedEntry) (s : State) : openOk k (schedPut s x) = openOk k s := by
  simp only [openOk, expectedStep, binding_schedPut, schedPut_stp]

theorem openEffect_ok {n : Fin 64} {e : Entry} {s : State} (h : openOk (namedStep e) s = true) :
    openEffect n e s = (okEnd 0 0, disown n (Entry.cid e) (openStep (namedStep e) s)) := by
  simp only [openEffect, h, Bool.not_true, Bool.false_eq_true, if_false]

theorem closeEffect_ok {n : Fin 64} {e : Entry} {s : State} (h : closeOk (namedStep e) s = true) :
    closeEffect n e s = (.works, closeStart (namedStep e) (n.val, Entry.cid e) s) := by
  simp only [closeEffect, h, Bool.not_true, Bool.false_eq_true, if_false]

theorem specOpenEffect_ok {n : Fin 64} {e : Entry} {s : State} (h : windowOk (namedStep e) s = true) :
    specOpenEffect n e s = (okEnd 0 0, disown n (Entry.cid e) (openWindow (namedStep e) s)) := by
  simp only [specOpenEffect, h, Bool.not_true, Bool.false_eq_true, if_false]

/-- A confirm that no close holds takes effect at once. -/
theorem confirmDue_free {h : HeldConfirm} {s : State} (hf : confirmHeld h.step s = false) : confirmDue h s = confirmNow h s := by
  simp only [confirmDue, hf, Bool.false_and, Bool.false_eq_true, if_false]

/-- The confirm of an open step that an earlier live step holds back waits in the unit of the steps. -/
theorem confirmDue_held {h : HeldConfirm} {st : Step} {s : State} (hh : confirmHeld h.step s = true) (hs : stepOf h.step s = some st)
    (hp : st.phase = .opened) : ∃ l, (confirmDue h s).stp.heldConfirm = some { h with late := l } := by
  simp only [confirmDue, hh, hs, hp, beq_self_eq_true, Bool.and_self, if_true]
  exact ⟨_, rfl⟩

/-- The confirm of an open step that names no window, and has none, completes. -/
theorem confirmNow_plain {k m cid : Nat} {late : Bool} {st : Step} {s : State} (hs : stepOf k s = some st) (hp : st.phase = .opened)
    (ho : windowOpen k s = false) (ha : windowAbandoned k s = false) :
    confirmNow ⟨k, false, (m, cid), late⟩ s = completeAt (Fin.ofNat 64 m) cid stOK 0 0 0 late
      (modStep k (fun x => { x with phase := .confirm }) s) := by
  have hc : confirmOk k false s = true := by
    simp only [confirmOk, hs, hp, beq_self_eq_true, Bool.not_false, Bool.true_or, Bool.and_self]
  simp only [confirmNow, hc, ho, ha, b2n, Bool.not_true, Bool.and_false, Bool.false_eq_true, if_false, Nat.mul_zero, BitVec.ofNat_eq_ofNat]

/-- The confirm of an entry that names no window. -/
theorem confirmOf'_windowless {n : Fin 64} {e : Entry} (late : Bool) (hw : e.getLsbD 112 = false) :
    confirmOf' n e late = ⟨namedStep e, false, (n.val, Entry.cid e), late⟩ := by
  rw [confirmOf', hw]

/-! ### The step commands (R183–R186) -/

/-- The entries of a marked command are accepted and it waits for its mark. -/
theorem schedule_marked {x : SchedEntry} {xs : List SchedEntry} {s : State} (hr : schedRefusal (x :: xs) s = none)
    (hp : x.periodic = false) : schedule (x :: xs) s = (.marked, (x :: xs).foldl schedPut s) := by
  simp only [schedule, hr, hp, Bool.false_eq_true, if_false]

theorem run_stepOpen {n : Fin 64} {e : Entry} {s : State} (hs : stepPending n e s = false) (hm : Entry.marked e = false)
    (ho : openOk (namedStep e) s = true) (hd : cmdDlValid e = false) :
    cmdStepOpen.run n e s = (okEnd 0 0, disown n (Entry.cid e) (openStep (namedStep e) s)) := by
  simp only [cmdStepOpen, hs, hm, ho, hd, Bool.not_true, Bool.false_eq_true, if_false]
  split
  · exact openEffect_ok ho
  · exact openEffect_ok ho

theorem run_stepOpen_deadline {n : Fin 64} {e : Entry} {s : State} (hs : stepPending n e s = false) (hm : Entry.marked e = false)
    (ho : openOk (namedStep e) s = true) (hd : cmdDlValid e = true)
    (hr : schedRefusal [secondEntry n e 3 (e.getLsbD (8 * 26 + 1))] s = none) :
    cmdStepOpen.run n e s = (okEnd 0 0, disown n (Entry.cid e) (openStep (namedStep e)
      (schedPut s (secondEntry n e 3 (e.getLsbD (8 * 26 + 1)))))) := by
  simp only [cmdStepOpen, hs, hm, ho, hd, hr, Bool.not_true, Bool.false_eq_true, if_false, if_true]
  exact openEffect_ok (by rw [List.foldl_cons, List.foldl_nil, openOk_schedPut, ho])

theorem run_stepOpen_marked {n : Fin 64} {e : Entry} {s : State} (hs : stepPending n e s = false) (hm : Entry.marked e = true)
    (hp : Entry.periodic e = false) (hd : cmdDlValid e = false) (hl : ∀ l, s.stp.last = some l → l < namedStep e)
    (hr : schedRefusal [ownEntry n e 6 (stepTag e)] s = none) :
    cmdStepOpen.run n e s = (.marked, schedPut s (ownEntry n e 6 (stepTag e))) := by
  have hnew : s.stp.last.any (fun l => decide (namedStep e ≤ l)) = false := by
    cases h : s.stp.last with
    | none => rfl
    | some l => exact decide_eq_false (Nat.not_le.mpr (hl l h))
  simp only [cmdStepOpen, hs, hm, hd, hnew, Bool.false_eq_true, if_false, if_true]
  exact schedule_marked hr hp

theorem run_stepConfirm {n : Fin 64} {e : Entry} {s : State} (hs : stepPending n e s = false) (hm : Entry.marked e = false)
    (hw : e.getLsbD 112 = false) :
    cmdStepConfirm.run n e s = (.marked, confirmDue ⟨namedStep e, false, (n.val, Entry.cid e), false⟩ s) := by
  simp only [cmdStepConfirm, hs, hm, confirmOf'_windowless false hw, Bool.false_eq_true, if_false]

theorem run_stepConfirm_marked {n : Fin 64} {e : Entry} {s : State} (hs : stepPending n e s = false) (hm : Entry.marked e = true)
    (hr : stepReachable (namedStep e) (fun p => p == .opened) s = true) :
    cmdStepConfirm.run n e s = schedule [ownEntry n e 1 (stepTag e)] s := by
  simp only [cmdStepConfirm, hs, hm, hr, Bool.false_eq_true, if_false, if_true]

theorem run_stepClose {n : Fin 64} {e : Entry} {s : State} (hs : stepPending n e s = false) (hm : Entry.marked e = false)
    (hc : closeOk (namedStep e) s = true) (hf : cmdFlipValid e = false) :
    cmdStepClose.run n e s = (.works, closeStart (namedStep e) (n.val, Entry.cid e) s) := by
  simp only [cmdStepClose, hs, hm, hc, hf, Bool.not_true, Bool.false_eq_true, if_false]
  split
  · exact closeEffect_ok hc
  · exact closeEffect_ok hc

theorem run_stepClose_marked {n : Fin 64} {e : Entry} {s : State} (hs : stepPending n e s = false) (hm : Entry.marked e = true)
    (hf : cmdFlipValid e = false) (hr : stepReachable (namedStep e) (fun p => p == .opened || p == .confirm) s = true) :
    cmdStepClose.run n e s = schedule [ownEntry n e 4 (stepTag e)] s := by
  simp only [cmdStepClose, hs, hm, hf, hr, Bool.false_eq_true, if_false, if_true]

theorem run_specOpen {n : Fin 64} {e : Entry} {s : State} (hs : stepPending n e s = false)
    (hr : stepReachable (namedStep e) (fun p => p == .opened) s = true) :
    cmdSpecOpen.run n e s = schedule [ownEntry n e 7 (stepTag e), secondEntry n e 2 (e.getLsbD (8 * 26))] s := by
  simp only [cmdSpecOpen, hs, hr, Bool.not_true, Bool.or_self, Bool.false_eq_true, if_false]

theorem run_specAbandon {n : Fin 64} {e : Entry} {s t : State} {j : Nat} (hw : windowOpen (namedStep e) s = true)
    (ha : abandonWindow s = (j, t)) : cmdSpecAbandon.run n e s = (okEnd j 0, t) := by
  simp only [cmdSpecAbandon, hw, ha, Bool.not_true, Bool.false_eq_true, if_false]

/-- Settles O40: each command's run is a `run_` lemma, and `accepted_done`, `accepted_marked`, `accepted_works` and `accepted_schedules`
carry it to the row's answer. -/
theorem stepCommands : Obligations.StepCommands := by
  intro n e s b k own second
  refine ⟨fun ha hs => ⟨fun hm ho => ⟨fun hd => ?_, fun hd hr => ?_⟩, fun hm hp hd hl hr => ?_⟩,
    fun st ha hs hm hw hst hph => ⟨fun hh ho hab => ?_, fun hh => ⟨?_, ?_⟩⟩, fun ha hs hm hp hr => ?_, fun ha hs hm hf hc => ?_,
    fun ha hs hm hp hf hr => ?_, fun ha hs hp hr h2 => ?_, fun j t ha hw hj => ?_, fun ha => ?_⟩
  · exact accepted_done rfl ha (run_stepOpen hs hm ho hd)
  · exact accepted_done rfl ha (run_stepOpen_deadline hs hm ho hd hr)
  · exact accepted_marked rfl ha (run_stepOpen_marked hs hm hp hd hl hr)
  · refine accepted_marked rfl ha ((run_stepConfirm hs hm hw).trans (congrArg _ ?_))
    rw [confirmDue_free hh, confirmNow_plain hst hph ho hab, Fin.ofNat_val_eq_self]
    rfl
  · exact accepted_marked rfl ha (run_stepConfirm hs hm hw)
  · exact confirmDue_held hh hst hph
  · exact accepted_schedules rfl ha (run_stepConfirm_marked hs hm hr)
  · exact accepted_works rfl ha (run_stepClose hs hm hc hf)
  · exact accepted_schedules rfl ha (run_stepClose_marked hs hm hf hr)
  · exact accepted_marked rfl ha ((run_specOpen hs hr).trans (schedule_marked h2 hp))
  · exact accepted_done rfl ha (run_specAbandon hw hj)
  · exact accepted_done rfl ha (congrArg (Prod.mk _) (writeBuf_accepted ha _))

end Sys2Proof.Machine

namespace Sys2Proof.Machine

open Sys2Proof

/-! ### The mark of a schedule entry (R75, R82, R84) -/

section
variable {c : Instr} {k : Nat} {i : Fin 256} {e : SchedEntry} {s t : State}

/-- The rows of marks, all alike (R75). -/
theorem exec_markRow (hc : markRowOf c = some (k, i)) (s : State) : exec c s = act (markRow k i) s := by
  unfold markRowOf at hc
  split at hc
  all_goals cases hc
  all_goals rfl

theorem gaugeLost_reachMark (e : SchedEntry) (s : State) : gaugeLost (reachMark e s) = gaugeLost s := by
  simp only [reachMark]; split <;> rfl

theorem confirmDeferred_reachMark (tag : BitVec 16) (e : SchedEntry) (s : State) :
    confirmDeferred tag (reachMark e s) = confirmDeferred tag s := by
  simp only [reachMark]; split <;> rfl

/-- The next entry due is deferred or fires. -/
theorem atMark_due (h : Due i e s) : atMark e.kind i.val s =
    if gaugeLost s && e.needsLock then .deferred (deferEntry i.val e (reachMark e s))
    else if (e.kind == 2 || e.kind == 3) && confirmDeferred e.tag s then .deferred (deferEntry i.val e (reachMark e s))
    else .fire e (markLate e (reachMark e s)) (consume i.val e (reachMark e s)) := by
  have hgo : ¬(e.kind ≠ e.kind ∨ e.deferred = true ∨ s.gg.beat.toNat < e.beat.toNat ∨ (!operational s) = true
      ∨ s.gg.sched.any (fun x => !x.2.deferred && schedBefore x.1 x.2 i.val e) = true ∨ resumeFirst e.beat s = true) := by
    simp only [h.fresh, h.operational, h.first, h.resumed, Nat.not_lt.mpr h.reached, ne_eq, not_true_eq_false, Bool.not_true,
      Bool.false_eq_true, or_self, not_false_eq_true]
  simp only [atMark, h.entry, if_neg hgo, gaugeLost_reachMark, confirmDeferred_reachMark]

/-- A due entry that needs the lost gauge is deferred, and its command waits (R82, R157). -/
theorem markRow_deferred (h : Due i e s) (hl : gaugeLost s = true) (hn : e.needsLock = true) :
    markRow e.kind i s = noteWait e (deferEntry i.val e (reachMark e s)) := by
  simp only [markRow, h.alive, atMark_due h, hl, hn, h.entry, Bool.and_self, Bool.false_eq_true, if_false, if_true]

/-- A due entry that runs now fires. -/
theorem markRow_runs (h : Due i e s) (hr : runsNow e s = true) :
    markRow e.kind i s = fireEntry e (markLate e (reachMark e s)) (consume i.val e (reachMark e s)) := by
  simp only [runsNow, Bool.and_eq_true, Bool.not_eq_true'] at hr
  obtain ⟨hl, hd⟩ := hr
  simp only [markRow, h.alive, atMark_due h, hl, hd, Bool.false_eq_true, if_false]

/-- A row whose index holds no entry of its kind does nothing. -/
theorem markRow_other (h : ∀ e, kvGet s.gg.sched i.val = some e → e.kind ≠ k) : markRow k i s = s := by
  have hn : atMark k i.val s = .nothing := by
    cases hg : kvGet s.gg.sched i.val with
    | none => simp only [atMark, hg]
    | some e => simp only [atMark, hg, if_pos (Or.inl (h e hg))]
  simp only [markRow, hn, ite_self]

/-- An entry that runs: the row answers its event `f`, in the state at its mark. -/
theorem answers_mark {f : State → State} (hc : markRowOf c = some (e.kind, i)) (h : Due i e s) (hr : runsNow e s = true)
    (hf : ∀ r, fireEntry e (markLate e (reachMark e s)) r = f (noteLate e (markLate e (reachMark e s)) r))
    (ht : f (atItsMark i e s) = t) : Answers c s t :=
  answers_act (exec_markRow hc s) h.awake ((markRow_runs h hr).trans ((hf _).trans ht))

end

/-! ### The event of an entry, kind by kind (R75, R167) -/

section
variable {e : SchedEntry} {late : Bool}

theorem fireEntry_confirm (hk : e.kind = 1) (s : State) : fireEntry e late s =
    runOwner e (fun n c s => (.marked, confirmDue (confirmOf' n c late) s)) (noteLate e late s) := by
  simp only [fireEntry, hk]

theorem fireEntry_windowDeadline (hk : e.kind = 2) (s : State) : fireEntry e late s = fireWindowDeadline e (noteLate e late s) := by
  simp only [fireEntry, hk]

theorem fireEntry_confirmDeadline (hk : e.kind = 3) (s : State) : fireEntry e late s = fireConfirmDeadline e (noteLate e late s) := by
  simp only [fireEntry, hk]

theorem fireEntry_close (hk : e.kind = 4) (s : State) : fireEntry e late s = runOwner e closeEffect (noteLate e late s) := by
  simp only [fireEntry, hk]

theorem fireEntry_flip (hk : e.kind = 5) (s : State) :
    fireEntry e late s = modStep (namedStep e.cmd) (fun x => { x with flipReady := true }) (noteLate e late s) := by
  simp only [fireEntry, hk]

theorem fireEntry_open (hk : e.kind = 6) (s : State) : fireEntry e late s = runOwner e openEffect (noteLate e late s) := by
  simp only [fireEntry, hk]

theorem fireEntry_windowOpen (hk : e.kind = 7) (s : State) : fireEntry e late s = runOwner e specOpenEffect (noteLate e late s) := by
  simp only [fireEntry, hk]

theorem fireEntry_refresh (hk : e.kind = 8) (hc : Entry.opcode e.cmd ≠ 0x26) (s : State) :
    fireEntry e late s = fireSimple e (refreshNamed e) (noteLate e late s) := by
  simp only [fireEntry, hk, if_neg hc]

theorem fireEntry_scrubSlot (hk : e.kind = 9) (s : State) : fireEntry e late s = fireSimple e scrubSlotBegin (noteLate e late s) := by
  simp only [fireEntry, hk]

theorem fireEntry_tension (hk : e.kind = 10) (s : State) : fireEntry e late s = fireSimple e tensionFires (noteLate e late s) := by
  simp only [fireEntry, hk]

theorem fireEntry_activation {m cid : Nat} (hk : e.kind = 11) (ho : e.owner = some (m, cid)) (s : State) :
    fireEntry e late s = activate (Fin.ofNat 64 m) cid late (noteLate e late s) := by
  simp only [fireEntry, hk, SchedEntry.holder, ho, Option.map_some]

/-- The event of an entry without an owner happens, and no command completes. -/
theorem fireSimple_unowned (ho : e.owner = none) (f : State → State) (s : State) : fireSimple e f s = f s := by
  simp only [fireSimple, SchedEntry.holder, ho, Option.map_none]

/-- The owner's effect at its mark, with its end. -/
theorem runOwner_owned {m cid : Nat} (ho : e.owner = some (m, cid)) (run : Fin 64 → Entry → State → CmdEnd × State) (s : State) :
    runOwner e run s = settleCmd (Fin.ofNat 64 m) cid (run (Fin.ofNat 64 m) e.cmd s) := by
  simp only [runOwner, SchedEntry.holder, ho, Option.map_some]

end

/-- The confirm deadline of an open step logs the end of its window (R21). -/
theorem fireConfirmDeadline_opened {e : SchedEntry} {x : Step} {s : State} (hs : stepOf (namedStep e.cmd) s = some x)
    (hp : x.phase = .opened) (hw : windowOpen (namedStep e.cmd) s = true) :
    fireConfirmDeadline e s = logErr .corrected 0x55 .step 0 0 (namedStep e.cmd) (abandonWindow s).2 := by
  simp only [fireConfirmDeadline, hs, hp, hw, Option.any_some, beq_self_eq_true, Bool.and_self, if_true]

theorem scrubSlotBegin_slot {x : ScrubSlot} {s : State} (h : s.ram.slot = some x) : scrubSlotBegin s =
    { s with ram := { s.ram with slot := some { x with active := true }, stack := s.ram.stack.map (fun u => { u with scrubbed := 0 }) } } := by
  simp only [scrubSlotBegin, h]

/-- Without a pending grant a tension slot of a locked gauge starts the ramp (R479, R482). -/
theorem tensionFires_locked {s : State} (hl : s.gg.state = .locked) (hb : atBottom s = false) (hg : s.pm.pendingGrant = none) :
    tensionFires s = rampStart s := by
  simp only [tensionFires, hl, hb, hg, ne_eq, not_true_eq_false, Bool.false_eq_true, if_false]

theorem rampStart_atTarget {s : State} (h : capTarget s ≤ s.pm.cap) : rampStart s = s := if_pos (Or.inr (Or.inl h))

theorem rampStart_rises {s : State} (hb : atBottom s = false) (hr : s.pm.ramping = false) (h : s.pm.cap < capTarget s) :
    rampStart s = { s with pm := { s.pm with
      cap := min (capTarget s) (s.pm.cap + 50), ramping := decide (min (capTarget s) (s.pm.cap + 50) < capTarget s) } } := by
  simp only [rampStart, hb, hr, Nat.not_le.mpr h, Bool.false_eq_true, or_self, if_false]
  rfl

/-- Settles O51: an entry that is due is deferred (`markRow_deferred`) or fires (`answers_mark`), and each kind's event is a lemma above. -/
theorem scheduleMarks : Obligations.ScheduleMarks := by
  refine ⟨fun c k i s hc ha => ⟨fun e h hk hl hn => ?_, fun hg => ?_, fun e hg hk => ?_⟩, fun i e s h hr => ?_⟩
  · subst hk
    exact answers_act (exec_markRow hc s) ha (markRow_deferred h hl hn)
  · exact answers_act (exec_markRow hc s) ha (markRow_other (by simp only [hg, reduceCtorEq, false_implies, implies_true]))
  · exact answers_act (exec_markRow hc s) ha (markRow_other (by simpa only [hg, Option.some.injEq, forall_eq'] using hk))
  intro b late k
  have row {c : Instr} {n : Nat} (hk : e.kind = n) (hc : markRowOf c = some (n, i)) : markRowOf c = some (e.kind, i) := hk ▸ hc
  refine ⟨fun hk hw => ?_, fun hk hw => ?_, fun x hk hs hp hw => ?_, fun hk => ?_, fun hk ho hc => ?_, fun x hk ho hx => ?_,
    fun hk ho hl hb hg _ hcap => ?_, fun hk ho hl hb hg hrm hcap => ?_, fun m cid ho => ?_⟩
  · exact answers_mark (row hk rfl) h hr (fireEntry_windowDeadline hk) (if_pos hw)
  · exact answers_mark (row hk rfl) h hr (fireEntry_windowDeadline hk) (if_neg (Bool.eq_false_iff.mp hw))
  · exact answers_mark (row hk rfl) h hr (fireEntry_confirmDeadline hk) (fireConfirmDeadline_opened hs hp hw)
  · exact answers_mark (row hk rfl) h hr (fireEntry_flip hk) rfl
  · exact answers_mark (row hk rfl) h hr (fireEntry_refresh hk hc) (fireSimple_unowned ho _ _)
  · exact answers_mark (row hk rfl) h hr (fireEntry_scrubSlot hk) ((fireSimple_unowned ho _ _).trans (scrubSlotBegin_slot hx))
  · exact answers_mark (row hk rfl) h hr (fireEntry_tension hk)
      ((fireSimple_unowned ho _ _).trans ((tensionFires_locked hl hb hg).trans (rampStart_atTarget hcap)))
  · exact answers_mark (row hk rfl) h hr (fireEntry_tension hk)
      ((fireSimple_unowned ho _ _).trans ((tensionFires_locked hl hb hg).trans (rampStart_rises hb hrm hcap)))
  intro n
  refine ⟨fun x hk hw hs hp hno hna hfree => ?_, fun hk hc hcid hm => ?_, fun hk hopen => ?_, fun hk hw => ?_, fun hk => ?_⟩
  · refine answers_mark (row hk rfl) h hr (fireEntry_confirm hk) ((runOwner_owned ho _ _).trans ?_)
    simp only [settleCmd]
    rw [confirmOf'_windowless _ hw, confirmDue_free hfree, confirmNow_plain hs hp hno hna, Fin.ofNat_val_eq_self]
  · refine answers_mark (row hk rfl) h hr (fireEntry_close hk) ((runOwner_owned ho _ _).trans ?_)
    have hn : n.val = m := Nat.mod_eq_of_lt hm
    rw [closeEffect_ok hc, hcid, hn, settleCmd]
  · refine answers_mark (row hk rfl) h hr (fireEntry_open hk) ((runOwner_owned ho _ _).trans ?_)
    rw [openEffect_ok hopen]
    rfl
  · refine answers_mark (row hk rfl) h hr (fireEntry_windowOpen hk) ((runOwner_owned ho _ _).trans ?_)
    rw [specOpenEffect_ok hw]
    rfl
  · exact answers_mark (row hk rfl) h hr (fireEntry_activation hk ho) rfl

end Sys2Proof.Machine

namespace Sys2Proof.Machine

open Sys2Proof

/-! ### The stages of a close (R391–R393) -/

/-- A search after a change that it does not see finds the changed element. -/
theorem find?_modFirst {α : Type} {p : α → Bool} {f : α → α} (h : ∀ x, p (f x) = p x) (l : List α) :
    (modFirst p f l).find? p = (l.find? p).map f := by
  induction l with
  | nil => rfl
  | cons x xs ih =>
    cases hx : p x with
    | true => simp only [modFirst, hx, h, List.find?_cons_of_pos, Option.map_some, if_true]
    | false => simp only [modFirst, hx, Bool.false_eq_true, if_false, not_false_eq_true, List.find?_cons_of_neg, ih]

/-- A change of step `n` that keeps its number is what step `n` then shows. -/
theorem stepOf_modStep {n : Nat} {f : Step → Step} (h : ∀ x, (f x).num = x.num) (s : State) :
    stepOf n (modStep n f s) = (stepOf n s).map f :=
  find?_modFirst (fun x => by rw [h]) _

theorem modStep_id (n : Nat) (s : State) : modStep n (fun x => x) s = s := by
  simp only [modStep, modStp, modFirst_id]

section
variable {st : Step} {s : State}

/-- The row of a stage does what the stage does while the close goes on. -/
theorem answers_close {c : Instr} {f : State → State} {k : Nat} {t : State} (hx : exec c s = act (closeRow f) s) (h : Closing k st s)
    (ht : f s = t) : Answers c s t :=
  answers_act hx h.awake ((if_pos h.runs).trans ht)

theorem closeStage1_gathering (h : closingOf s = some (st, 1))
    (hg : s.tl.hooks.any (fun x => !x.spec && x.stepValid && x.step == st.num) = true) : closeStage1 s = s := by
  simp only [closeStage1, h, hg, if_true]

theorem closeStage1_ends (h : closingOf s = some (st, 1))
    (hg : s.tl.hooks.any (fun x => !x.spec && x.stepValid && x.step == st.num) = false)
    (hs : s.pu.slots.any (fun u => u.step == st.num) = false) : closeStage1 s =
      closeWait st (some resCredits) (stageEnd st.num 1 st.applied st.parked s.pu.store.length (closeWait st none s)) := by
  simp only [closeStage1, h, hg, hs, Bool.false_eq_true, if_false]

theorem closeStage2_eq (h : closingOf s = some (st, 2)) : closeStage2 s =
    if allAcked st.num s && (peerSet s).all (fun d => s.stp.drainsIn.contains (d, st.num)) then
      stageEnd st.num 2 st.acked st.inApplied st.dups (closeWait st none s)
    else s := by
  simp only [closeStage2, h]

theorem closeStage3_checks (h : closingOf s = some (st, 3)) (hr : s.rst.recountDone = true) (hc : s.ty.check = none) :
    closeStage3 s = checkBegin (.close st.num) s := by
  simp only [closeStage3, h, hr, hc, Bool.not_true, Bool.false_eq_true, if_false]

theorem closeStage3_recounting (h : closingOf s = some (st, 3)) (hr : s.rst.recountDone = false) : closeStage3 s = s := by
  simp only [closeStage3, h, hr, Bool.not_false, if_true]

/-- With no accumulator of the step left, stage 4 converts nothing and ends (R388). -/
theorem closeStage4_ends (h : closingOf s = some (st, 4)) (ha : ∀ a ∈ s.pu.accums, a.step ≠ st.num) : closeStage4 s =
    stageEnd st.num 4 ((stepOf st.num s).getD st).converted ((stepOf st.num s).getD st).elements
      (s.pu.fellTables.filter (fun x => x.1 == st.num)).length s := by
  have hn : s.pu.accums.filter (fun a => a.step == st.num) = [] :=
    List.filter_eq_nil_iff.mpr (fun a m => by simpa only [beq_iff_eq] using ha a m)
  have hany : s.pu.accums.any (fun a => a.step == st.num) = false :=
    List.any_eq_false.mpr (fun a m => by simpa only [beq_iff_eq] using ha a m)
  simp only [closeStage4, h, hn, hany, List.foldl_nil, Bool.false_eq_true, if_false]

theorem refreshReplicas_none (h : s.tbl.replicas = []) (cls : Fin 4) : refreshReplicas cls s = ((0, false), s) := by
  simp only [refreshReplicas, h, List.length_nil, List.range_zero, List.foldl_nil]

/-- With no replica, stage 5 rewrites nothing and ends (R209). -/
theorem closeStage5_ends (h : closingOf s = some (st, 5)) (hr : s.tbl.replicas = []) :
    closeStage5 s = stageEnd st.num 5 st.rewritten 0 0 s := by
  simp only [closeStage5, h, refreshReplicas_none hr, Nat.add_zero, modStep_id, Bool.false_eq_true, if_false]

theorem closeStage6_waits (h : closingOf s = some (st, 6)) (hf : st.flipReady = false) : closeStage6 s = s := by
  simp only [closeStage6, h, hf, Bool.not_false, if_true]

/-- The state whose closed step is `n`, without the drains of the steps before it (R391). -/
def flipped (n : Nat) (s : State) : State :=
  { s with stp := { s.stp with
    closed := n, drainsIn := s.stp.drainsIn.filter (fun d => decide (n ≤ d.2)), drainsOut := s.stp.drainsOut.filter (fun d => decide (n ≤ d.2)) } }

/-- With no held update, the flip brings none into service (R20). -/
theorem flipStep_noHeld (n : Nat) (hh : s.pu.held = []) :
    flipStep n s = modStep n (fun x => { x with heldApplied := 0 }) (flipped n s) := by
  have hp : modPurl (fun p => { p with held := [] }) (flipped n s) = flipped n s := by
    show { flipped n s with pu := { s.pu with held := [] } } = _
    rw [← hh]
    rfl
  calc flipStep n s = s.pu.held.foldl (fun s u => applyInbound u s)
        (modStep n (fun x => { x with heldApplied := s.pu.held.length }) (modPurl (fun p => { p with held := [] }) (flipped n s))) := rfl
    _ = _ := by rw [hh, hp]; rfl

/-- A live step whose count of held updates has been reset shows none. -/
theorem heldApplied_reset (n : Nat) (s : State) :
    ((stepOf n (modStep n (fun x => { x with heldApplied := 0 }) s)).map (·.heldApplied)).getD 0 = 0 := by
  rw [stepOf_modStep (f := fun x => { x with heldApplied := 0 }) (fun _ => rfl)]
  cases stepOf n s <;> rfl

/-- With no held update and none of the next step on its way, stage 6 flips and ends (R75, R391). -/
theorem closeStage6_ends (h : closingOf s = some (st, 6)) (hf : st.flipReady = true) (hc : s.stp.closed ≠ st.num) (hh : s.pu.held = [])
    (hi : ∀ u ∈ s.pu.inbound, u.step ≠ st.num + 1) :
    closeStage6 s = stageEnd st.num 6 st.num 0 0 (modStep st.num (fun x => { x with heldApplied := 0 }) (flipped st.num s)) := by
  have hany : (modStep st.num (fun x => { x with heldApplied := 0 }) (flipped st.num s)).pu.inbound.any (fun u => u.step == st.num + 1)
      = false :=
    List.any_eq_false.mpr (fun u m => by simpa only [beq_iff_eq] using hi u m)
  simp only [closeStage6, h, hf, if_neg hc, flipStep_noHeld _ hh, hany, heldApplied_reset, Bool.not_true, Bool.false_eq_true, if_false]

theorem clearHot_noTables (h : s.tbl.tables = []) : clearHot s = s := by
  rw [clearHot, h, List.foldl_nil]

theorem writeReadMostly_noTables (h : s.tbl.tables = []) : writeReadMostly s = s := by
  rw [writeReadMostly, h, List.foldl_nil]

theorem writeStepRecord_noDrive (n : Nat) (h : ∀ p : Fin 4, (s.res.drives[p]).usable = false) :
    writeStepRecord n s = (BitVec.allOnes 64, s) := by
  have hp : (List.finRange 4).filter (fun p => (s.res.drives[p]).usable) = [] :=
    List.filter_eq_nil_iff.mpr (fun p _ => by simp only [h p, Bool.false_eq_true, not_false_eq_true])
  simp only [writeStepRecord, hp, List.foldl_nil]

/-- The journal's END record of stage 7 without a step record on a drive (R108, R393). -/
def endOfStage7 (n : Nat) (s : State) : State := stepJournal 2 7 n (BitVec.allOnes 64) 0 0 s

/-- The release of stage 7: the step and what it kept are gone (R391). -/
def releaseStep (n : Nat) (s : State) : State :=
  { s with
    stp := { s.stp with live := s.stp.live.filter (fun y => y.num != n) }
    pu := { s.pu with fellRows := s.pu.fellRows.filter (fun x => x.1 != n), fellTables := s.pu.fellTables.filter (fun x => x.1 != n) }
    rst := { s.rst with closePending := false } }

/-- The totals in the END record of stage `k` of step `n`. -/
def stageTotals (n k : Nat) (s : State) : Option (Nat × Nat × Nat) :=
  (endRecord n k s).map (fun r => (r.a.toNat, r.b.toNat, r.c.toNat))

/-- RESULT0 of STEP_CLOSE: the totals of stage 1. -/
def closeResult0 (n : Nat) (s : State) : W64 :=
  ((stageTotals n 1 s).map (fun x => BitVec.ofNat 64 (satTo 32 x.1 + satTo 32 x.2.1 * 2 ^ 32))).getD 0

/-- RESULT1 of STEP_CLOSE: the updates that fell back in stage 4, and the damage mark. -/
def closeResult1 (n : Nat) (damaged : Bool) (s : State) : W64 :=
  BitVec.ofNat 64 (satTo 32 (((stageTotals n 4 s).map (fun x => x.2.2)).getD 0) + 2 ^ 32 * b2n damaged)

/-- The STEP_CLOSE of a closed step completes, unless a reset has ended it. -/
def answerCloser (st : Step) (r0 r1 : W64) (s : State) : State :=
  match st.closer with
  | some o => complete (Fin.ofNat 64 o.1) o.2 stOK 0 r0 r1 s
  | none => s

/-- A confirm that was held for a close takes effect once no live step holds it (R23). -/
def takeHeldConfirm (s : State) : State :=
  match s.stp.heldConfirm with
  | some h => if confirmHeld h.step s then s else confirmNow h (modStp (fun x => { x with heldConfirm := none }) s)
  | none => s

/-- Without tables and drives, stage 7 writes its record, releases the step, answers the close and takes the held confirm. -/
theorem closeStage7_eq (h : closingOf s = some (st, 7)) (ht : s.tbl.tables = []) (hd : ∀ p : Fin 4, (s.res.drives[p]).usable = false) :
    closeStage7 s = takeHeldConfirm (answerCloser st (closeResult0 st.num (endOfStage7 st.num s))
      (closeResult1 st.num st.damaged (endOfStage7 st.num s)) (releaseStep st.num (endOfStage7 st.num s))) := by
  simp only [closeStage7, h, clearHot_noTables ht, writeReadMostly_noTables ht, writeStepRecord_noDrive _ hd, closeResult0, closeResult1,
    stageTotals, endOfStage7]
  cases endRecord st.num 1 (stepJournal 2 7 st.num (BitVec.allOnes 64) 0 0 s) <;>
    cases endRecord st.num 4 (stepJournal 2 7 st.num (BitVec.allOnes 64) 0 0 s) <;> rfl

theorem takeHeldConfirm_none (h : s.stp.heldConfirm = none) : takeHeldConfirm s = s := by
  simp only [takeHeldConfirm, h]

theorem answerCloser_stp (st : Step) (r0 r1 : W64) (s : State) : (answerCloser st r0 r1 s).stp = s.stp := by
  simp only [answerCloser]
  split
  · exact complete_stp _ _ _ _ _ _ _
  · rfl

/-- With no confirm held, stage 7 ends with the answer to the close. -/
theorem closeStage7_ends (h : closingOf s = some (st, 7)) (ht : s.tbl.tables = []) (hd : ∀ p : Fin 4, (s.res.drives[p]).usable = false)
    (hc : s.stp.heldConfirm = none) :
    closeStage7 s = answerCloser st (closeResult0 st.num (endOfStage7 st.num s)) (closeResult1 st.num st.damaged (endOfStage7 st.num s))
      (releaseStep st.num (endOfStage7 st.num s)) := by
  rw [closeStage7_eq h ht hd]
  exact takeHeldConfirm_none (by rw [answerCloser_stp]; exact hc)

end

/-- Settles O57: each stage's end is a lemma above, carried to its row by `answers_close`. -/
theorem closeStages : Obligations.CloseStages := by
  intro st s n
  refine ⟨fun h => ⟨fun hg => ?_, fun hg hs => ?_⟩, fun h => ⟨fun hd => ?_, fun hd => ?_⟩, fun h => ⟨fun hr hc => ?_, fun hr => ?_⟩,
    fun h ha => ?_, fun h hr => ?_, fun h => ⟨fun hf => ?_, fun hf hc hh hi => ?_⟩, fun h ht hd hc => ⟨fun ho => ?_, fun m cid ho => ?_⟩⟩
  · exact answers_close rfl h (closeStage1_gathering h.stage hg)
  · exact answers_close rfl h (closeStage1_ends h.stage hg hs)
  · exact answers_close rfl h ((closeStage2_eq h.stage).trans (if_pos hd))
  · exact answers_close rfl h ((closeStage2_eq h.stage).trans (if_neg (Bool.eq_false_iff.mp hd)))
  · exact answers_close rfl h (closeStage3_checks h.stage hr hc)
  · exact answers_close rfl h (closeStage3_recounting h.stage hr)
  · exact answers_close rfl h (closeStage4_ends h.stage ha)
  · exact answers_close rfl h (closeStage5_ends h.stage hr)
  · exact answers_close rfl h (closeStage6_waits h.stage hf)
  · exact answers_close rfl h (closeStage6_ends h.stage hf hc hh hi)
  · refine answers_close rfl h ((closeStage7_ends h.stage ht hd hc).trans ?_)
    rw [answerCloser, ho]
    rfl
  · refine answers_close rfl h ((closeStage7_ends h.stage ht hd hc).trans ?_)
    rw [answerCloser, ho]
    rfl

end Sys2Proof.Machine

namespace Sys2Proof.Machine

open Sys2Proof

/-! ### The stitch-queue instances (R45–R64) -/

@[simp] theorem sqGet_sqPut (id : Nat) (x : SqInst) (s : State) : sqGet id (sqPut id x s) = x := by
  simp only [sqGet, sqPut, kvGet_kvSet, Option.getD_some]

/-- A drained instance is EMPTY (R60). -/
theorem packets_sqDrain (id : Nat) (s : State) : (sqGet id (sqDrain id s)).packets = [] := by
  simp only [sqDrain, sqGet_sqPut]

section
variable {id : Nat} {s : State} (ok : sqIdOk id = true)
include ok

/-- A commit of 1 to 64 words: a pending flush goes first, then the depth is looked at (R47, R48, R54). -/
theorem sqCommit_packet {words : List W64} (h0 : 0 < words.length) (h64 : words.length ≤ 64) : sqCommit id words s =
    if (sqGet id s).flushPending then emit (.sqFlushed id) (sqPut id (sqGet id s).frog.flush s)
    else if 2 ^ sqDepthLog id < (sqGet id s).occupancy + words.length then s
    else
      let y : SqInst := { sqGet id s with packets := (sqGet id s).packets ++ [⟨words, words.length, sqEpoch id s, false⟩] }
      let w := sqWater id y.occupancy
      emit (.sqCommitted id (sqEpoch id s))
        (sqPut id { y with highWater := if y.highWater.toNat < w then BitVec.ofNat 8 w else y.highWater } s) := by
  have hl : ¬(words.length = 0 ∨ 64 < words.length) := by omega
  rw [sqCommit, ok, decide_eq_false hl]
  rfl

theorem sqBad_packet : sqBad id s =
    if (sqGet id s).flushPending then emit (.sqFlushed id) (sqPut id (sqGet id s).frog.flush s) else sqPut id (sqGet id s).frog s := by
  rw [sqBad, ok]
  rfl

theorem sqFlushRequest_pending : sqFlushRequest id s = sqPut id { sqGet id s with flushPending := true } s := if_pos ok

theorem sqFlushEffect_boundary : sqFlushEffect id s = if (sqGet id s).flushPending then sqPut id (sqGet id s).flush s else s := by
  rw [sqFlushEffect, ok, Bool.true_and]

section
variable {p : SqPacket} {ps : List SqPacket} {w : W64} {ws : List W64}

/-- A double-bit error discards the packet in which it is met and logs it (R63). -/
theorem sqRead_double (hp : (sqGet id s).packets = p :: ps) (hw : p.words = w :: ws) : sqRead id .double s =
    logErr (sqErrClass id) 0x61 (sqScope id) id p.size 0 (emit (.sqDiscarded id)
      (sqPut id { sqGet id s with packets := ps, uncorrectable := satInc (sqGet id s).uncorrectable, tailRun := 0 } s)) := by
  simp only [sqRead, ok, hp, hw, Bool.not_true, Bool.false_eq_true, if_false, if_true]

/-- A read without a double-bit error delivers the oldest word, unless it is the header of an idle item in stall mode (R49, R59, R63). -/
theorem sqRead_word {fault : SqFault} (hf : fault ≠ .double) (hp : (sqGet id s).packets = p :: ps) (hw : p.words = w :: ws)
    (hd : p.opened = true ∨ Config.sqIdle id = true ∨ w.toNat / 2 ^ 56 ≠ 0xFF) : sqRead id fault s =
    emit (.sqWord id w p.epoch) (sqPut id { sqGet id s with
      tailRun := 0
      corrected := if fault = .single then satInc (sqGet id s).corrected else (sqGet id s).corrected
      packets := if ws = [] then ps else { p with words := ws, opened := true } :: ps } s) := by
  have header : (!p.opened && !Config.sqIdle id && decide (w.toNat / 2 ^ 56 = 0xFF)) = false := by
    rcases hd with h | h | h
    · rw [h]; rfl
    · rw [h, Bool.not_true, Bool.and_false, Bool.false_and]
    · rw [decide_eq_false h, Bool.and_false]
  simp only [sqRead, ok, hp, hw, header, if_neg hf, List.isEmpty_iff, Bool.not_true, Bool.false_eq_true, if_false]

end

/-- The stale-tail timer of an instance with packets signals TAIL, and logs nothing before the 16th firing without a read (R60, R61). -/
theorem sqTimeout_signals {t : State} (canRead : Bool) (hp : (sqGet id s).packets ≠ []) (he : sqTailExp id s ≠ 255)
    (hr : (sqGet id s).tailRun ≠ 15)
    (ht : emit (.sqTail id) (sqPut id { sqGet id s with
      tailFired := satInc (sqGet id s).tailFired, tailRun := (sqGet id s).tailRun + 1 } s) = t) :
    sqTimeout id canRead s = if canRead then sqDrain id t else t := by
  have unlogged : (sqGet id s).tailRun + 1 ≠ 16 := fun h => hr (Nat.succ.inj h)
  have runs : (!sqIdOk id || (sqGet id s).packets.isEmpty || sqTailExp id s == 255) = false := by
    rw [ok, List.isEmpty_eq_false_iff.mpr hp, beq_false_of_ne he]; rfl
  simp only [sqTimeout, runs, if_neg unlogged, ht, Bool.false_eq_true, if_false]

end

/-- Settles O49: what each event does to its instance is a lemma above, and `answers_act` carries it to its row. -/
theorem stitchQueues : Obligations.StitchQueues := by
  intro i s awake ok id x flushed
  refine ⟨fun words h0 h64 => ⟨fun hf fits => ?_, fun hf full => ?_, fun hf => ?_⟩, fun hf => ?_, fun hf => ?_, ?_, fun hf => ?_, fun hf => ?_,
    fun p ps w ws hp hw hd => ⟨?_, ?_, ?_⟩, fun p ps hp he hr => ?_⟩
  · exact answers_act rfl awake
      ((sqCommit_packet ok h0 h64).trans ((if_neg (Bool.eq_false_iff.mp hf)).trans (if_neg (Nat.not_lt.mpr fits))))
  · exact answers_act rfl awake ((sqCommit_packet ok h0 h64).trans ((if_neg (Bool.eq_false_iff.mp hf)).trans (if_pos full)))
  · exact answers_act rfl awake ((sqCommit_packet ok h0 h64).trans (if_pos hf))
  · exact answers_act rfl awake ((sqBad_packet ok).trans (if_neg (Bool.eq_false_iff.mp hf)))
  · exact answers_act rfl awake ((sqBad_packet ok).trans (if_pos hf))
  · exact answers_act rfl awake (sqFlushRequest_pending ok)
  · exact answers_act rfl awake ((sqFlushEffect_boundary ok).trans (if_pos hf))
  · exact answers_act rfl awake ((sqFlushEffect_boundary ok).trans (if_neg (Bool.eq_false_iff.mp hf)))
  · exact answers_act rfl awake (sqRead_word ok (fault := .none) nofun hp hw hd)
  · exact answers_act rfl awake (sqRead_word ok (fault := .single) nofun hp hw hd)
  · exact answers_act rfl awake (sqRead_double ok hp hw)
  · intro t
    have signals := fun canRead => sqTimeout_signals ok canRead (hp ▸ List.cons_ne_nil p ps) he hr (t := t) rfl
    exact ⟨answers_act rfl awake (signals false), answers_act rfl awake (signals true), packets_sqDrain id t⟩

end Sys2Proof.Machine

namespace Sys2Proof.Machine

open Sys2Proof

/-! ### What reset leaves (O6) -/

/-- Settles O6: the units' reset values are literals, and a vector's elements are all the one it repeats. -/
theorem resetState : Obligations.ResetState := by
  have queuePair (n : Fin 64) : State.reset.mb.qps[n] = {} := by
    simp only [State.reset, Fin.getElem_fin, Vector.getElem_replicate]
  have vector (v : Fin 128) : (State.reset.hl.msix[v]).mask = true := by
    simp only [State.reset, Fin.getElem_fin, Vector.getElem_replicate]
  refine ⟨rfl, rfl, fun n => ?_, rfl, rfl, rfl, rfl, rfl, rfl, rfl, vector, rfl, rfl, rfl, rfl, rfl, rfl, rfl⟩
  rw [queuePair n]
  exact ⟨rfl, rfl, rfl⟩

end Sys2Proof.Machine

namespace Sys2Proof.Machine

open Sys2Proof

/-! ### The gauge receiver (R78–R88) -/

section
variable {s : State}

theorem setGState_new {old new : GState} (h : s.gg.state = old) (hn : old ≠ new) :
    setGState new s = raise 72 { s with gg := { s.gg with state := new } } := if_neg (h ▸ hn)

theorem setSrc_state (g : Gauge) (i : Nat) (x : GaugeSource) : (g.setSrc i x).state = g.state := by
  rw [Gauge.setSrc]; split <;> rfl

theorem setSrc_cfg (g : Gauge) (i : Nat) (x : GaugeSource) : (g.setSrc i x).cfg = g.cfg := by
  rw [Gauge.setSrc]; split <;> rfl

theorem setSrc_beat (g : Gauge) (i : Nat) (x : GaugeSource) : (g.setSrc i x).beat = g.beat := by
  rw [Gauge.setSrc]; split <;> rfl

theorem withOrigin_sameBeat {f : State → State} (h : (f s).gg.beat = s.gg.beat) : withOrigin f s = f s := if_neg (not_not_intro h)

/-- With the gauge not lost, no beat number is too low (R87). -/
theorem lowerNumber_kept (num : W64) (h : gaugeLost s = false) : lowerNumber num s = false := by
  rw [lowerNumber, h, Bool.false_and, Bool.false_and]

theorem gaugeLost_unlocked (h : s.gg.state = .unlocked) : gaugeLost s = false := by
  rw [gaugeLost, h]

section
variable {i : Nat} {num : W64} {since : Nat} {off : Int} (used : sourceUsed s.gg.cfg i = true) (op : operational s = true)
include used op

/-- An edge of the selected source at its time and with the next number becomes the beat (R78). -/
theorem gaugeEdge_locked (hl : s.gg.state = .locked) (hi : i = s.gg.selected)
    (he : edgeOk s.gg.cfg.rate (s.gg.src i) since = true) (hn : num = (s.gg.src i).num + 1) : gaugeEdge i true num since off s =
    { s with gg := { s.gg.setSrc i { s.gg.src i with
        num := num, periods := (since :: (s.gg.src i).periods).take 16, run := 16, agrees := true } with beat := num, phase := 0 } } := by
  simp only [gaugeEdge, used, op, if_pos (And.intro hl hi), he, ← hn, ne_eq, not_true_eq_false, Bool.and_self, Bool.not_true,
    Bool.false_eq_true, if_false]

/-- An edge that is not accepted ends its source's run (R78). -/
theorem gaugeEdge_rejected (hl : s.gg.state ≠ .locked) :
    gaugeEdge i false num since off s = { s with gg := s.gg.setSrc i (s.gg.src i).bad } := by
  simp only [gaugeEdge, used, op, hl, Bool.and_self, Bool.not_true, Bool.not_false, Bool.false_eq_true, false_and, if_false, if_true]

/-- The first accepted edge of an unlocked receiver starts LOCKING (R78). -/
theorem gaugeEdge_unlocked (hu : s.gg.state = .unlocked) : gaugeEdge i true num since off s =
    setGState .locking { s with gg := { s.gg.setSrc i { (s.gg.src i).good s.gg.cfg.rate num since with
      agrees := decide (-100000 ≤ off ∧ off ≤ 100000)
        && decide (num.toNat ≤ s.gg.beat.toNat + 1 ∧ s.gg.beat.toNat ≤ num.toNat + 1) } with lost := false } } := by
  simp only [gaugeEdge, used, op, hu, setSrc_state, lowerNumber_kept num (gaugeLost_unlocked hu), reduceCtorEq, Bool.and_self,
    Bool.and_false, Bool.not_true, Bool.false_eq_true, false_and, if_false]

end

/-- With the gauge kept, the receiver locks on the number of its source, and no entry's mark was jumped over (R78, R86). -/
theorem gaugeLock_locks {i : Nat} (hs : s.gg.state = .locking) (hk : gaugeLost s = false) (hi : lockSource s.gg = some i) :
    gaugeLock s = setGState .locked { s with gg := { s.gg with
      beat := (s.gg.src i).num, phase := 0, selected := i, lost := false, everLocked := true, rebase := false, rejected := 0, holdBeats := 0
      resume := some (BitVec.ofNat 64 (((s.gg.src i).num.toNat / 256 + 1) * 256)) } } := by
  have kept : lockedBeat (s.gg.src i).num s = (s.gg.src i).num := by
    rw [lockedBeat, hk, Bool.false_and, if_neg Bool.false_ne_true]
  have none_jumped : s.gg.sched.filter (fun _ => false) = [] := List.filter_eq_nil_iff.mpr (fun _ _ => Bool.false_ne_true)
  simp only [gaugeLock, hs, hi, hk, kept, ne_eq, not_true_eq_false, if_false, Bool.false_eq_true, false_and, decide_false, Bool.false_and,
    none_jumped, schedSorted, List.foldl_nil, ite_self]

theorem missingEdge_selected {i : Fin 2} (op : operational s = true) (hl : s.gg.state = .locked) (hi : i.val = s.gg.selected) :
    missingEdge i s = misbehave 2 s := by
  simp only [missingEdge, op, if_pos (And.intro hl hi), Bool.not_true, Bool.false_eq_true, if_false]

theorem missingEdge_unlocked {i : Fin 2} (op : operational s = true) (used : sourceUsed s.gg.cfg i.val = true) (hl : s.gg.state ≠ .locked) :
    missingEdge i s = { s with gg := s.gg.setSrc i.val (s.gg.src i.val).bad } := by
  simp only [missingEdge, op, used, hl, Bool.not_true, Bool.false_eq_true, false_and, if_false, if_true]

theorem localBeatRow_unlocked (op : operational s = true) (hl : s.gg.state ≠ .locked) : localBeatRow s = { s with gg := { s.gg with
    beat := s.gg.beat + 1, phase := 0, holdBeats := if gaugeLost s then satInc s.gg.holdBeats else s.gg.holdBeats } } := by
  rw [localBeatRow, if_pos op, localBeat, if_neg hl]
  cases gaugeLost s <;> rfl

/-- At holdover beat 1,000, with no step confirm deferred, only the receiver's state changes (R81, R84). -/
theorem holdover1000_freeRun (hs : s.gg.state = .holdover) (h1000 : 1000 ≤ s.gg.holdBeats.toNat)
    (hd : ∀ x ∈ s.gg.sched, x.2.kind = 1 → x.2.deferred = false) : holdover1000 s = setGState .freeRun s := by
  have lost : gaugeLost s = true := by rw [gaugeLost, hs]
  have no_confirms : deferredConfirms s = [] := by
    refine List.filter_eq_nil_iff.mpr (fun x hx hc => ?_)
    simp only [Bool.and_eq_true, beq_iff_eq] at hc
    exact Bool.false_ne_true ((hd x hx hc.1).symm.trans hc.2)
  simp only [holdover1000, lost, hs, no_confirms, Nat.not_lt.mpr h1000, Bool.not_true, Bool.false_eq_true, or_self, if_false, if_true,
    List.foldl_nil, ite_self]

/-- At the resume mark, with no entry due before it, the deferred events run late in the order of their marks (R83). -/
theorem resumeMark_runs {r : W64} (hr : s.gg.resume = some r) (hl : s.gg.state = .locked) (hb : r.toNat ≤ s.gg.beat.toNat)
    (hf : s.er.fatal = false) (hd : ∀ x ∈ s.gg.sched, x.2.deferred = false → r.toNat ≤ x.2.beat.toNat) : resumeMark s =
    (schedSorted (s.gg.sched.filter (fun x => x.2.deferred))).foldl runLate { s with gg := { s.gg with resume := none } } := by
  have none_before : s.gg.sched.any (fun x => !x.2.deferred && decide (x.2.beat.toNat < r.toNat)) = false := by
    refine List.any_eq_false.mpr (fun x hx hc => ?_)
    simp only [Bool.and_eq_true, Bool.not_eq_true', decide_eq_true_eq] at hc
    exact Nat.not_lt.mpr (hd x hx hc.1) hc.2
  simp only [resumeMark, hr, hl, hf, none_before, Nat.not_lt.mpr hb, ne_eq, not_true_eq_false, Bool.false_eq_true, or_self, if_false]

/-- A row that may move the beat answers its effect, and the root of the in-band gauge sends the moved beat on (R69). -/
theorem answers_withOrigin {c : Instr} {f : State → State} {t : State} (hx : exec c s = act (withOrigin f) s) (h : awake s = true)
    (ht : f s = t) : Answers c s (if t.gg.beat ≠ s.gg.beat then gaugeOriginate t else t) :=
  answers_act hx h (ht ▸ rfl)

/-- A row that may move the beat, where it does not. -/
theorem answers_sameBeat {c : Instr} {f : State → State} {t : State} (hx : exec c s = act (withOrigin f) s) (h : awake s = true)
    (ht : f s = t) (hb : t.gg.beat = s.gg.beat) : Answers c s t :=
  answers_act hx h ((withOrigin_sameBeat (ht ▸ hb)).trans ht)

end

/-- Settles O50: each event of the receiver is a lemma above, carried to its row by `answers_withOrigin`, `answers_sameBeat` where the beat
stays, or `answers_act` where it cannot move. -/
theorem gaugeReceiver : Obligations.GaugeReceiver := by
  intro s awake op g c passedOn
  refine ⟨fun f since off used => ⟨fun hl hsel he hok hn => ?_, fun hu hok => ?_, fun hl hbad => ?_⟩, fun i hs hk hf hi => ?_,
    fun i used => ⟨fun hl hi => ?_, fun hl => ?_⟩, fun hl => ?_, fun hs h1000 hf hd => ?_, fun r hr hl hb hf hd => ?_⟩
  · refine answers_withOrigin rfl awake ?_
    rw [gwordFrame, hok]
    exact gaugeEdge_locked used op hl hsel.symm he hn
  · refine answers_sameBeat rfl awake ?_ (by rw [raise_gg])
    rw [gwordFrame, hok]
    exact (gaugeEdge_unlocked used op hu).trans (setGState_new hu nofun)
  · refine answers_sameBeat rfl awake ?_ rfl
    rw [gwordFrame, hbad]
    exact gaugeEdge_rejected used op hl
  · exact answers_withOrigin rfl awake ((gaugeLock_locks hs hk hi).trans (setGState_new hs nofun))
  · exact answers_withOrigin rfl awake (missingEdge_selected op hl hi)
  · exact answers_sameBeat rfl awake (missingEdge_unlocked op used hl) (setSrc_beat _ _ _)
  · exact answers_withOrigin rfl awake (localBeatRow_unlocked op hl)
  · exact answers_act rfl awake ((holdover1000_freeRun hs h1000 hd).trans (setGState_new hs nofun))
  · exact answers_act rfl awake (resumeMark_runs hr hl hb hf hd)

end Sys2Proof.Machine

namespace Sys2Proof.Machine

open Sys2Proof

/-! ### The gauge and schedule commands (R76, R79, R168, R189, R275) -/

section
variable {n : Fin 64} {e : Entry} {s : State}

theorem run_gaugeConfig (h : s.gg.sched = []) :
    cmdGaugeConfig.run n e s = (okEnd 0 0, { s with gg := { s.gg with cfg := gaugeConfigOf e } }) := by
  simp only [cmdGaugeConfig, h, List.isEmpty_nil, Bool.not_true, Bool.false_eq_true, if_false]

theorem run_schedCancel {x : SchedEntry} (h : kvGet s.gg.sched (efld e 8 1) = some x) (hk : x.kind = efld e 9 1)
    (hb : x.beat.toNat = efld e 16 8) : cmdSchedCancel.run n e s = (okEnd 0 0, schedRemove (efld e 8 1) x s) := by
  simp only [cmdSchedCancel, h, if_pos (And.intro hk hb)]

/-- The periodic entry of a command is accepted without an owner, and the command ends with its index (R168). -/
theorem schedule_periodic {x : SchedEntry} {i : Nat} (hr : schedRefusal [x] s = none) (hp : x.periodic = true)
    (hi : kvFree s.gg.sched 0 256 = some i) : schedule [x] s = (okEnd i 0, schedPut s { x with owner := none }) := by
  simp only [schedule, hr, hp, hi, Option.getD_some, if_true, List.map_cons, List.map_nil, List.foldl_cons, List.foldl_nil]

/-- With no scrub slot in being, SCRUB_SLOT schedules its entry and keeps its slot (R275). -/
theorem run_scrubSlot {i : Nat} {r : CmdEnd} {t : State} (hn : s.ram.slot = none) (hk : ∀ x ∈ s.gg.sched, x.2.kind ≠ 9)
    (hi : kvFree s.gg.sched 0 256 = some i) (hr : schedule [ownEntry n e 9 0] s = (r, t)) (hok : ∀ st sub r0, r ≠ .fail st sub r0) :
    cmdScrubSlot.run n e s = (r, { t with ram := { t.ram with slot := some ⟨i, Entry.periodic e, efld e 8 4,
      if Entry.periodic e then scrubQuota (Entry.period e).toNat s.gg.cfg.rate (efld e 12 4) else 0, false⟩ } }) := by
  have none_slotted : s.gg.sched.any (fun x => x.2.kind == 9) = false :=
    List.any_eq_false.mpr (fun x hx => by simpa only [beq_iff_eq] using hk x hx)
  simp only [cmdScrubSlot, hn, none_slotted, hi, hr, Option.isSome_none, Bool.false_eq_true, or_self, if_false, Option.getD_some]

end

/-- Settles O42: each command's run is a `run_` lemma or plain, and the `accepted_` lemmas carry it to the row's answer. -/
theorem gaugeCommands : Obligations.GaugeCommands := by
  intro n e s b
  refine ⟨fun ha hs => ?_, fun ha => ?_, fun ha => ?_, fun x ha hx hk hb => ?_, fun ha => ?_,
    fun i ha hn hk hi hr => ⟨fun hp => ?_, fun hp => ?_⟩⟩
  · exact accepted_done rfl ha (run_gaugeConfig hs)
  · exact accepted_done rfl ha rfl
  · exact accepted_done rfl ha (congrArg (Prod.mk _) (writeBuf_accepted ha _))
  · exact accepted_done rfl ha (run_schedCancel hx hk hb)
  · exact accepted_schedules rfl ha rfl
  · refine accepted_marked rfl ha ((run_scrubSlot hn hk hi (schedule_marked hr hp) nofun).trans ?_)
    rw [hp]; rfl
  · refine accepted_done rfl ha ((run_scrubSlot hn hk hi (schedule_periodic hr hp hi) nofun).trans ?_)
    rw [hp]; rfl

end Sys2Proof.Machine

namespace Sys2Proof.Machine

open Sys2Proof

/-! ### A Henur port: training, flits, replay and timers (R420–R425) -/

/-- Two changes of a port are one. -/
theorem modPort_modPort (p : Fin 9) (f g : Port → Port) (s : State) : modPort p g (modPort p f s) = modPort p (fun x => g (f x)) s := by
  simp only [modPort, modFab, vmod_vmod]

theorem modPort_port (p : Fin 9) (f : Port → Port) (s : State) : (modPort p f s).fab.ports[p] = f s.fab.ports[p] := vmod_self _ p f

/-- A change of a port is what it does to the port's present contents. -/
theorem modPort_congr {p : Fin 9} {f g : Port → Port} {s : State} (h : f s.fab.ports[p] = g s.fab.ports[p]) : modPort p f s = modPort p g s := by
  simp only [modPort, modFab, vmod, h]

/-- Sent flits of a port that are not acknowledged (R422). -/
def flitsOut (x : Port) : Nat := (x.txSeq + 1024 - x.txAck) % 1024

/-- The place of an acknowledged flit among those that are not yet acknowledged, from 1 on (R422). -/
def ackPlace (a : Fin 1024) (x : Port) : Nat := (a.val + 1 + 1024 - x.txAck) % 1024

/-- The unacknowledged flits go out again, and the replay is counted and logged (R422). -/
def replayOnce (p : Fin 9) (s : State) : State :=
  let x := s.fab.ports[p]
  logErr .corrected 0x20 .henurPort p.val x.peer (flitsOut x) (emit (.replay p x.txAck (flitsOut x))
    (modPort p (fun x => { x with replayed := satTo 32 (x.replayed + flitsOut s.fab.ports[p]), replays := x.replays + 1 }) s))

/-- A link error's NAK and its log entry (R422, R438). -/
def nakLogged (p : Fin 9) (s : State) : State :=
  let x := s.fab.ports[p]
  logErr .corrected 0x20 .henurPort p.val x.peer 0 (emit (.linkCtl p ((x.rxSeq + 1023) % 1024) true)
    (modPort p (fun x => { x with unacked := 0, nakSent := true }) s))

section
variable {p : Fin 9} {s : State}

/-- A port that trains sends its echo request to the expected peer before it can join (R70, R420). -/
theorem portTrained_measures {e : Nat} (t : W64) (hr : running s = true) (hf : s.er.fatal = false) (he : (s.fab.ports[p]).enabled = true)
    (hs : (s.fab.ports[p]).state = .training ∨ (s.fab.ports[p]).state = .down) (hx : (s.fab.ports[p]).expected = some e) :
    portTrained p t s = emit (.fabric p 4 (msgCtrl e 0x02 (mput 16 8 t.toNat 0) [] s)) (modPort p (fun x => { x with
      state := .training, plies := 0xFF, measuring := true, echo := some t.toNat, helloSent := false, txSeq := (x.txSeq + 1) % 1024 }) s) := by
  have trains : ((s.fab.ports[p]).state != .training && (s.fab.ports[p]).state != .down) = false := by
    rcases hs with h | h <;> rw [h] <;> rfl
  have rawSent (s' : State) (m : List Byte) :
      rawSend p m s' = emit (.fabric p 4 m) (modPort p (fun x => { x with txSeq := (x.txSeq + 1) % 1024 }) s') := rfl
  simp only [portTrained, hr, hf, he, trains, linkDst, modPort_port, hx, rawSent, modPort_modPort, Bool.not_true, Bool.or_self, Bool.false_eq_true,
    if_false, reduceCtorEq]
  rfl

/-- A failing ply of a port that exchanges no flits is only noted (R420). -/
theorem plyFailure_down {ply : Fin 8} (hp : (s.fab.ports[p]).plies.getLsbD ply.val = true) (hs : (s.fab.ports[p]).state = .down) :
    plyFailure p ply s = modPort p (fun x => { x with plies := (s.fab.ports[p]).plies &&& ~~~ (BitVec.twoPow 8 ply.val) }) s := by
  simp only [plyFailure, hp, hs, Bool.not_true, Bool.false_eq_true, reduceCtorEq, or_self, if_false]

theorem plyFailure_resets {ply : Fin 8} (hp : (s.fab.ports[p]).plies.getLsbD ply.val = true)
    (hs : (s.fab.ports[p]).state = .joined ∨ (s.fab.ports[p]).state = .training) :
    plyFailure p ply s = portReset p (logErr .contained 0x29 .henurPort p.val ((s.fab.ports[p]).plies &&& ~~~ (BitVec.twoPow 8 ply.val)).toNat 0
      (modPort p (fun x => { x with plies := (s.fab.ports[p]).plies &&& ~~~ (BitVec.twoPow 8 ply.val) }) s)) := by
  simp only [plyFailure, hp, if_pos hs, Bool.not_true, Bool.false_eq_true, if_false]

theorem plyFailure_failed {ply : Fin 8} (hp : (s.fab.ports[p]).plies.getLsbD ply.val = false) : plyFailure p ply s = s := by
  simp only [plyFailure, hp, Bool.not_false, if_true]

theorem takeAck_releases {a : Fin 1024} (h1 : 1 ≤ ackPlace a s.fab.ports[p]) (h2 : ackPlace a s.fab.ports[p] ≤ flitsOut s.fab.ports[p]) :
    takeAck p a.val s = pump p (modPort p (fun x => { x with txAck := (a.val + 1) % 1024, replays := 0 }) s) := by
  rw [takeAck, Nat.mod_eq_of_lt a.isLt]
  exact if_pos ⟨h1, h2⟩

/-- An ACK of no outstanding flit releases nothing (R422). -/
theorem takeAck_stale {a : Fin 1024} (h : ackPlace a s.fab.ports[p] = 0 ∨ flitsOut s.fab.ports[p] < ackPlace a s.fab.ports[p]) :
    takeAck p a.val s = s := by
  rw [takeAck, Nat.mod_eq_of_lt a.isLt]
  exact if_neg (fun hk => h.elim (Nat.ne_of_gt hk.1) (Nat.not_lt.mpr hk.2))

theorem replayFlits_none (h : flitsOut s.fab.ports[p] = 0) : replayFlits p s = s := if_pos h

theorem replayFlits_again (h : flitsOut s.fab.ports[p] ≠ 0) (hr : (s.fab.ports[p]).replays < 15) : replayFlits p s = replayOnce p s :=
  (if_neg h).trans (if_neg (by omega))

theorem replayFlits_last (h : flitsOut s.fab.ports[p] ≠ 0) (hr : 15 ≤ (s.fab.ports[p]).replays) : replayFlits p s =
    portReset p (logErr .contained 0x29 .henurPort p.val (s.fab.ports[p]).plies.toNat 0 (replayOnce p s)) :=
  (if_neg h).trans (if_pos (by omega))

theorem sendAck_ack : sendAck p false s = emit (.linkCtl p (((s.fab.ports[p]).rxSeq + 1023) % 1024) false)
    (modPort p (fun x => { x with unacked := 0 }) s) := by
  simp only [sendAck, Bool.or_false]

theorem linkError_first (h : (s.fab.ports[p]).nakSent = false) : linkError p s = nakLogged p s := by
  simp only [linkError, h, sendAck, Bool.or_true, Bool.false_eq_true, if_false]
  rfl

theorem linkError_again (h : (s.fab.ports[p]).nakSent = true) : linkError p s = s := if_pos h

theorem ackTimer_idle (h : (s.fab.ports[p]).unacked = 0) : ackTimer p s = s := by
  simp only [ackTimer, h, Nat.lt_irrefl, decide_false, Bool.and_false, Bool.false_eq_true, if_false]

section
variable (live : portLive p s = true)
include live

theorem linkControl_ack (a : Fin 1024) : linkControl p a true false s = takeAck p a.val s := if_pos live

/-- A NAK acknowledges what its ACK part names, and the rest goes out again (R422). -/
theorem linkControl_nak (a : Fin 1024) : linkControl p a true true s = replayFlits p (takeAck p a.val s) := if_pos live

theorem replayTimeout_live : replayTimeout p s = replayFlits p s := if_pos live

theorem ackTimer_due (h : 0 < (s.fab.ports[p]).unacked) : ackTimer p s = sendAck p false s := by
  simp only [ackTimer, live, decide_eq_true h, Bool.and_self, if_true]

/-! ### A flit that arrives (R421, R422) -/

theorem flitArrives_badCrc {f : BitVec 2048} (h : crc32 ((toBytes 256 f.toNat).take 252) ≠ ofBytes ((toBytes 256 f.toNat).drop 252)) :
    flitArrives p f s = linkError p s := by
  simp only [flitArrives, live, if_pos h, Bool.not_true, Bool.false_eq_true, if_false]

end

/-- A flit that carries neither ACK nor NAK controls nothing (R421). -/
theorem takeControl_plain {h2 : Nat} (ack : Nat) (h : h2 / 2 ^ 10 % 4 = 0) : takeControl p ack (h2.testBit 10) (h2.testBit 11) s = s := by
  have noAck : h2.testBit 10 = false := by rw [Nat.testBit_eq_decide_div_mod_eq]; exact decide_eq_false (by omega)
  have noNak : h2.testBit 11 = false := by rw [Nat.testBit_eq_decide_div_mod_eq]; exact decide_eq_false (by omega)
  simp only [takeControl, noAck, noNak, Bool.or_self, Bool.false_eq_true, if_false]

/-- The first two bytes of a flit: SEQ, VC and SOM (R421). -/
def flitHead (f : BitVec 2048) : Nat := ofBytes ((toBytes 256 f.toNat).take 2)

/-- How far a flit's SEQ lies ahead of the one expected (R422). -/
def flitGap (f : BitVec 2048) (x : Port) : Nat := (bits (flitHead f) 0 10 + 1024 - x.rxSeq) % 1024

/-- Flit `f` has a good CRC, no ACK or NAK, and a VC (R421). -/
structure PlainFlit (p : Fin 9) (f : BitVec 2048) (s : State) : Prop where
  live : portLive p s = true
  crc : crc32 ((toBytes 256 f.toNat).take 252) = ofBytes ((toBytes 256 f.toNat).drop 252)
  plain : ofBytes (((toBytes 256 f.toNat).drop 2).take 2) / 2 ^ 10 % 4 = 0
  vc : bits (flitHead f) 10 3 < 7

section
variable {f : BitVec 2048} (h : PlainFlit p f s)
include h

theorem PlainFlit.vc_ne : bits (flitHead f) 10 3 ≠ 7 := Nat.ne_of_lt h.vc

/-- A flit of SEQ already received is dropped (R422). -/
theorem flitArrives_old (hd : 512 ≤ flitGap f s.fab.ports[p]) : flitArrives p f s = s := by
  have hv := h.vc_ne
  simp only [flitHead] at hv
  simp only [flitGap, flitHead] at hd
  simp only [flitArrives, h.live, h.crc, takeControl_plain _ h.plain, hv, hd, ne_eq, not_true_eq_false, Bool.not_true, Bool.false_eq_true, or_self,
    if_false, if_true]

/-- A flit ahead of the one expected is a link error (R422). -/
theorem flitArrives_gap (h0 : 0 < flitGap f s.fab.ports[p]) (hd : flitGap f s.fab.ports[p] < 512) : flitArrives p f s = linkError p s := by
  have hv := h.vc_ne
  simp only [flitHead] at hv
  simp only [flitGap, flitHead] at h0 hd
  simp only [flitArrives, h.live, h.crc, takeControl_plain _ h.plain, hv, Nat.not_le.mpr hd, Nat.ne_of_gt h0, ne_eq, not_true_eq_false,
    not_false_eq_true, Bool.not_true, Bool.false_eq_true, or_self, if_false, if_true]

/-- The flit expected is accepted where its VC has room (R422, R425). -/
theorem flitArrives_accepts {v : Fin 5} (hd : flitGap f s.fab.ports[p] = 0) (hv : bits (flitHead f) 10 3 = v.val)
    (hm : (flitHead f).testBit 13 = false) (hs : (s.fab.ports[p]).state = .joined)
    (hr : (s.fab.ports[p]).rxHeld[v] + (s.fab.ports[p]).rxFreed[v] < ownAlloc[v]) (hu : (s.fab.ports[p]).unacked < 63) :
    flitArrives p f s = modPort p (fun x => { x with
      rxSeq := (x.rxSeq + 1) % 1024, nakSent := false, unacked := x.unacked + 1, rxHeld := vmod x.rxHeld v (· + 1) }) s := by
  have hn := h.vc_ne
  simp only [flitGap, flitHead] at hd hv hm hn
  have vc : ¬4 < v.val := by omega
  have few : ¬64 ≤ (s.fab.ports[p]).unacked + 1 := by omega
  simp only [flitArrives, h.live, h.crc, takeControl_plain _ h.plain, hd, hm, hs, hv ▸ hn, hv, vc, Nat.not_le.mpr hr, few, modPort_port,
    Fin.ofNat_val_eq_self, ne_eq, not_true_eq_false, Bool.not_true, Bool.false_and, Bool.not_false, Bool.true_and, Bool.and_false, Bool.false_eq_true,
    Bool.false_or, or_self, decide_false, if_false,
    (by decide : ¬512 ≤ 0)]
  refine modPort_congr ?_
  rw [hs]
  rfl

end
end
/-! ### Freed credits, the link state and resends by time (R425, R430, R431, R435, R437) -/

section
variable {p : Fin 9} {s : State}

/-- The freed credits of a joined port go back in one CREDIT message (R425). -/
theorem creditTimer_returns (hs : (s.fab.ports[p]).state = .joined) (hf : ∃ v : Fin 5, (s.fab.ports[p]).rxFreed[v] ≠ 0) :
    creditTimer p s = sendOn p 4 false (mhead 0x06 (s.fab.ports[p]).peer 48
        ((List.finRange 5).foldl (fun h v => mput (12 + 2 * v.val) 2 (s.fab.ports[p]).rxFreed[v] h) 0) s)
      (modPort p (fun x => { x with rxFreed := Vector.replicate 5 0 }) s) := by
  have some_freed : (s.fab.ports[p]).rxFreed.toList.all (fun n => n == 0) = false := by
    obtain ⟨v, hv⟩ := hf
    refine List.all_eq_false.mpr ⟨(s.fab.ports[p]).rxFreed[v], ?_, by simpa only [beq_iff_eq] using hv⟩
    exact Vector.mem_toList_iff.mpr (Vector.getElem_mem v.isLt)
  simp only [creditTimer, sendCredit, hs, some_freed, ne_eq, not_true_eq_false, Bool.false_eq_true, or_self, if_false]

theorem creditTimer_notJoined (hs : (s.fab.ports[p]).state ≠ .joined) : creditTimer p s = s := if_pos (Or.inl hs)

/-- A joined port after one more link-state period (R439). -/
def Port.aged (x : Port) : Port :=
  if x.state = .joined then (if 10 ≤ x.periods + 1 then { x with periods := 0, inSecond := 0 } else { x with periods := x.periods + 1 }) else x

theorem linkPeriod_floods (hr : running s = true) (hf : s.er.fatal = false) :
    linkPeriod s = floodOwn (modFab (fun f => { f with ports := f.ports.map Port.aged }) s) := by
  have go : (running s && !s.er.fatal) = true := by rw [hr, hf]; rfl
  exact if_pos go

theorem linkPeriod_quiet (h : running s = false ∨ s.er.fatal = true) :
    linkPeriod s = modFab (fun f => { f with ports := f.ports.map Port.aged }) s := by
  have stay : ¬(running s && !s.er.fatal) = true := by
    rcases h with h | h <;> simp [h]
  exact if_neg stay

theorem routeRecompute_same (h : computeRoutes s = s.fab.routes) : routeRecompute s = s := by
  simp only [routeRecompute, recomputeRoutes, h, if_true, ite_self]

/-- New routes with nothing outstanding send nothing again (R431, R435). -/
theorem routeRecompute_switches (hr : running s = true) (hf : s.er.fatal = false) (hc : computeRoutes s ≠ s.fab.routes) (hg : s.fab.gets = [])
    (hu : s.pu.store = []) : routeRecompute s = { s with fab := { s.fab with routes := computeRoutes s } } := by
  simp only [routeRecompute, recomputeRoutes, hr, hf, if_neg hc, resendAll, modFab, hg, hu, Bool.not_false, Bool.and_self, if_true,
    List.filter_nil, List.foldl_nil]

theorem getReissue_unanswered {req : Nat} {g : RowGet} (hg : getOf req s = some g) (hw : g.wait = .answer) (he : engines s = true) :
    getReissue req s = reissueGet g g.dest s := by
  simp only [getReissue, hg, hw, he, decide_true, Bool.and_self, if_true]

theorem getReissue_unknown {req : Nat} (h : getOf req s = none) : getReissue req s = s := by
  simp only [getReissue, h]

theorem sendRouted_route {dst vc : Nat} {request : Bool} {m : List Byte} (h : routeTo dst s = some p) :
    sendRouted dst vc request m s = (true, sendOn p vc request m s) := by
  simp only [sendRouted, h]

/-- An unacknowledged update goes out again as it is (R435). -/
theorem addResend_again {d : Fin 512} {q : W64} {r : Resend} (ho : operational s = true) (hf : s.er.fatal = false)
    (hu : storedUpdate d.val q.toNat s = some r) (hw : r.wait = .answer) (hp : routeTo r.upd.dest s = some p) :
    addResend d q s = sendOn p r.upd.cls.val true (msgRowAdd r.upd r.upd.cls.val s) s := by
  simp only [addResend, hu, hw, ho, hf, decide_true, Bool.not_false, Bool.and_self, if_true, sendUpdate, sendRouted_route hp]

section
variable {d : Fin 512} (ho : operational s = true) (hf : s.er.fatal = false) (hg : ∀ g ∈ s.fab.gets, ¬(g.wait = .lag ∧ g.dest = d.val))
include ho hf hg

/-- With no request that waits for a lagging owner, only the updates refused by it are sent again (R437). -/
theorem notOwnerResend_updates : notOwnerResend d s = (s.pu.store.filter (fun r => r.wait == .lag && r.upd.dest == d.val)).foldl (fun s r =>
    if ownerOf r.upd.table r.upd.row s = d.val then sendUpdate r.upd (waitStored r.upd .answer s) else rerouteUpdate r.upd s) s := by
  have no_gets : s.fab.gets.filter (fun g => g.wait == .lag && g.dest == d.val) = [] :=
    List.filter_eq_nil_iff.mpr (fun g hm => by simpa only [Bool.and_eq_true, beq_iff_eq] using hg g hm)
  simp only [notOwnerResend, ho, hf, no_gets, Bool.not_false, Bool.and_self, Bool.not_true, Bool.false_eq_true, if_false, List.foldl_nil]

theorem notOwnerResend_one {r : Resend} (hr : s.pu.store.filter (fun r => r.wait == .lag && r.upd.dest == d.val) = [r])
    (hd : ownerOf r.upd.table r.upd.row s = d.val) : notOwnerResend d s = sendUpdate r.upd (waitStored r.upd .answer s) := by
  rw [notOwnerResend_updates ho hf hg, hr, List.foldl_cons, List.foldl_nil, if_pos hd]

theorem notOwnerResend_none (hr : s.pu.store.filter (fun r => r.wait == .lag && r.upd.dest == d.val) = []) : notOwnerResend d s = s := by
  rw [notOwnerResend_updates ho hf hg, hr, List.foldl_nil]

end
end

/-- Settles O59: each event of a link or of the fabric is a lemma above, carried to its row by `answers_act`. -/
theorem fabricLinks : Obligations.FabricLinks := by
  refine ⟨fun p s awake => ?_, fun s awake => ?_⟩
  · intro x now out replayed
    refine ⟨fun t e hr hf he hs hx => ?_, fun ply hp => ⟨fun hs => ?_, fun hs => ?_⟩, fun ply hp => ?_, fun live => ?_, fun hs hf => ?_,
      fun hs t => ⟨?_, ?_⟩, fun hs t => ?_⟩
    · exact answers_act rfl awake (portTrained_measures t hr hf he hs hx)
    · exact answers_act rfl awake (plyFailure_down hp hs)
    · exact answers_act rfl awake (plyFailure_resets hp hs)
    · exact answers_act rfl awake (plyFailure_failed hp)
    · refine ⟨fun a => ⟨fun h1 h2 => ?_, fun h => ⟨?_, fun h0 hr => ?_, fun h0 => ?_⟩⟩, fun h0 => ?_, fun h0 hr => ?_, fun h0 hr => ?_,
        fun hu => ?_, fun hu => ?_, fun f => ?_⟩
      · exact answers_act rfl awake ((linkControl_ack live a).trans (takeAck_releases h1 h2))
      · exact answers_act rfl awake ((linkControl_ack live a).trans (takeAck_stale h))
      · refine answers_act rfl awake ((linkControl_nak live a).trans ?_)
        rw [takeAck_stale h]
        exact replayFlits_again h0 hr
      · refine answers_act rfl awake ((linkControl_nak live a).trans ?_)
        rw [takeAck_stale h]
        exact replayFlits_none h0
      · exact answers_act rfl awake ((replayTimeout_live live).trans (replayFlits_none h0))
      · exact answers_act rfl awake ((replayTimeout_live live).trans (replayFlits_again h0 hr))
      · exact answers_act rfl awake ((replayTimeout_live live).trans (replayFlits_last h0 hr))
      · exact answers_act rfl awake ((ackTimer_due live hu).trans sendAck_ack)
      · exact answers_act rfl awake (ackTimer_idle hu)
      · refine ⟨fun hc hn => ?_, fun hc hn => ?_, fun hc hp hv => ⟨fun h0 hd hn => ?_, fun hd => ?_, fun v hd hvc hm hs hr hu => ?_⟩⟩
        · exact answers_act rfl awake ((flitArrives_badCrc live hc).trans (linkError_first hn))
        · exact answers_act rfl awake ((flitArrives_badCrc live hc).trans (linkError_again hn))
        · exact answers_act rfl awake ((flitArrives_gap ⟨live, hc, hp, hv⟩ h0 hd).trans (linkError_first hn))
        · exact answers_act rfl awake (flitArrives_old ⟨live, hc, hp, hv⟩ hd)
        · exact answers_act rfl awake (flitArrives_accepts ⟨live, hc, hp, hv⟩ hd hvc hm hs hr hu)
    · exact answers_act rfl awake (creditTimer_returns hs hf)
    · exact answers_act rfl awake (creditTimer_notJoined hs)
    · exact answers_act rfl awake (if_neg hs)
    · exact answers_act rfl awake (if_pos hs)
  · refine ⟨⟨fun hr hf => ?_, fun h => ?_⟩, fun o => ?_, fun h => ?_, fun hr hf hc hg hu => ?_, fun req g hg hw he => ?_, fun req h => ?_,
      fun ho hf => ⟨fun d q r p hu hw hp => ?_, fun d hg => ⟨fun r hr hd => ?_, fun hr => ?_⟩⟩⟩
    · exact answers_act rfl awake (linkPeriod_floods hr hf)
    · exact answers_act rfl awake (linkPeriod_quiet h)
    · exact answers_act rfl awake rfl
    · exact answers_act rfl awake (routeRecompute_same h)
    · exact answers_act rfl awake (routeRecompute_switches hr hf hc hg hu)
    · exact answers_act rfl awake (getReissue_unanswered hg hw he)
    · exact answers_act rfl awake (getReissue_unknown h)
    · exact answers_act rfl awake (addResend_again ho hf hu hw hp)
    · exact answers_act rfl awake (notOwnerResend_one ho hf hg hr hd)
    · exact answers_act rfl awake (notOwnerResend_none ho hf hg hr)

end Sys2Proof.Machine

namespace Sys2Proof.Machine

open Sys2Proof

/-! ### Row requests at their owner, and the answers to them (R370–R372, R435, R436) -/

section
variable {p : Fin 9} {vc : Fin 5} {m : List Byte} {s : State}

/-- The state in which an arrived ROW_GET is served: its flits are freed and the request is counted (R425, R451). -/
def getCounted (p : Fin 9) (vc : Fin 5) (m : List Byte) (s : State) : State :=
  modCount (parseGet p m).src (fun c => { c with inGets := c.inGets + 1 }) (consumeMsg p vc m s)

/-- A ROW_GET of a table that the device lacks is refused (R436). -/
theorem rowGetArrives_noTable (h : Arrives 0x01 p vc m s) (ht : tableOf (parseGet p m).table (getCounted p vc m s) = none) :
    rowGetArrives p vc m s = refuseGet (parseGet p m) 0x06 (getCounted p vc m s) := by
  rw [getCounted] at ht
  rw [rowGetArrives, receiveMsg_arrives h]
  simp only [ht]
  rfl

/-- A ROW_GET of a row that the device owns is validated or served (R372, R435). -/
theorem rowGetArrives_owned {t : Table} {slot : Nat} (h : Arrives 0x01 p vc m s)
    (ht : tableOf (parseGet p m).table (getCounted p vc m s) = some t) (hs : t.slot (parseGet p m).row = some slot)
    (ho : ownerOf (parseGet p m).table (parseGet p m).row (getCounted p vc m s) = ownDev (getCounted p vc m s)) : rowGetArrives p vc m s =
    if (mfld m 16 1).testBit 3 then serveValidate (parseGet p m) m (getCounted p vc m s) else serveGet (parseGet p m) (getCounted p vc m s) := by
  rw [getCounted] at ht ho
  rw [rowGetArrives, receiveMsg_arrives h]
  simp only [ht, hs, ho, Option.isNone_some, decide_true, Bool.not_true, Bool.false_eq_true, or_self, if_false]
  rfl

section
variable {g : Service} {t : Table} {slot : Nat} (ht : tableOf g.table s = some t) (hs : t.slot g.row = some slot)
include ht hs

theorem serveValidate_eq : serveValidate g m s =
    answerGet g (msgRowData g.src g.req true (mfld m 32 6 != 0 && mfld m 32 6 == s.stp.mapStep
      && primaryCurrent g.table (t.slotBlock slot) (mfld m 40 3 % 2 ^ 23) (BitVec.ofNat 7 (mfld m 17 1)) s)
      (BitVec.ofNat 7 (mfld m 17 1)).toNat (mfld m 40 3 % 2 ^ 23) (mfld m 32 6) [] s) s := by
  simp only [serveValidate, ht, hs]

end

theorem primaryAt_data (t : Table) (slot tile : Nat) (s : State) : (primaryAt t slot tile s).data = none := by
  simp only [primaryAt]
  split
  · split <;> rfl
  · rfl

theorem keepRef_unshared {g : Service} {blk : Nat} {d : DirEntry} (h : d.abset = 0) : keepRef g blk (some d) s = s := by
  simp only [keepRef, h, ne_eq, not_true_eq_false, false_and, if_false]

/-- A row without copies in a block of one accessed-by set is read from its primary (R207, R372, R435). -/
theorem serveGet_primary {g : Service} {t : Table} {slot : Nat} {d : DirEntry} {bs : List Byte} {w : State} (ht : tableOf g.table s = some t)
    (hs : t.slot g.row = some slot) (hc : rowCopies g.table g.row 0 s = []) (hd : blockDir g.table (t.slotBlock slot) s = some d) (h0 : d.abset = 0)
    (hx : xRead ⟨3, g.port.val, g.cls.val, g.spec, 0⟩ t.tag.toNat (t.slotVa slot) t.rowBytes .read s = (.data bs, w)) : serveGet g s =
    answerGet g (dataMsg g (((blockDir g.table (t.slotBlock slot) w).map (·.frame)).getD 0)
      (frameVersion (((blockDir g.table (t.slotBlock slot) w).map (·.frame)).getD 0) w) bs w) w := by
  simp only [serveGet, ht, hs, hc, hx, hd, List.filter_nil, List.foldl_cons, List.foldl_nil, insertCopy, List.length_singleton, Nat.max_self,
    Nat.mod_one, List.getElem?_cons_zero, Option.bind_some, primaryAt_data, keepRef_unshared h0]

/-- An answer to no outstanding request is dropped and counted (R435). -/
theorem rowDataArrives_none (h : Arrives 0x02 p vc m s) (hg : getOf (mfld m 12 4) (consumeMsg p vc m s) = none) :
    rowDataArrives p vc m s = dropAnswer p (consumeMsg p vc m s) := by
  rw [rowDataArrives, receiveMsg_arrives h]
  simp only [hg]

theorem rowDataArrives_row {g : RowGet} {t : Table} (h : Arrives 0x02 p vc m s) (hg : getOf (mfld m 12 4) (consumeMsg p vc m s) = some g)
    (hv : g.validate = false) (hr : (mfld m 16 1).testBit 0 = false) (ht : tableOf g.table (consumeMsg p vc m s) = some t)
    (hl : (m.drop 48).length = t.rowBytes) : rowDataArrives p vc m s =
    settleGet g (.row (m.drop 48)) (mfld m 17 1) (mfld m 18 3) (mfld m 24 6) (consumeMsg p vc m s) := by
  rw [rowDataArrives, receiveMsg_arrives h]
  simp only [hg, hv, hr, ht, hl, bne_self_eq_false, Bool.and_false, Bool.or_self, Bool.false_eq_true, if_false]

/-- The result of a request whose operation is still in the Hook (R435). -/
theorem settleGet_kept {g : RowGet} {x : HookOp} (r : GetResult) (version frame track : Nat) (h : hookOf g.op s = some x) :
    settleGet g r version frame track s =
    modGet g.req (fun y => { y with result := some r, version := version, frame := frame, track := track })
      (modCount g.dest (fun c => { c with answered := c.answered + 1 }) s) := by
  have h' : hookOf g.op (modCount g.dest (fun c => { c with answered := c.answered + 1 }) s) = some x := h
  simp only [settleGet, h']

theorem rowNakArrives_get_none (h : Arrives 0x05 p vc m s) (hq : mfld m 13 1 % 2 = 0)
    (hg : getOf (mfld m 16 8) (consumeMsg p vc m s) = none) : rowNakArrives p vc m s = dropAnswer p (consumeMsg p vc m s) := by
  rw [rowNakArrives, receiveMsg_arrives h]
  simp only [hq, hg, if_true]

/-- Poison and a failed translation at the owner end the request with their faults (R436). -/
theorem rowNakArrives_get_faults {g : RowGet} (h : Arrives 0x05 p vc m s) (hq : mfld m 13 1 % 2 = 0)
    (hg : getOf (mfld m 16 8) (consumeMsg p vc m s) = some g) (hv : g.validate = false) (hr : mfld m 12 1 = 0x08 ∨ mfld m 12 1 = 0x09) :
    rowNakArrives p vc m s =
    settleGet g (.fault (if mfld m 12 1 = 0x08 then stPoison else stTranslation)) 0 0 0 (consumeMsg p vc m s) := by
  rw [rowNakArrives, receiveMsg_arrives h]
  rcases hr with hr | hr <;> simp [hq, hg, hr, getNak, hv]

/-- An update refused for good leaves the store (R381, R436). -/
theorem rowNakArrives_add_refused {r : Resend} (h : Arrives 0x05 p vc m s) (hq : mfld m 13 1 % 2 = 1)
    (hu : storedUpdate (mSrc m) (mfld m 16 8) (consumeMsg p vc m s) = some r) (hr : mfld m 12 1 = 0x06 ∨ mfld m 12 1 = 0x07) :
    rowNakArrives p vc m s = refuseUpdate r.upd (mfld m 12 1) (dropStored r.upd (consumeMsg p vc m s)) := by
  rw [rowNakArrives, receiveMsg_arrives h]
  rcases hr with hr | hr <;> simp [hq, hu, hr, addNak]

theorem rowAckArrives_none (h : Arrives 0x04 p vc m s) (hu : storedUpdate (mSrc m) (mfld m 12 8) (consumeMsg p vc m s) = none) :
    rowAckArrives p vc m s = dropAnswer p (consumeMsg p vc m s) := by
  rw [rowAckArrives, receiveMsg_arrives h]
  simp only [hu]

theorem rowAckArrives_stored {r : Resend} (h : Arrives 0x04 p vc m s)
    (hu : storedUpdate (mSrc m) (mfld m 12 8) (consumeMsg p vc m s) = some r) : rowAckArrives p vc m s =
    modCount r.upd.dest (fun c => { c with acked := c.acked + 1 })
      (modStep r.upd.step (fun x => { x with acked := x.acked + 1 }) (dropStored r.upd (consumeMsg p vc m s))) := by
  rw [rowAckArrives, receiveMsg_arrives h]
  simp only [hu]

end
end Sys2Proof.Machine

namespace Sys2Proof.Machine

open Sys2Proof

/-! ### Received updates, credits and firmware chunks (R382–R384, R425, R516) -/

section
variable {p : Fin 9} {vc : Fin 5} {m : List Byte} {s : State}

/-- The update that an arrived ROW_ADD carries (R382, R427). -/
def addOf (p : Fin 9) (vc : Fin 5) (m : List Byte) (s : State) : Update :=
  parseAdd p m (((tableOf (mfld m 26 3 % 2 ^ 20) (consumeMsg p vc m s)).map (·.width)).getD 0) (consumeMsg p vc m s)

section
variable (h : Arrives 0x03 p vc m s) (hp : (peerSet (consumeMsg p vc m s)).contains (mSrc m) = true)
include h hp

/-- A repeated update is counted and acknowledged again (R382). -/
theorem rowAddArrives_again (hs : (senderOf (mSrc m) (consumeMsg p vc m s)).seen (addOf p vc m s).seqNo.toNat = true) :
    let w := modStep (addOf p vc m s).step (fun y => { y with dups := y.dups + 1 })
      (modCount (mSrc m) (fun c => { c with received := c.received + 1, dups := c.dups + 1 }) (consumeMsg p vc m s))
    rowAddArrives p vc m s = (sendRouted (mSrc m) vc.val false (msgRowAck (mSrc m) (addOf p vc m s).seqNo true false w) w).2 := by
  rw [addOf] at hs
  rw [rowAddArrives, receiveMsg_arrives h]
  simp only [hp, hs, Bool.not_true, Bool.false_eq_true, if_false, if_true]
  rfl

/-- A new update for a row that the device owns is held for the next step or applied, as its tag says (R382, R383). -/
theorem rowAddArrives_new {t : Table} {slot : Nat} (hs : (senderOf (mSrc m) (consumeMsg p vc m s)).seen (addOf p vc m s).seqNo.toNat = false)
    (hn : (addOf p vc m s).seqNo.toNat < (senderOf (mSrc m) (consumeMsg p vc m s)).next.toNat + 1024)
    (hw : ∀ y ∈ (consumeMsg p vc m s).pu.inbound ++ (consumeMsg p vc m s).pu.held, ¬(y.sender = mSrc m ∧ y.seqNo = (addOf p vc m s).seqNo))
    (ht : tableOf (mfld m 26 3 % 2 ^ 20) (consumeMsg p vc m s) = some t) (ha : t.addMode ≠ 0) (hl : addLengthOk t m = true)
    (ho : ownerOf (addOf p vc m s).table (addOf p vc m s).row (consumeMsg p vc m s) = ownDev (consumeMsg p vc m s))
    (hr : t.slot (addOf p vc m s).row = some slot) (hv : tagVerdict (addOf p vc m s).step (consumeMsg p vc m s) ≠ .mismatch) :
    rowAddArrives p vc m s =
      let v := modCount (mSrc m) (fun c => { c with received := c.received + 1 }) (consumeMsg p vc m s)
      if tagVerdict (addOf p vc m s).step (consumeMsg p vc m s) = .hold then modPurl (fun q => { q with held := q.held ++ [addOf p vc m s] }) v
      else applyInbound (addOf p vc m s) v := by
  have not_here : ((consumeMsg p vc m s).pu.inbound ++ (consumeMsg p vc m s).pu.held).any
      (fun y => y.sender == mSrc m && y.seqNo == (addOf p vc m s).seqNo) = false :=
    List.any_eq_false.mpr (fun y hy => by simpa only [Bool.and_eq_true, beq_iff_eq] using hw y hy)
  have verdict (n : Nat) (f : PeerCount → PeerCount) (s : State) : tagVerdict n (modCount (mSrc m) f s) = tagVerdict n s := rfl
  simp only [addOf, ht] at hs hn not_here ho hr hv
  rw [rowAddArrives, receiveMsg_arrives h]
  simp only [hp, hs, Nat.not_le.mpr hn, not_here, hv, ht, ha, hl, ho, hr, verdict, addOf, Option.isNone_some, decide_true, Bool.not_true,
    Bool.false_eq_true, or_self, if_false]

end
/-- A CREDIT message takes no flits (R425). -/
theorem consumeMsg_credit (h : mType m = 0x06) : consumeMsg p vc m s = s := if_pos h

/-- Credits within the allocation come back in full (R425). -/
theorem creditArrives_returns (h : Arrives 0x06 p 4 m s)
    (hr : ∀ v : Fin 5, (s.fab.ports[p]).avail[v] + mfld m (12 + 2 * v.val) 2 ≤ (s.fab.ports[p]).alloc[v]) : creditArrives p m s =
    pump p (modPort p (fun y => { y with avail := Vector.ofFn (fun v => y.avail[v] + mfld m (12 + 2 * v.val) 2) }) s) := by
  have none_over : (List.finRange 5).any
      (fun v => decide ((s.fab.ports[p]).alloc[v] < (s.fab.ports[p]).avail[v] + mfld m (12 + 2 * v.val) 2)) = false :=
    List.any_eq_false.mpr (fun v _ => by simpa only [decide_eq_true_eq] using Nat.not_lt.mpr (hr v))
  have within (v : Fin 5) : min (s.fab.ports[p]).alloc[v] ((s.fab.ports[p]).avail[v] + mfld m (12 + 2 * v.val) 2) =
      (s.fab.ports[p]).avail[v] + mfld m (12 + 2 * v.val) 2 := Nat.min_eq_right (hr v)
  rw [creditArrives, receiveMsg_arrives h, consumeMsg_credit h.type]
  simp only [none_over, Bool.false_eq_true, if_false]
  refine congrArg (pump p) (modPort_congr ?_)
  simp only [within]

/-! ### The in-band gauge (R69–R71) -/

theorem setGState_cfg (st : GState) (s : State) : (setGState st s).gg.cfg = s.gg.cfg := by
  rw [setGState]; split
  · rfl
  · rw [raise_gg]

theorem loseSource_cfg (s : State) : (loseSource s).gg.cfg = s.gg.cfg := by
  simp only [loseSource]; split
  · rw [logErr_gg]; exact setSrc_cfg _ _ _
  · rw [setGState_cfg]; exact setSrc_cfg _ _ _

theorem misbehave_cfg (kind : Nat) (s : State) : (misbehave kind s).gg.cfg = s.gg.cfg := by
  rw [misbehave, loseSource_cfg, logErr_gg]

theorem rejectLower_cfg (i : Nat) (num : W64) (s : State) : (rejectLower i num s).gg.cfg = s.gg.cfg := by
  simp only [rejectLower]; split
  · rw [logErr_gg]
  · rfl

/-- No beat changes the settings of the gauge (R79). -/
theorem gaugeEdge_cfg (i : Nat) (ok : Bool) (num : W64) (since : Nat) (off : Int) (s : State) :
    (gaugeEdge i ok num since off s).gg.cfg = s.gg.cfg := by
  simp only [gaugeEdge]
  split
  · rfl
  · split
    · repeat' split
      all_goals simp only [misbehave_cfg, setSrc_cfg]
    · repeat' split
      all_goals simp only [rejectLower_cfg, setGState_cfg, setSrc_cfg]

/-- A source that the settings do not use moves nothing (R78). -/
theorem gaugeEdge_unused {i : Nat} (ok : Bool) (num : W64) (since : Nat) (off : Int) (h : sourceUsed s.gg.cfg i = false) :
    gaugeEdge i ok num since off s = s := by
  simp only [gaugeEdge, h, Bool.false_and, Bool.not_false, if_true]

section
variable (h : Arrives 0x07 p 4 m s) (since : Nat) (off : Int)
include h

theorem gaugeArrives_ignored (hu : s.gg.cfg.upstream ≠ p.val) : gaugeArrives p m since off s =
    portViol p 0x28 (mfld m 12 8) (modPort p (fun y => { y with gaugeIgnored := satTo 8 (y.gaugeIgnored + 1) }) (consumeMsg p 4 m s)) := by
  rw [gaugeArrives, receiveMsg_arrives h]
  simp only [consumeMsg_gg, ne_eq, hu, not_false_eq_true, if_true]

/-- A message that has taken 16 hops is discarded (R71). -/
theorem gaugeArrives_far (hu : s.gg.cfg.upstream = p.val) (hh : mfld m 28 1 % 16 = 15) :
    gaugeArrives p m since off s = logErr .partner 0x2E .henurPort p.val 16 (mfld m 12 8) (consumeMsg p 4 m s) := by
  rw [gaugeArrives, receiveMsg_arrives h]
  simp only [consumeMsg_gg, hu, hh, ne_eq, not_true_eq_false, if_false, Nat.reduceAdd, Nat.le_refl, if_true]

/-- The state that knows the root and its distance from an accepted message (R71). -/
def rootHeard (m : List Byte) (s : State) : State := { s with gg := { s.gg with root := BitVec.ofNat 9 (mfld m 30 2), hops := mfld m 28 1 % 16 } }

section
variable (hu : s.gg.cfg.upstream = p.val) (hh : mfld m 28 1 % 16 < 15)
include hu hh

/-- An accepted message is a beat of the in-band source (R70, R71). -/
theorem gaugeArrives_beat : gaugeArrives p m since off s =
    let e := gaugeEdge 1 true (BitVec.ofNat 64 (mfld m 12 8)) since off (rootHeard m (consumeMsg p 4 m s))
    if gaugeFrom e = 1 then
      gaugeSend (mfld m 12 8) (mfld m 20 2) (mfld m 24 4 + (Config.freeValue e.freeCtr).toNat + (e.fab.ports[p]).delay) (mfld m 28 1 % 16 + 1)
        (mfld m 30 2) { e with freeCtr := e.freeCtr + 1 }
    else e := by
  have near : ¬16 ≤ mfld m 28 1 % 16 + 1 := by omega
  have from_upstream : ¬(consumeMsg p 4 m s).gg.cfg.upstream ≠ p.val := not_not_intro (by rw [consumeMsg_gg, hu])
  rw [gaugeArrives, receiveMsg_arrives h]
  exact (if_neg from_upstream).trans (if_neg near)

/-- A device that takes its gauge from the connector only notes the root (R70, R79). -/
theorem gaugeArrives_connector (hc : s.gg.cfg.source = 0) : gaugeArrives p m since off s = rootHeard m (consumeMsg p 4 m s) := by
  have cfg : (rootHeard m (consumeMsg p 4 m s)).gg.cfg = s.gg.cfg := by simp only [rootHeard, consumeMsg_gg]
  have unused : sourceUsed (rootHeard m (consumeMsg p 4 m s)).gg.cfg 1 = false := by rw [cfg, sourceUsed, hc]; rfl
  have connector : gaugeFrom (rootHeard m (consumeMsg p 4 m s)) ≠ 1 := by
    rw [gaugeFrom, cfg, hc]
    exact Nat.zero_ne_one
  rw [gaugeArrives_beat h since off hu hh, gaugeEdge_unused _ _ _ _ unused]
  exact if_neg connector

/-- A device that takes its gauge in-band sends the beat on with the delay so far (R69, R440). -/
theorem gaugeArrives_inband (hc : s.gg.cfg.source = 1) : gaugeArrives p m since off s =
    let e := gaugeEdge 1 true (BitVec.ofNat 64 (mfld m 12 8)) since off (rootHeard m (consumeMsg p 4 m s))
    gaugeSend (mfld m 12 8) (mfld m 20 2) (mfld m 24 4 + (Config.freeValue e.freeCtr).toNat + (e.fab.ports[p]).delay) (mfld m 28 1 % 16 + 1)
      (mfld m 30 2) { e with freeCtr := e.freeCtr + 1 } := by
  have cfg : (gaugeEdge 1 true (BitVec.ofNat 64 (mfld m 12 8)) since off (rootHeard m (consumeMsg p 4 m s))).gg.cfg = s.gg.cfg := by
    simp only [gaugeEdge_cfg, rootHeard, consumeMsg_gg]
  have inband : gaugeFrom (gaugeEdge 1 true (BitVec.ofNat 64 (mfld m 12 8)) since off (rootHeard m (consumeMsg p 4 m s))) = 1 := by
    rw [gaugeFrom, cfg, hc]; rfl
  rw [gaugeArrives_beat h since off hu hh]
  exact if_pos inband

end
end

/-! ### Firmware chunks (R441, R516) -/

theorem SendsOnly.running {s t : State} (h : SendsOnly s t) : Machine.running t = Machine.running s := by
  obtain ⟨_, _, rfl⟩ := h; rfl

theorem SendsOnly.idleBank {s t : State} (h : SendsOnly s t) : Machine.idleBank t = Machine.idleBank s := by
  obtain ⟨_, _, rfl⟩ := h; rfl

theorem SendsOnly.inTrial {s t : State} (h : SendsOnly s t) : Machine.inTrial t = Machine.inTrial s := by
  obtain ⟨_, _, rfl⟩ := h; rfl

theorem SendsOnly.activatePending {s t : State} (h : SendsOnly s t) : Machine.activatePending t = Machine.activatePending s := by
  obtain ⟨_, _, rfl⟩ := h; rfl

section
variable (h : Arrives 0x08 p 4 m s)
include h

theorem chunkArrives_notUpstream (hu : s.fw.chainUp ≠ p.val) : chunkArrives p m s = portViol p 0x27 0 (consumeMsg p 4 m s) := by
  rw [chunkArrives, receiveMsg_arrives h]
  simp only [consumeMsg_fw, ne_eq, hu, not_false_eq_true, if_true]

theorem chunkArrives_stopped (hu : s.fw.chainUp = p.val) (hr : running s = false) : chunkArrives p m s = chunkDrop (consumeMsg p 4 m s) := by
  have stopped : running (consumeMsg p 4 m s) = false := (consumeMsg_sends p 4 m s).running.trans hr
  rw [chunkArrives, receiveMsg_arrives h]
  simp only [consumeMsg_fw, hu, stopped, ne_eq, not_true_eq_false, Bool.not_false, if_false, if_true]

/-- A chunk that continues no delivery is dropped (R516). -/
theorem chunkArrives_unbegun (hu : s.fw.chainUp = p.val) (hs : s.fw.staging = none) (ho : mfld m 12 4 ≠ 0) :
    chunkArrives p m s = chunkDrop (consumeMsg p 4 m s) := by
  rw [chunkArrives, receiveMsg_arrives h]
  simp only [consumeMsg_fw, hu, hs, ho, ne_eq, not_true_eq_false, if_false, ite_self]

/-- A first chunk without a whole header begins a delivery (R516). -/
theorem chunkArrives_first (hu : s.fw.chainUp = p.val) (hr : running s = true) (hs : s.fw.staging = none) (ha : s.fw.applying = none)
    (hb : (idleBank s).state ≠ 1) (hp : activatePending s = false) (ht : inTrial s = false) (ho : mfld m 12 4 = 0)
    (hl : (m.drop 48).length < 4096) (hlast : mfld m 20 1 % 2 = 0) : chunkArrives p m s = modFw (fun f => { f with
      staging := some ⟨true, (m.drop 48).length, m.drop 48, false, true, 0, 0, [m]⟩ }) (consumeMsg p 4 m s) := by
  have k := consumeMsg_sends p 4 m s
  rw [chunkArrives, receiveMsg_arrives h]
  simp only [consumeMsg_fw, hu, hs, ha, ho, k.running, k.idleBank, k.activatePending, k.inTrial, hr, hp, ht, Nat.not_le.mpr hl,
    beq_false_of_ne hb, chunkStore, hlast, Nat.zero_add, hl,
    ne_eq, not_true_eq_false, Option.isSome_none, Bool.not_true, Bool.or_self, Bool.false_eq_true, false_and, if_false, if_true]
  rfl

end
end
end Sys2Proof.Machine

namespace Sys2Proof.Machine

open Sys2Proof

/-! ### Control messages of a link (R70, R391, R392, R428–R430, R559) -/

/-- The echo exchange under way on a port (R70). -/
def echoUnderWay (p : Fin 9) (s : State) : Option Nat := (s.fab.ports[p]).echo

section
variable {p : Fin 9} {s : State}

theorem echoUnderWay_modPort {f : Port → Port} (h : ∀ x, (f x).echo = x.echo) : echoUnderWay p (modPort p f s) = echoUnderWay p s := by
  rw [echoUnderWay, modPort_port, h, echoUnderWay]

theorem echoUnderWay_sendNow (m : TxMsg) : echoUnderWay p (sendNow p m s) = echoUnderWay p s := echoUnderWay_modPort (fun _ => rfl)

theorem echoUnderWay_pumpVc (vc : Fin 5) (fuel : Nat) : echoUnderWay p (pumpVc p vc fuel s) = echoUnderWay p s := by
  induction fuel generalizing s with
  | zero => rfl
  | succ fuel ih =>
    simp only [pumpVc]
    split
    · rfl
    · split
      · rw [ih, echoUnderWay_sendNow]
        exact echoUnderWay_modPort (fun _ => rfl)
      · rfl

theorem echoUnderWay_pump : echoUnderWay p (pump p s) = echoUnderWay p s :=
  foldl_same _ _ (fun _ _ => echoUnderWay_pumpVc _ _) _ s

theorem echoUnderWay_sendOn (vc : Nat) (request : Bool) (m : List Byte) : echoUnderWay p (sendOn p vc request m s) = echoUnderWay p s := by
  rw [sendOn]
  split
  · rw [echoUnderWay_pump]
    exact echoUnderWay_modPort (fun _ => rfl)
  · rfl

theorem echoUnderWay_sendCredit : echoUnderWay p (sendCredit p s) = echoUnderWay p s := by
  simp only [sendCredit]
  split
  · rfl
  · rw [echoUnderWay_sendOn]
    exact echoUnderWay_modPort (fun _ => rfl)

/-- Freeing the flits of a message does not touch the echo exchange (R425). -/
theorem echoUnderWay_consumeMsg (vc : Fin 5) (m : List Byte) : echoUnderWay p (consumeMsg p vc m s) = echoUnderWay p s := by
  simp only [consumeMsg]
  split
  · rfl
  · split
    · rw [echoUnderWay_sendCredit]
      exact echoUnderWay_modPort (fun _ => rfl)
    · exact echoUnderWay_modPort (fun _ => rfl)

end

/-- The well-formed control message `m` of subtype `sub` (R428). -/
structure CtrlMsg (sub : Nat) (m : List Byte) : Prop where
  type : mType m = 0x09
  sub : mfld m 12 1 = sub
  form : wellFormedMsg 4 m = true

section
variable {p : Fin 9} {m : List Byte} {s : State}

theorem CtrlMsg.row {sub : Nat} (h : CtrlMsg sub m) : otherType 0x09 m = false := by
  rw [otherType, h.type, bne_self_eq_false, Bool.false_and]

section
variable (h : CtrlMsg 0x01 m) (hr : running s = true) (ht : (s.fab.ports[p]).state = .training)
include h hr ht

/-- A HELLO before the port's own is kept (R429). -/
theorem helloArrives_early (hs : (s.fab.ports[p]).helloSent = false) :
    helloArrives p m s = modPort p (fun x => { x with peerHello := some m }) s := by
  simp only [helloArrives, h.row, h.sub, h.form, hr, ht, hs, ne_eq, not_true_eq_false, reduceCtorEq, Bool.not_true, Bool.false_and,
    Bool.false_eq_true, and_false, or_self, if_false]

theorem helloArrives_decides (hs : (s.fab.ports[p]).helloSent = true) : helloArrives p m s = tryJoin p m s := by
  simp only [helloArrives, h.row, h.sub, h.form, hr, ht, hs, ne_eq, not_true_eq_false, reduceCtorEq, Bool.not_true, decide_true, Bool.and_self,
    Bool.false_eq_true, and_false, or_self, if_false, if_true]

end

/-- A peer with an id of its own, as expected and with allowed credits, joins (R429). -/
theorem tryJoin_joins (hi : s.fab.id ≠ none) (ho : mfld m 16 2 % 512 ≠ ownDev s)
    (he : (s.fab.ports[p]).expected = none ∨ (s.fab.ports[p]).expected = some (mfld m 16 2 % 512)) (ha : allocOk (helloAlloc m) = true) :
    tryJoin p m s = joinPort p m s := by
  have fits : ¬(s.fab.id.isNone = true ∨ mfld m 16 2 % 512 = ownDev s
      ∨ (s.fab.ports[p]).expected.isSome = true ∧ (s.fab.ports[p]).expected ≠ some (mfld m 16 2 % 512)) := by
    rintro (h | h | ⟨h, hn⟩)
    · exact hi (Option.isNone_iff_eq_none.mp h)
    · exact ho h
    · exact he.elim (fun e => by rw [e] at h; exact Bool.false_ne_true h) hn
  simp only [tryJoin, if_neg fits, ha, Bool.not_true, Bool.false_eq_true, if_false]

/-- A peer without an id of its own, or not the one expected, is refused (R429). -/
theorem tryJoin_refuses (h : s.fab.id = none ∨ mfld m 16 2 % 512 = ownDev s
    ∨ ∃ e, (s.fab.ports[p]).expected = some e ∧ e ≠ mfld m 16 2 % 512) : tryJoin p m s = refuseJoin p (mfld m 16 2 % 512) s := by
  refine if_pos ?_
  rcases h with h | h | ⟨e, he, hn⟩
  · exact Or.inl (Option.isNone_iff_eq_none.mpr h)
  · exact Or.inr (Or.inl h)
  · refine Or.inr (Or.inr ?_)
    rw [he]
    exact ⟨rfl, fun hs => hn (Option.some.inj hs)⟩

section
variable (hj : (s.fab.ports[p]).state = .joined)
include hj

theorem portLive_joined : portLive p s = true := by
  rw [portLive, hj]; rfl

/-- A joined port answers an echo request with the time that the request was held (R70). -/
theorem echoReqArrives_joined (h : CtrlMsg 0x02 m) (hold : W64) : echoReqArrives p m hold s =
    sendOn p 4 false (msgCtrl (mSrc m) 0x03 (mput 16 8 (mfld m 16 8) (mput 24 8 hold.toNat 0)) [] (consumeMsg p 4 m s)) (consumeMsg p 4 m s) := by
  simp only [echoReqArrives, portLive_joined hj, h.row, h.sub, h.form, hj, ne_eq, not_true_eq_false, Bool.not_true, Bool.false_eq_true, and_false,
    or_self, if_false, if_true]

/-- The answer to the exchange under way gives the round trip, of which half is the delay (R70). -/
theorem echoRspArrives_measures (h : CtrlMsg 0x03 m) (t : W64) (he : ((consumeMsg p 4 m s).fab.ports[p]).echo = some (mfld m 16 8)) :
    let trip := (t - BitVec.ofNat 64 (mfld m 16 8) - BitVec.ofNat 64 (mfld m 24 8)).toNat
    echoRspArrives p m t s = modPort p (fun y => { y with
      echo := none, rtt := satTo 32 (trip / 1000), delay := trip / 2, measuring := false }) (consumeMsg p 4 m s) := by
  have same : (s.fab.ports[p]).echo = some (mfld m 16 8) := (echoUnderWay_consumeMsg 4 m).symm.trans he
  simp only [echoRspArrives, portLive_joined hj, h.row, h.sub, h.form, hj, same, ne_eq, not_true_eq_false, reduceCtorEq, Bool.not_true,
    Bool.false_eq_true, and_false, false_and, or_self, if_false]

/-- An answer to no exchange is dropped (R70). -/
theorem echoRspArrives_other (h : CtrlMsg 0x03 m) (t : W64) (he : ((consumeMsg p 4 m s).fab.ports[p]).echo ≠ some (mfld m 16 8)) :
    echoRspArrives p m t s = consumeMsg p 4 m s := by
  have other : (s.fab.ports[p]).echo ≠ some (mfld m 16 8) := fun e => he ((echoUnderWay_consumeMsg 4 m).trans e)
  simp only [echoRspArrives, portLive_joined hj, h.row, h.sub, h.form, other, ne_eq, not_true_eq_false, not_false_eq_true, Bool.not_true,
    Bool.false_eq_true, and_false, or_self, if_false, if_true]

/-- A device's own LINK_STATE that comes back is dropped (R430). -/
theorem linkStateArrives_own (h : CtrlMsg 0x04 m) (ho : mfld m 16 2 % 512 = ownDev (consumeMsg p 4 m s)) :
    linkStateArrives p m s = consumeMsg p 4 m s := by
  simp only [linkStateArrives, hj, h.row, h.sub, h.form, ho, ne_eq, not_true_eq_false, Bool.not_true, Bool.false_eq_true, and_false, true_or,
    or_self, if_false, if_true]

/-- The nine neighbours that a LINK_STATE lists (R428). -/
def linkPeers (m : List Byte) : List (Option Nat) :=
  (List.range 9).map (fun i => if (mfld m (48 + 2 * i) 2).testBit 15 then some (mfld m (48 + 2 * i) 2 % 512) else none)

/-- The record of an origin not heard before is kept, and goes no further after 63 hops (R430). -/
theorem linkStateArrives_new (h : CtrlMsg 0x04 m) (ho : mfld m 16 2 % 512 ≠ ownDev (consumeMsg p 4 m s))
    (hl : ∀ l ∈ (consumeMsg p 4 m s).fab.links, l.origin ≠ mfld m 16 2 % 512) (hh : mHops m % 64 = 63) : linkStateArrives p m s =
    modFab (fun f => { f with
      links := f.links.filter (fun l => l.origin != mfld m 16 2 % 512) ++ [⟨mfld m 16 2 % 512, mfld m 20 4, linkPeers m⟩] })
        (consumeMsg p 4 m s) := by
  have unheard : (consumeMsg p 4 m s).fab.links.find? (fun l => l.origin == mfld m 16 2 % 512) = none :=
    List.find?_eq_none.mpr (fun l hm => by simpa only [beq_iff_eq] using hl l hm)
  simp only [linkStateArrives, hj, h.row, h.sub, h.form, ho, unheard, hh, ne_eq, not_true_eq_false, Bool.not_true, Bool.false_eq_true, and_false,
    or_self, if_false, Nat.le_refl, if_true]
  rfl

section
variable (awake : awake s = true) (h : CtrlMsg 0x05 m) (hd : mDst m = ownDev s)
include awake h hd

/-- A DRAIN for this device arrives on its joined port (R391, R432). -/
theorem drain_arrives : Arrives 0x09 p 4 m s := ⟨awake, hj, h.type, h.form, fun _ => hd⟩

/-- A first DRAIN of a step not yet closed is recorded (R391, R559). -/
theorem drainArrives_records (hn : s.stp.closed < mfld m 16 6) (hi : (consumeMsg p 4 m s).stp.drainsIn.contains (mSrc m, mfld m 16 6) = false)
    (hq : (consumeMsg p 4 m s).stp.drainsOut.contains (mSrc m, mfld m 16 6) = false) : drainArrives p m s =
    modStp (fun x => { x with drainsIn := x.drainsIn ++ [(mSrc m, mfld m 16 6)] }) (consumeMsg p 4 m s) := by
  have row : ¬(mType m = 0x09 ∧ mfld m 12 1 ≠ 0x05) := fun k => k.2 h.sub
  rw [consumeMsg_stp] at hi hq
  rw [drainArrives, if_neg row, receiveMsg_arrives (drain_arrives hj awake h hd)]
  simp only [consumeMsg_stp, modStp_stp, hn, hi, hq, decide_true, Bool.true_or, Bool.not_false, Bool.and_self, Bool.false_and,
    Bool.false_eq_true, if_false, if_true]

/-- A DRAIN recorded before, for a step whose own DRAIN is not out, changes nothing (R559). -/
theorem drainArrives_again (hi : (consumeMsg p 4 m s).stp.drainsIn.contains (mSrc m, mfld m 16 6) = true)
    (hq : (consumeMsg p 4 m s).stp.drainsOut.contains (mSrc m, mfld m 16 6) = false) : drainArrives p m s = consumeMsg p 4 m s := by
  have row : ¬(mType m = 0x09 ∧ mfld m 12 1 ≠ 0x05) := fun k => k.2 h.sub
  rw [consumeMsg_stp] at hi hq
  rw [drainArrives, if_neg row, receiveMsg_arrives (drain_arrives hj awake h hd)]
  simp only [consumeMsg_stp, hi, hq, Bool.not_true, Bool.and_false, Bool.false_and, Bool.false_eq_true, if_false]

end

/-- A peer that leaves for another reason than an orderly one takes the port down (R392, R428). -/
theorem leaveArrives_down (h : CtrlMsg 0x06 m) (hr : mfld m 16 1 ≠ 0) : leaveArrives p m s = portDown p (dropArrivals p s) := by
  simp only [leaveArrives, hj, h.row, h.sub, h.form, hr, ne_eq, not_true_eq_false, Bool.not_true, Bool.false_eq_true, and_false, false_and, or_self,
    if_false]

/-- An orderly leaver also leaves the close peer set (R392). -/
theorem leaveArrives_orderly (h : CtrlMsg 0x06 m) (hr : mfld m 16 1 = 0) (hn : s.stp.left.contains (s.fab.ports[p]).peer = false) :
    leaveArrives p m s = portDown p (dropArrivals p (modStp (fun q => { q with left := q.left ++ [(s.fab.ports[p]).peer] }) s)) := by
  simp only [leaveArrives, hj, h.row, h.sub, h.form, hr, hn, ne_eq, not_true_eq_false, Bool.not_true, Bool.not_false, Bool.false_eq_true, and_false,
    and_self, or_self, if_false, if_true]

/-- A message for another device goes on over its route, with one more hop (R432). -/
theorem messageForward_on {vc : Fin 5} {q : Fin 9} (hw : wellFormedMsg vc m = true) (ht : routedType m = true) (hd : mDst m ≠ ownDev s)
    (hq : routeTo (mDst m) (consumeMsg p vc m s) = some q) (hh : mHops m % 64 < 63) : messageForward p vc m s =
    sendOn q vc.val (isRequest m) (m.take 1 ++ [BitVec.ofNat 8 (mHops m % 64 + 1)] ++ m.drop 2) (consumeMsg p vc m s) := by
  simp only [messageForward, forwardMsg, hj, hw, ht, hq, Nat.not_le.mpr hh, bne_iff_ne, ne_eq, hd, not_false_eq_true, decide_true, Bool.and_self,
    Bool.true_and, if_false, if_true]

end

theorem messageForward_other {vc : Fin 5} (h : routedType m = false ∨ mDst m = ownDev s) : messageForward p vc m s = s := by
  refine if_neg ?_
  rcases h with h | h
  · simp only [h, Bool.and_false, Bool.false_and, Bool.false_eq_true, not_false_eq_true]
  · simp only [h, bne_self_eq_false, Bool.and_false, Bool.false_eq_true, not_false_eq_true]

end
end Sys2Proof.Machine

namespace Sys2Proof.Machine

open Sys2Proof

/-! ### Every message of the fabric (O60) -/

/-- Settles O60: what each message does is a lemma above, carried to its row by `answers_act`. -/
theorem fabricMessages : Obligations.FabricMessages := by
  intro p vc m s x u now lost
  refine ⟨fun h => ?get, fun h => ?data, fun h => ?nak, fun h => ?ack, fun h hp => ?add, fun h => ?credit, fun h => ?gauge, fun h => ?chunk,
    fun awake ht hw => ?ctrl, fun awake hj hw => ⟨fun hr hd q hq hh => ?_, fun h => ?_⟩⟩
  case get =>
    refine ⟨fun ht => ?_, fun t slot ht hs ho => ⟨fun hv => ?_, fun d bs hv hc hd h0 w hx => ?_⟩⟩
    · exact answers_act rfl h.awake (rowGetArrives_noTable h ht)
    · exact answers_act rfl h.awake ((rowGetArrives_owned h ht hs ho).trans ((if_pos hv).trans (serveValidate_eq ht hs)))
    · exact answers_act rfl h.awake ((rowGetArrives_owned h ht hs ho).trans
        ((if_neg (Bool.eq_false_iff.mp hv)).trans (serveGet_primary ht hs hc hd h0 hx)))
  case data =>
    refine ⟨fun hg => ?_, fun g t y hg hv hr ht hl hy => ?_⟩
    · exact answers_act rfl h.awake (rowDataArrives_none h hg)
    · exact answers_act rfl h.awake ((rowDataArrives_row h hg hv hr ht hl).trans (settleGet_kept _ _ _ _ hy))
  case nak =>
    refine ⟨fun hq hg => ?_, fun g y hq hg hv hr hy => ?_, fun r hq hu hr => ?_⟩
    · exact answers_act rfl h.awake (rowNakArrives_get_none h hq hg)
    · exact answers_act rfl h.awake ((rowNakArrives_get_faults h hq hg hv hr).trans (settleGet_kept _ _ _ _ hy))
    · exact answers_act rfl h.awake (rowNakArrives_add_refused h hq hu hr)
  case ack =>
    refine ⟨fun hu => ?_, fun r hu => ?_⟩
    · exact answers_act rfl h.awake (rowAckArrives_none h hu)
    · exact answers_act rfl h.awake (rowAckArrives_stored h hu)
  case add =>
    refine ⟨fun hs => ?_, fun hs hn hw t slot ht ha hl ho hr => ⟨fun hv => ?_, fun hv => ?_⟩⟩
    · exact answers_act rfl h.awake (rowAddArrives_again h hp hs)
    · exact answers_act rfl h.awake ((rowAddArrives_new h hp hs hn hw ht ha hl ho hr (hv ▸ nofun)).trans (if_pos hv))
    · exact answers_act rfl h.awake ((rowAddArrives_new h hp hs hn hw ht ha hl ho hr (hv ▸ nofun)).trans (if_neg (hv ▸ nofun)))
  case credit => exact fun hr => answers_act rfl h.awake (creditArrives_returns h hr)
  case gauge =>
    refine fun since off => ⟨fun hu => ?_, fun hu hh => ?_, fun hu hh => ⟨fun hc => ?_, fun hc => ?_⟩⟩
    · exact answers_act rfl h.awake (gaugeArrives_ignored h _ off hu)
    · exact answers_act rfl h.awake (gaugeArrives_far h _ off hu hh)
    · exact answers_act rfl h.awake (gaugeArrives_connector h _ off hu hh hc)
    · exact answers_act rfl h.awake (gaugeArrives_inband h _ off hu hh hc)
  case chunk =>
    refine ⟨fun hu => ?_, fun hu hr => ?_, fun hu hs ho => ?_, fun hu hr hs ha hb hp ht ho hl hlast => ?_⟩
    · exact answers_act rfl h.awake (chunkArrives_notUpstream h hu)
    · exact answers_act rfl h.awake (chunkArrives_stopped h hu hr)
    · exact answers_act rfl h.awake (chunkArrives_unbegun h hu hs ho)
    · exact answers_act rfl h.awake (chunkArrives_first h hu hr hs ha hb hp ht ho hl hlast)
  case ctrl =>
    refine ⟨fun hsub hr htr => ⟨fun hs => ?_, fun hs => ⟨fun hi ho he ha => ?_, fun hn => ?_⟩⟩, fun hj => ⟨fun hold hsub => ?_,
      fun t hsub => ⟨fun he => ?_, fun he => ?_⟩, fun hsub => ⟨fun ho => ?_, fun ho hl hh => ?_⟩,
      fun hsub hd => ⟨fun hn hi hq => ?_, fun hi hq => ?_⟩, fun hsub => ⟨fun hr => ?_, fun hr hn => ?_⟩⟩⟩
    · exact answers_act rfl awake (helloArrives_early ⟨ht, hsub, hw⟩ hr htr hs)
    · exact answers_act rfl awake ((helloArrives_decides ⟨ht, hsub, hw⟩ hr htr hs).trans (tryJoin_joins hi ho he ha))
    · exact answers_act rfl awake ((helloArrives_decides ⟨ht, hsub, hw⟩ hr htr hs).trans (tryJoin_refuses hn))
    · exact answers_act rfl awake (echoReqArrives_joined hj ⟨ht, hsub, hw⟩ hold)
    · exact answers_act rfl awake (echoRspArrives_measures hj ⟨ht, hsub, hw⟩ t he)
    · exact answers_act rfl awake (echoRspArrives_other hj ⟨ht, hsub, hw⟩ t he)
    · exact answers_act rfl awake (linkStateArrives_own hj ⟨ht, hsub, hw⟩ ho)
    · exact answers_act rfl awake (linkStateArrives_new hj ⟨ht, hsub, hw⟩ ho hl hh)
    · exact answers_act rfl awake (drainArrives_records hj awake ⟨ht, hsub, hw⟩ hd hn hi hq)
    · exact answers_act rfl awake (drainArrives_again hj awake ⟨ht, hsub, hw⟩ hd hi hq)
    · exact answers_act rfl awake (leaveArrives_down hj ⟨ht, hsub, hw⟩ hr)
    · exact answers_act rfl awake (leaveArrives_orderly hj ⟨ht, hsub, hw⟩ hr hn)
  · exact answers_act rfl awake (messageForward_on hj hw hr hd hq hh)
  · exact answers_act rfl awake (messageForward_other h)

end Sys2Proof.Machine

namespace Sys2Proof.Machine

open Sys2Proof

/-! ### A module off or held in reset (R89, R541, R547) -/

/-- Settles O5: only the rows of `inputRow` act in every phase; each of the others is an `act`. -/
theorem asleepIgnores : Obligations.AsleepIgnores := by
  intro c s asleep hc
  cases c with
  | monitorSample | thermTrip | pwrBrakeAssert | pwrBrakeDeassert | powerGood | inputVoltageExcursion | railExcursion
  | modResetAssert | modResetDeassert | warmResetAssert | warmResetDeassert | perstAssert | perstDeassert
  | quiesceComplete | quiesceTimeout | castOnS1 | castOnS2 | castOnS3 | castOnS4 | castOnS5 | castOnS7
  | stageTimeExceeded | closeResume | auxInputRemoved => cases hc
  | _ => exact act_asleep _ asleep

end Sys2Proof.Machine

namespace Sys2Proof.Machine

open Sys2Proof

/-! ### The checks ahead of a command's own part (R92, R96, R97, R166, R169, R467) -/

/-- A fold that keeps the lesser of its value and each element finds the list's minimum. -/
theorem foldl_least {f : Option Nat → Nat → Option Nat} (h0 : ∀ i, f none i = some i) (h1 : ∀ x i, f (some x) i = some (min x i))
    (l : List Nat) : l.foldl f none = l.min? := by
  have kept (l : List Nat) (a : Nat) : l.foldl f (some a) = some (l.foldl min a) := by
    induction l generalizing a with
    | nil => rfl
    | cons b l ih => rw [List.foldl_cons, h1, ih, List.foldl_cons]
  cases l with
  | nil => rfl
  | cons a l => rw [List.foldl_cons, h0, kept, List.min?_cons']

section
variable {d : CmdDef} {n : Fin 64} {e : Entry} {s : State}

/-- The features that the command needs and has not been granted. -/
def missingFeatures (d : CmdDef) (e : Entry) (s : State) : List Nat := (d.needs e).filter (fun i => !granted i s)

theorem mem_missingFeatures {i : Nat} : i ∈ missingFeatures d e s ↔ i ∈ d.needs e ∧ granted i s = false := by
  rw [missingFeatures, List.mem_filter, Bool.not_eq_true']

theorem cmdRefusal_gate (hg : gateShut d.op s = true) : cmdRefusal d n e s = some (stState, 0) := if_pos hg

theorem cmdRefusal_malformed {o : Nat} (hg : gateShut d.op s = false) (hf : entryFault d false (d.timing n e s) e = some o) :
    cmdRefusal d n e s = some (stMalformed, o) := by
  simp only [cmdRefusal, hg, hf, Bool.false_eq_true, if_false]

/-- Past the gates and the entry's fields, the lowest missing feature decides (R166). -/
theorem cmdRefusal_feature {i : Nat} (hg : gateShut d.op s = false) (hf : entryFault d false (d.timing n e s) e = none)
    (hi : (missingFeatures d e s).min? = some i) : cmdRefusal d n e s = some (stFeature, i) := by
  rw [missingFeatures] at hi
  simp only [cmdRefusal, hg, hf, Bool.false_eq_true, if_false]
  rw [foldl_least (fun _ => rfl) (fun _ _ => rfl), hi]

/-- With no feature missing, the queue pair decides (R169). -/
theorem cmdRefusal_granted (hg : gateShut d.op s = false) (hf : entryFault d false (d.timing n e s) e = none)
    (hi : missingFeatures d e s = []) : cmdRefusal d n e s = if qp0Only d.op = true ∧ n ≠ 0 then some (stPolicy, 1) else none := by
  rw [missingFeatures] at hi
  simp only [cmdRefusal, hg, hf, hi, List.foldl_nil, Bool.false_eq_true, if_false, Bool.and_eq_true, decide_eq_true_eq]

/-- A mailbox row's meaning is its catalogue row's command. -/
theorem exec_mailboxRow {c : Instr} (h : mailboxRow c = some (d, n, e)) (s : State) : exec c s = act (command d n e) s := by
  unfold mailboxRow at h
  split at h
  all_goals cases h
  all_goals rfl

/-- A begun command that the checks refuse ends with their status, and, unless an entry field is at fault, does nothing else (R161, R166). -/
theorem runCmd_refused {st sub : Nat} (hn : ¬(d.op = 0x01 ∧ s.mb.negotiated = true)) (hr : cmdRefusal d n e s = some (st, sub))
    (hm : st ≠ stMalformed) : runCmd d n e s = (failEnd st sub, s) := by
  simp only [runCmd, if_neg hn, hr, if_neg hm]

end

/-- Settles O30: the three lemmas on `cmdRefusal` in their order, and what the minimum of the missing features is. -/
theorem mailboxRefusalOrder : Obligations.MailboxRefusalOrder := by
  intro d n e s missing
  refine ⟨cmdRefusal_gate, fun hg o hf => cmdRefusal_malformed hg hf, fun hg hf => ⟨fun i hi hle => ?_, fun hnone => ?_⟩⟩
  · exact cmdRefusal_feature hg hf
      (List.min?_eq_some_iff.mpr ⟨mem_missingFeatures.mpr hi, fun j hj => hle j (mem_missingFeatures.mp hj)⟩)
  · exact cmdRefusal_granted hg hf (List.eq_nil_iff_forall_not_mem.mpr (fun i hi => hnone i (mem_missingFeatures.mp hi)))

/-- Settles O31: the front command begins, its run ends with the refusal, and a failed run only completes. -/
theorem mailboxRefusalHasNoEffect : Obligations.MailboxRefusalHasNoEffect := by
  intro c d n e x earlier s st sub hc awake ho hf hx hb hh hn hr hm
  refine answers_act (exec_mailboxRow hc s) awake ?_
  rw [command_front ho hf hx hb hh, runCmd_refused (s := begun n e s) hn hr hm]
  rfl

end Sys2Proof.Machine

namespace Sys2Proof.Machine

open Sys2Proof

/-! ### The session commands (R105, R140, R141, R159, R160, R163, R173) -/

section
variable {n : Fin 64} {e : Entry} {s : State}

/-- The first NEGOTIATE after stage S5 begins stage S6 (R92). -/
def negotiating (s : State) : State := if s.rst.stage = 5 then { s with rst := { s.rst with stage := 6 } } else s

theorem offered_negotiating : offered (negotiating s) = offered s := by
  simp only [negotiating]; split <;> rfl

theorem run_negotiate (h : efld e 8 16 % 2 = 1) : cmdNegotiate.run n e s = (okEnd (efld e 8 16 &&& offered s) 0,
    { negotiating s with mb := { (negotiating s).mb with
      negotiated := true, features := BitVec.ofNat 128 (efld e 8 16 &&& offered s) } }) := by
  have base : ¬efld e 8 16 % 2 = 0 := by omega
  rw [← offered_negotiating (s := s)]
  exact if_neg base

/-- Without BASE nothing is granted (R160). -/
theorem run_negotiate_baseless (h : efld e 8 16 % 2 = 0) : cmdNegotiate.run n e s = (failEnd stFeature 0, negotiating s) := if_pos h

theorem run_qpCreate (hd : (s.mb.qps[namedQp e]).state = .disabled) (hs : hostRefuses (efld e 16 8) 64 s = false)
    (hc : hostRefuses (efld e 24 8) 32 s = false) : cmdQpCreate.run n e s = (okEnd 0 0, modQp (namedQp e) (fun _ => newQp e) s) := by
  simp only [cmdQpCreate, hd, hs, hc, ne_eq, not_true_eq_false, Bool.false_eq_true, if_false]

theorem run_qpDelete (h0 : namedQp e ≠ 0) (hd : (s.mb.qps[namedQp e]).state ≠ .disabled) (hs : (s.mb.qps[namedQp e]).stop = none) :
    cmdQpDelete.run n e s = (.works, stopQp (namedQp e) (some (Entry.cid e)) s) := by
  simp only [cmdQpDelete, if_neg h0, hd, hs, ne_eq, not_true_eq_false, or_self, if_false]

end

/-- Settles O34: each command's run is a `run_` lemma or plain; a NEGOTIATE after a granted one is answered ahead of the checks. -/
theorem sessionCommands : Obligations.SessionCommands := by
  intro n e s b b6 m
  refine ⟨fun ha => ⟨fun hb => ?_, fun hb => ?_⟩, fun x earlier awake ho hf hx hm hh hn => ?_, fun ha => ?_, fun ha => ?_,
    fun ha hd hs hc => ?_, fun ha h0 hd hs => ?_⟩
  · exact accepted_done rfl ha (run_negotiate hb)
  · exact accepted_fail rfl ha (run_negotiate_baseless hb)
  · refine answers_act rfl awake ((command_front (d := cmdNegotiate) ho hf hx hm hh).trans ?_)
    exact congrArg (settleCmd n (Entry.cid e)) (if_pos ⟨rfl, hn⟩)
  · exact accepted_done rfl ha (congrArg (Prod.mk _) (writeBuf_accepted ha _))
  · exact accepted_done rfl ha (congrArg (Prod.mk _) (writeBuf_accepted ha _))
  · exact accepted_done rfl ha (run_qpCreate hd hs hc)
  · exact accepted_works rfl ha (run_qpDelete h0 hd hs)

end Sys2Proof.Machine

namespace Sys2Proof.Machine

open Sys2Proof

/-! ### Patterns, launches and tile resets (R112, R182, R278–R280) -/

section
variable {n : Fin 64} {e : Entry} {s : State}

/-- A buffer that the host serves is read (R147). -/
theorem readBuf_served {len : Nat} (k : List Byte → State → CmdEnd × State) (h : bufferReads e len s) :
    readBuf n e len s k = k (bufferOf e len s) s := by
  rw [bufferReads] at h
  simp only [readBuf, h, bufferOf]

theorem run_patternLoad {h : Nat} (hr : bufferReads e (efld e 12 4) s) (hf : kvFree s.th.patterns 0 256 = some h) :
    cmdPatternLoad.run n e s = (okEnd h 0, { s with th := { s.th with
      patterns := kvSet s.th.patterns h ⟨efld e 8 1 == 1, bufferOf e (efld e 12 4) s⟩ } }) := by
  simp only [cmdPatternLoad, readBuf_served _ hr, hf]
  rfl

theorem run_patternUnload (hp : (patternOf (efld e 8 2) s).isSome = true) (hl : ∀ l ∈ s.th.launches, l.pattern ≠ efld e 8 2) :
    cmdPatternUnload.run n e s = (okEnd 0 0, { s with th := { s.th with patterns := kvErase s.th.patterns (efld e 8 2) } }) := by
  have unused : s.th.launches.any (fun l => l.pattern == efld e 8 2) = false :=
    List.any_eq_false.mpr (fun l hm => by simpa only [beq_iff_eq] using hl l hm)
  simp only [cmdPatternUnload, namedPattern, Option.isNone_eq_false_iff.mpr hp, unused, Bool.or_self, Bool.false_eq_true, if_false]
  rfl

/-- A valid block starts its launch, which waits for its first context (R279, R280). -/
theorem launchRead_starts {b : Nat} {p : Pattern} (hb : blockFault b (efld e 12 4) = none) (hp : patternOf (efld e 8 2) s = some p)
    (ht : maskTiles (efld e 24 2) s ≠ 0) (hc : cmdClass n s = 2 →
      4 * maskUsed (maskTiles (efld e 24 2) s) s ≤ 3 * 512 * (tilesOf (maskTiles (efld e 24 2) s)).length) :
    launchRead n e b s = (.waits resContexts, { s with th := { s.th with
      launches := s.th.launches ++ [newLaunch n e p (maskTiles (efld e 24 2) s) b s], nextLaunch := s.th.nextLaunch + 1 } }) := by
  have room : ¬(cmdClass n s = 2 ∧
      3 * 512 * (tilesOf (maskTiles (efld e 24 2) s)).length < 4 * maskUsed (maskTiles (efld e 24 2) s) s) :=
    fun h => Nat.not_lt.mpr (hc h.1) h.2
  simp only [launchRead, hb, namedPattern, hp, if_neg ht, if_neg room]
  rfl

theorem run_launch {bs : List Byte} {t : State} (hb : blockTranslates (Entry.tag e) (efld e 16 8) s = true)
    (hx : xRead ⟨0, 16, (cmdClass n s).val, false, efld e 16 8⟩ (Entry.tag e) (efld e 16 8) 192 .read s = (.data bs, t)) :
    cmdLaunch.run n e s = launchRead n e (ofBytes bs) t := by
  simp only [cmdLaunch, launchOn, hb, hx, Bool.not_true, Bool.false_eq_true, if_false]

theorem run_tileReset {k : Nat} {t : State} (hu : s.ram.tiles.getLsbD (efld e 8 1 % 16) = true)
    (ht : tileReset (Fin.ofNat 16 (efld e 8 1)) s = (k, t)) : cmdTileReset.run n e s = (okEnd k 0, t) := by
  have usable : s.ram.tiles.getLsbD (Fin.ofNat 16 (efld e 8 1)).val = true := hu
  simp only [cmdTileReset, usable, ht, Bool.not_true, Bool.false_eq_true, if_false]

end

/-- A command that has begun and waits for a reason stays in its slot, not effective (R157). -/
theorem accepted_waits {d : CmdDef} {n : Fin 64} {e : Entry} {s t : State} {c : Instr} {w : Nat} (hx : exec c s = act (command d n e) s)
    (h : Accepted d n e s) (hr : d.run n e (begun n e s) = (.waits w, t)) :
    Answers c s (modCmd n (Entry.cid e) (fun c => { c with wait := some w, effective := false, stall := .none }) t) := by
  simpa only [Answers, settleCmd] using exec_accepted hx h hr

/-- Settles O39: each command's run is a `run_` lemma, and the `accepted_` lemmas carry it to the row's answer. -/
theorem launchCommands : Obligations.LaunchCommands := by
  intro n e s b
  refine ⟨fun h ha hr hf => ?_, fun ha hp hl => ?_, fun bs b1 p ha hb hx hf hp ht hc => ?_, fun k t ha hu ht => ?_⟩
  · exact accepted_done rfl ha (run_patternLoad hr hf)
  · exact accepted_done rfl ha (run_patternUnload hp hl)
  · exact accepted_waits rfl ha ((run_launch hb hx).trans (launchRead_starts hf hp ht hc))
  · exact accepted_done rfl ha (run_tileReset hu ht)

end Sys2Proof.Machine

namespace Sys2Proof.Machine

open Sys2Proof

/-! ### The fabric commands (R113, R187, R188, R429, R433, R439, R442) -/

section
variable {n : Fin 64} {e : Entry} {s : State}

theorem run_fabricId (h : ∀ i : Fin 9, (s.fab.ports[i]).state ≠ .joined) :
    cmdFabricId.run n e s = (okEnd 0 0, { s with fab := { s.fab with id := some (efld e 8 2 % 512) } }) := by
  have none_joined : s.fab.ports.any (fun p => p.state == .joined) = false :=
    Vector.any_eq_false.mpr (fun i hi hc => h ⟨i, hi⟩ (beq_iff_eq.mp hc))
  simp only [cmdFabricId, none_joined, Bool.false_eq_true, if_false]
  rfl

/-- The device that a PORT_CONFIG expects, if it names one. -/
def wantedPeer (e : Entry) : Option Nat := if efld e 12 2 = 0x1FF then none else some (efld e 12 2)

/-- The port as a PORT_CONFIG with EN 1 sets it (R187). -/
def portSet (e : Entry) (s : State) : State := modPort (namedPort e) (fun x => { x with
  enabled := true, expected := wantedPeer e, violLimit := if efld e 10 2 = 0 then 64 else efld e 10 2 }) s

/-- The command waits for its port's join, behind those that do. -/
def joinAwaited (n : Fin 64) (e : Entry) (s : State) : State :=
  modPort (namedPort e) (fun x => { x with waiters := x.waiters ++ [(n.val, Entry.cid e)] }) s

theorem run_portConfig_off (h : e.getLsbD 72 = false) : cmdPortConfig.run n e s = (okEnd 0 0, portDisable (namedPort e) s) := by
  have off : e.getLsbD (8 * 9) = false := h
  simp only [cmdPortConfig, off, Bool.not_false, if_true]

section
variable (hen : e.getLsbD 72 = true) (hid : s.fab.id.isSome = true)
include hen hid

theorem run_portConfig_joined (hj : ((portSet e s).fab.ports[namedPort e]).state = .joined)
    (hw : wantedPeer e = none ∨ wantedPeer e = some ((portSet e s).fab.ports[namedPort e]).peer) :
    cmdPortConfig.run n e s = (okEnd ((portSet e s).fab.ports[namedPort e]).peer 0, portSet e s) := by
  have on : e.getLsbD (8 * 9) = true := hen
  have wanted : ¬((wantedPeer e).isSome = true ∧ wantedPeer e ≠ some ((portSet e s).fab.ports[namedPort e]).peer) := by
    rintro ⟨hs, hne⟩
    rcases hw with h | h
    · rw [h] at hs; cases hs
    · exact hne h
  rw [portSet, wantedPeer] at hj wanted ⊢
  simp only [cmdPortConfig, on, Option.isNone_eq_false_iff.mpr hid, hj, if_neg wanted, Bool.not_true, Bool.false_eq_true, if_false,
    if_true]

/-- A port that has not joined goes on as its state says (R187). -/
theorem run_portConfig_unjoined (hj : ((portSet e s).fab.ports[namedPort e]).state ≠ .joined) :
    cmdPortConfig.run n e s = portEnable (namedPort e) n e (portSet e s) := by
  have on : e.getLsbD (8 * 9) = true := hen
  rw [portSet, wantedPeer] at hj ⊢
  simp only [cmdPortConfig, on, Option.isNone_eq_false_iff.mpr hid, if_neg hj, Bool.not_true, Bool.false_eq_true, if_false]

end

theorem portEnable_training (h : (s.fab.ports[namedPort e]).state = .training) :
    portEnable (namedPort e) n e s = (.works, joinAwaited n e s) := by
  simp only [portEnable, h, waitJoin, joinAwaited]

theorem portEnable_trains (h : (s.fab.ports[namedPort e]).state = .down ∨ (s.fab.ports[namedPort e]).state = .disabled) :
    portEnable (namedPort e) n e s =
      (.works, joinAwaited n e (modPort (namedPort e) (fun x => { x.cleared with state := .training }) s)) := by
  rcases h with h | h <;> simp only [portEnable, h, waitJoin, joinAwaited]

/-- A valid map of a higher generation takes effect where no close runs (R188). -/
theorem run_shardmapLoad {es : List ShardEntry} (hr : bufferReads e (16 * efld e 12 4) s)
    (hp : shardParse (fun id => (tableOf id s).map (·.rows)) (efld e 12 4) (bufferOf e (16 * efld e 12 4) s) [] = .ok es)
    (hg : s.fab.gen < efld e 8 4) (hc : closingOf s = none) : cmdShardmapLoad.run n e s =
      (okEnd s.fab.gen 0, releaseGen { s with fab := { s.fab with gen := efld e 8 4, shards := es } }) := by
  simp only [cmdShardmapLoad, loadRun, readBuf_served _ hr, hp, if_neg (Nat.not_le.mpr hg), hc, loadMap, Option.isSome_none,
    Bool.false_eq_true, if_false]
  rfl

theorem reinitDrive_usable {d : Fin 4} {r : DriveReport} (hf : r.failed = 0) (ht : r.fitted = true) :
    reinitDrive d r s = (true, unfenceBlocks d (initDrive d r (abandonNvme d s))) := if_pos ⟨hf, ht⟩

theorem run_portReset_henur {r : DriveReport} (hk : efld e 9 1 = 0) (he : (s.fab.ports[namedPort e]).enabled = true) :
    (cmdPortReset r).run n e s = (.works, joinAwaited n e (portResetBye (namedPort e) s)) := by
  simp only [cmdPortReset, hk, he, waitJoin, joinAwaited, Nat.zero_ne_one, Bool.not_true, Bool.false_eq_true, if_false]

theorem run_portReset_nvme {r : DriveReport} (hk : efld e 9 1 = 1) (hf : r.failed = 0) (ht : r.fitted = true) :
    (cmdPortReset r).run n e s = (okEnd 0 0, unfenceBlocks (Fin.ofNat 4 (efld e 8 1)) (initDrive (Fin.ofNat 4 (efld e 8 1)) r
      (abandonNvme (Fin.ofNat 4 (efld e 8 1)) (sqFlushIds (sqNvmeIds (efld e 8 1 % 4)) s)))) := by
  simp only [cmdPortReset, hk, reinitDrive_usable hf ht, if_true]
  rfl

theorem run_portUnfence (h : (s.fab.ports[namedPort e]).state = .fenced) : cmdPortUnfence.run n e s = (.works, joinAwaited n e
    (portReset (namedPort e) (modPort (namedPort e) (fun x => { x with violations := 0, inSecond := 0 }) s))) := by
  simp only [cmdPortUnfence, h, waitJoin, joinAwaited, ne_eq, not_true_eq_false, if_false]

theorem hostReach_countAllFec : hostReach (countAllFec s) = hostReach s := by
  refine foldl_same hostReach countFec (fun s p => ?_) _ s
  rw [countFec]
  split <;> rfl

theorem writeBuf_reached (bs : List Byte) (h : hostReach s = true) : writeBuf e bs s = buffered e bs s := by
  simp only [writeBuf, hostWrite, h, if_true, buffered]

theorem run_fabricStatus {t : State} (h : hostReach s = true) (ht : countAllFec s = t) :
    cmdFabricStatus.run n e s = (okEnd t.fab.gen 0, buffered e (t.fab.ports.toList.flatMap Port.record) t) := by
  subst ht
  exact congrArg (Prod.mk _) (writeBuf_reached _ (hostReach_countAllFec.trans h))

end

/-- Settles O41: each command's run is a `run_` lemma, and the `accepted_` lemmas carry it to the row's answer. -/
theorem fabricCommands : Obligations.FabricCommands := by
  intro n e s b p waiting want
  refine ⟨fun ha hj => ?_, fun ha => ⟨fun hoff => ?_, fun hen hid => ⟨fun hj hw => ?_, fun ht => ?_, fun hd => ?_⟩⟩,
    fun es ha hr hp hg hc => ?_, fun r ha => ⟨fun hk he => ?_, fun hk hf ht => ?_⟩, fun ha hf => ?_, fun ha => ?_⟩
  · exact accepted_done rfl ha (run_fabricId hj)
  · exact accepted_done rfl ha (run_portConfig_off hoff)
  · exact accepted_done rfl ha (run_portConfig_joined hen hid hj hw)
  · exact accepted_works rfl ha ((run_portConfig_unjoined hen hid (ht ▸ nofun)).trans (portEnable_training ht))
  · exact accepted_works rfl ha
      ((run_portConfig_unjoined hen hid (fun hj => by rcases hd with h | h <;> cases hj.symm.trans h)).trans (portEnable_trains hd))
  · exact accepted_done rfl ha (run_shardmapLoad hr hp hg hc)
  · exact accepted_works rfl ha (run_portReset_henur hk he)
  · exact accepted_done rfl ha (run_portReset_nvme hk hf ht)
  · exact accepted_works rfl ha (run_portUnfence hf)
  · generalize hc : countAllFec b = c
    exact accepted_done rfl ha (run_fabricStatus ha.reach hc)

end Sys2Proof.Machine

namespace Sys2Proof.Machine

open Sys2Proof

/-! ### Power, monitors, logs, the tally, WARM_RESET and BIND_OFF (R96, R174, R190, R453–R474) -/

section
variable {n : Fin 64} {e : Entry} {s : State}

/-- POWER_CAP completes where the cap already stands at what grant and ceiling allow (R190). -/
theorem run_powerCap_reached (h : capReached (setHostCap (efld e 8 2) s) = true) :
    cmdPowerCap.run n e s = (okEnd (capNow (setHostCap (efld e 8 2) s)) 0, setHostCap (efld e 8 2) s) := if_pos h

theorem run_powerCap_waits (h : capReached (setHostCap (efld e 8 2) s) = false) :
    cmdPowerCap.run n e s = (.works, setHostCap (efld e 8 2) s) := if_neg (Bool.eq_false_iff.mp h)

theorem run_monRead {bs : List Byte} {h : W64} {t u : State} (hp : monPage (List.finRange 88) s = (bs, t)) (hh : hottestResult t = (h, u)) :
    cmdMonRead.run n e s = (.done stOK 0 h 0, writeBuf e bs u) := by
  simp only [cmdMonRead, hp, hh]

theorem newestIndex_cons {x : LogEntry} {rest : List LogEntry} (h : s.er.ring = x :: rest) :
    newestIndex s = (BitVec.ofNat 64 ((x.seq - 1).toNat % 4096), s) := by
  simp only [newestIndex, h, LogEntry.slot]

theorem run_logRead {x : LogEntry} {rest : List LogEntry} (hr : hostReach s = true) (h : s.er.ring = x :: rest) :
    cmdLogRead.run n e s = (okEnd ((x.seq - 1).toNat % 4096) 0,
      buffered e ((List.range (efld e 10 2)).flatMap (fun i => logAt ((efld e 8 2 + i) % 4096) s)) s) := by
  simp only [cmdLogRead, newestIndex_cons h, writeBuf_reached _ hr, okEnd, BitVec.ofNat_eq_ofNat]

theorem run_tallyAudit (h : s.ty.check = none) :
    cmdTallyAudit.run n e s = (.works, checkBegin (.audit n.val (Entry.cid e)) s) := by
  simp only [cmdTallyAudit, h, Option.isSome_none, Bool.false_eq_true, if_false]

theorem run_tallyRead {bs : List Byte} (hr : hostReach s = true) (h : tallyRecord (efld e 8 2) s = some bs) :
    cmdTallyRead.run n e s = (okEnd 0 0, buffered e bs s) := by
  simp only [cmdTallyRead, h, writeBuf_reached _ hr]

/-- The state in which a BIND_OFF has begun (R96). -/
def bindBegun (n : Fin 64) (e : Entry) (s : State) : State :=
  { s with rst := { s.rst with bindOff := some ⟨n.val, Entry.cid e, 0, 0, [], []⟩ } }

/-- With no BIND_OFF under way and no step open or confirming, BIND_OFF begins, and waits only for a close (R96). -/
theorem run_bindOff (hb : s.rst.bindOff = none) (hl : ∀ x ∈ s.stp.live, x.phase ≠ .opened ∧ x.phase ≠ .confirm) :
    cmdBindOff.run n e s = if (closingOf (bindBegun n e s)).isSome then (.waits 0x0101, bindBegun n e s) else (.works, bindBegun n e s) := by
  have none_open : s.stp.live.any (fun x => x.phase == .opened || x.phase == .confirm) = false := by
    refine List.any_eq_false.mpr (fun x hx hc => ?_)
    simp only [Bool.or_eq_true, beq_iff_eq] at hc
    exact hc.elim (hl x hx).1 (hl x hx).2
  have free : (s.rst.bindOff.isSome || s.stp.live.any (fun x => x.phase == .opened || x.phase == .confirm)) = false := by
    rw [hb, none_open]; rfl
  exact if_neg (Bool.eq_false_iff.mp free)

end

/-- Settles O43: each command's run is a `run_` lemma or plain, and the `accepted_` lemmas carry it to the row's answer. -/
theorem controlCommands : Obligations.ControlCommands := by
  intro n e s b
  refine ⟨fun ha => ⟨fun hc => ?_, fun hc => ?_⟩, fun bs h b1 b2 ha hp hh => ?_, fun ha => ?_, fun x rest ha hx => ?_, fun ha => ?_,
    fun ha hc => ?_, fun bs ha hb => ?_, fun ha => ?_, fun ha hb hl => ⟨fun hc => ?_, fun hc => ?_⟩⟩
  · exact accepted_done rfl ha (run_powerCap_reached (decide_eq_true hc))
  · exact accepted_works rfl ha (run_powerCap_waits (decide_eq_false hc))
  · exact accepted_done rfl ha (run_monRead hp hh)
  · exact accepted_done rfl ha rfl
  · exact accepted_done rfl ha (run_logRead ha.reach hx)
  · exact accepted_done rfl ha rfl
  · exact accepted_works rfl ha (run_tallyAudit hc)
  · exact accepted_done rfl ha (run_tallyRead ha.reach hb)
  · exact accepted_done rfl ha rfl
  · exact accepted_works rfl ha ((run_bindOff hb hl).trans (if_neg (by rw [Bool.not_eq_true]; exact congrArg Option.isSome hc)))
  · exact accepted_waits rfl ha ((run_bindOff hb hl).trans (if_pos hc))

end Sys2Proof.Machine

namespace Sys2Proof.Machine

open Sys2Proof

/-! ### The cast-on stages (R89–R95, R106) -/

section
variable {s : State}

@[simp] theorem linkStart_rst : (linkStart s).rst = s.rst := by
  rw [linkStart]; split <;> rfl

/-- Stage S1 has begun (R89, R91). -/
def castOnBegun (s : State) : State := linkStart { s with rst := { s.rst with phase := .up, stage := 1 } }

/-- With the reset pins high stage S1 begins; a warm reset goes on from it (R89, R548). -/
theorem castOnS1_begins (b : BootReport) (hp : s.rst.phase = .pinWait) (hm : s.pins.modReset = false)
    (hw : s.rst.warm = true → s.pins.warmReset = false ∧ s.pins.perst = false) :
    castOnS1 b s = if s.rst.warm = true then castOnBegun s else bootCold b (castOnBegun s) := by
  have pins : ¬(s.rst.phase ≠ .pinWait ∨ s.pins.modReset = true ∨ s.rst.warm = true ∧ (s.pins.warmReset = true ∨ s.pins.perst = true)) := by
    rintro (h | h | ⟨h, h'⟩)
    · exact h hp
    · rw [hm] at h; cases h
    · obtain ⟨h1, h2⟩ := hw h
      rw [h1, h2] at h'
      exact h'.elim nofun nofun
  have warm : (castOnBegun s).rst.warm = s.rst.warm := by rw [castOnBegun, linkStart_rst]
  rw [castOnS1, if_neg pins]
  change (if (castOnBegun s).rst.warm = true then castOnBegun s else bootCold b (castOnBegun s)) = _
  rw [warm]

/-- What a cold S1 finds once the fuses read: the strap, the damage, and the key in force (R90, R499, R513). -/
def bootChecked (b : BootReport) (s : State) : State :=
  let m := markDamage b { s with pins := { s.pins with recovery := b.strap } }
  { m with fw := { m.fw with key := keyAtBoot m } }

section
variable {b : BootReport}

theorem bootCold_fuses (h : b.fuseOk = false) : bootCold b s = stageFail 4 s := by
  simp only [bootCold, h, Bool.not_false, if_true]

/-- Without a valid owner key the device enters ROM recovery with code 5 (R499, R523). -/
theorem bootCold_noKey (h : b.fuseOk = true) (hk : noKey (bootChecked b s) = true) : bootCold b s = recoveryEnter 5 (bootChecked b s) := by
  rw [bootCold, h]
  exact if_pos hk

theorem bootCold_strap (h : b.fuseOk = true) (hk : noKey (bootChecked b s) = false) (hs : b.strap = true) :
    bootCold b s = recoveryEnter 0 (bootChecked b s) := by
  rw [bootCold, h]
  exact (if_neg (Bool.eq_false_iff.mp hk)).trans (if_pos hs)

theorem bootCold_boots {i : Fin 2} {is : List (Fin 2)} {t : State} (h : b.fuseOk = true) (hk : noKey (bootChecked b s) = false)
    (hs : b.strap = false) (hb : bootOrder (bootChecked b s) = (some (i :: is), t)) : bootCold b s = t := by
  rw [bootCold, h]
  refine (if_neg (Bool.eq_false_iff.mp hk)).trans ((if_neg (Bool.eq_false_iff.mp hs)).trans ?_)
  rw [bootChecked, hs] at hb
  simp only [modFw, hs, hb]

end

theorem stageAfter_of {j : Nat} (hp : s.rst.phase = .up) (hj : s.rst.stage = j) (hr : s.rst.ready = false) (hh : s.rst.held = false) :
    stageAfter j s = true := by
  simp only [stageAfter, hp, hj, hr, hh, decide_true, Bool.not_false, Bool.and_self]

/-! #### S2 to S5 -/

section
variable (hp : s.rst.phase = .up) (hr : s.rst.ready = false) (hh : s.rst.held = false)
include hp hr hh

theorem stageTime_fails (h : 1 ≤ s.rst.stage) : stageTime s = stageFail 3 s := if_pos ⟨hp, h, hr, hh⟩

/-- Stage S2 runs the first candidate whose image passes its checks (R513). -/
theorem castOnS2_runs {is : List (Fin 2)} {t x : State} {i : Fin 2} (hw : s.rst.warm = false) (hc : s.rst.recovery = false)
    (hj : s.rst.stage = 1) (ht : modRst (fun r => { r with stage := 2 }) s = t) (hb : bootOrder t = (some is, x))
    (hi : is.find? (fun i => bankBoots t.fw.banks[i] t) = some i) : castOnS2 s = modFw (fun f => { f with running := i }) t := by
  simp only [castOnS2, stageAfter_of hp hj hr hh, hw, hc, ht, hb, Option.getD_some, hi, Bool.not_true, Bool.or_self, Bool.false_eq_true,
    if_false]

/-- A cold stage S3 follows S2 (R89). -/
theorem castOnS3_cold (h : HardwareReport) (hw : s.rst.warm = false) (hc : s.rst.recovery = false) (hj : s.rst.stage = 2) :
    castOnS3 h s = trainCold h (modRst (fun r => { r with stage := 3 }) s) := by
  simp only [castOnS3, hw, hc, stageAfter_of hp hj hr hh, modRst_rst, Bool.not_true, Bool.or_self, Bool.false_eq_true, if_false]

theorem castOnS4_ends (hc : s.rst.recovery = false) (hj : s.rst.stage = 3) :
    castOnS4 s = releaseHeld (modRst (fun r => { r with stage := 4, hostOn := true }) s) := by
  simp only [castOnS4, hc, stageAfter_of hp hj hr hh, Bool.false_eq_true, if_false, if_true]

end

/-- Without a usable HBM stack S3 holds the device (R94, R95). -/
theorem trainCold_noStack {h : HardwareReport} (h0 : h.stackSet = 0) : trainCold h s = stageFail 2 s := if_pos h0

theorem excludeStack_logs (m : BitVec 8) (s : State) (k : Nat) : LogsOnly s (excludeStack m s k) := by
  rw [excludeStack]
  split
  · exact LogsOnly.refl s
  · exact logErr_logs _ _ _ _ _ _ _

/-- Examining a drive touches neither the stage, the HBM and the tiles, nor the fabric (R226). -/
theorem initDrive_keeps (p : Fin 4) (r : DriveReport) (s : State) :
    (initDrive p r s).rst.stage = s.rst.stage ∧ (initDrive p r s).ram = s.ram ∧ (initDrive p r s).fab = s.fab := by
  rw [initDrive]
  split
  · exact ⟨rfl, rfl, rfl⟩
  · rw [logErr_rst, logErr_ram, logErr_fab]
    exact ⟨rfl, rfl, rfl⟩

/-- The stage, the usable stacks and tiles, and the usable ports. -/
def fitted (s : State) : Nat × BitVec 8 × BitVec 16 × BitVec 9 := (s.rst.stage, s.ram.stackSet, s.ram.tiles, s.fab.usable)

theorem fitted_initDrive (p : Fin 4) (r : DriveReport) (s : State) : fitted (initDrive p r s) = fitted s := by
  obtain ⟨hs, hr, hf⟩ := initDrive_keeps p r s
  rw [fitted, hs, hr, hf, fitted]

theorem fitted_excludeStack (m : BitVec 8) (s : State) (k : Nat) : fitted (excludeStack m s k) = fitted s := by
  obtain ⟨_, _, _, _, _, _, _, h⟩ := excludeStack_logs m s k
  rw [h]; rfl

/-- Otherwise S3 takes the units that the report says are usable, and recounts (R89, R95). -/
theorem trainCold_finds {h : HardwareReport} (h0 : h.stackSet ≠ 0) :
    fitted (trainCold h s) = (s.rst.stage, h.stackSet, h.tiles, h.ports) ∧ (trainCold h s).rst.recountDone = true := by
  rw [trainCold, if_neg h0]
  refine ⟨?_, by rw [raise_rst]; rfl⟩
  have kept (t : State) (v : Fin 128) (f : ResetUnit → ResetUnit) (hf : (f t.rst).stage = t.rst.stage) :
      fitted (raise v (modRst f t)) = fitted t := by
    rw [fitted, raise_rst, raise_ram, raise_fab, modRst_rst, hf]; rfl
  refine (kept _ _ _ rfl).trans ?_
  simp only [initDrives, fitted_initDrive]
  exact foldl_same fitted _ (fitted_excludeStack h.stackSet) _ _

/-! #### S5: READY -/

theorem applyEnable_idle (he : s.mb.ctrl.getLsbD 0 = false) (hq : (s.mb.qps[(0 : Fin 64)]).state ≠ .enabled) : applyEnable s = s := by
  simp only [applyEnable, he, hq, Bool.false_eq_true, false_and, and_false, if_false]

theorem releaseDoorbells_none (hd : s.mb.doorbells = []) (hv : s.mb.heldValues = []) : releaseDoorbells s = s := by
  rw [releaseDoorbells, hd, List.foldl_nil]
  calc ({ s with mb := { s.mb with doorbells := [], heldValues := [] } } : State)
    _ = { s with mb := { s.mb with doorbells := s.mb.doorbells, heldValues := s.mb.heldValues } } := by rw [hd, hv]
    _ = s := rfl

theorem closeInterim_none (h : s.rst.resumeAt ≠ 2) : closeInterim s = s := if_pos h

theorem standaloneCheck_addressed (h : s.sb.addr ≠ none) : standaloneCheck s = s :=
  if_neg (fun hc => h (Option.isNone_iff_eq_none.mp hc.1))

theorem logFallback_none (h : s.fw.fallback = none) : logFallback s = s := by
  rw [logFallback, h]

theorem finishClose_none (h : closingOf s = none) : finishClose s = s := by
  rw [finishClose, h]

/-- With nothing held back and no close interrupted, S5 sets READY (R92). -/
theorem castOnS5_ready (hj : stageAfter 4 s = true) (hw : s.rst.warm = false) (he : s.mb.ctrl.getLsbD 0 = false)
    (hq : (s.mb.qps[(0 : Fin 64)]).state ≠ .enabled) (hd : s.mb.doorbells = []) (hv : s.mb.heldValues = []) (hres : s.rst.resumeAt = 0)
    (hf : s.fw.fallback = none) (hc : closingOf s = none) (ha : s.sb.addr ≠ none) :
    castOnS5 s = modRst (fun r => { r with stage := 5, ready := true }) s := by
  have cold : (modRst (fun r => { r with stage := 5, ready := true }) s).rst.warm = false := hw
  have resumes : (modRst (fun r => { r with stage := 5, ready := true }) s).rst.resumeAt ≠ 2 := by rw [modRst_rst, hres]; decide
  simp only [castOnS5, hj, cold, Bool.not_true, Bool.false_eq_true, if_false]
  rw [applyEnable_idle (s := modRst _ s) he hq, releaseDoorbells_none (s := modRst _ s) hd hv, closeInterim_none resumes,
    standaloneCheck_addressed (s := modRst _ s) ha, logFallback_none (s := modRst _ s) hf, finishClose_none (s := modRst _ s) hc]

/-! #### S7, a resumed close -/

/-- Stage S7: the ports start and a grant is taken (R93, R481). -/
theorem castOnS7_starts (hr : running s = true) (hj : s.rst.stage = 6) (hn : s.mb.negotiated = true) (hc : s.rst.recovery = false) :
    castOnS7 s = (List.finRange 9).foldl portStart (grantAtS7 (modRst (fun r => { r with stage := 7 }) s)) := by
  simp only [castOnS7, hr, hj, hn, hc, decide_true, Bool.not_false, Bool.and_self, if_true]

theorem closeResume_restarts {st : Step} {k : Nat} (hr : running s = true) (hc : closingOf s = some (st, k)) (h : s.rst.resumeAt ≠ 0) :
    closeResume s = stageBegin st.num s.rst.resumeAt (modRst (fun r => { r with resumeAt := 0 }) s) := by
  simp only [closeResume, hc, hr, decide_eq_true h, Bool.and_self, if_true]

end

end Sys2Proof.Machine

namespace Sys2Proof.Machine

open Sys2Proof

/-! ### The trial and the apply of an image (R512, R519, R520) -/

section
variable {s : State}

theorem running_awake (h : running s = true) : awake s = true := by
  simp only [running, Bool.and_eq_true, decide_eq_true_eq] at h
  exact decide_eq_true (Or.inl h.1.1)

theorem vmod_congr {α : Type} {n : Nat} {v : Vector α n} {i : Fin n} {f g : α → α} (h : f v[i] = g v[i]) : vmod v i f = vmod v i g := by
  rw [vmod, vmod, h]

theorem otherBank_ne (b : Fin 2) : b ≠ otherBank b := by
  revert b; decide

theorem selfConfirm_confirms (hr : running s = true) (ht : inTrial s = true) : selfConfirm s = raise 74 (modFw (fun f => { f with
    banks := vmod f.banks f.running (fun x => { x with state := 3, fallbacks := 0 }), retained := none }) s) := by
  rw [selfConfirm, hr, ht]; rfl

/-- The banks after the trial of bank `b` has failed, the other bank's first (R520). -/
def failedBanks (b : Fin 2) (v : Vector Bank 2) : Vector Bank 2 :=
  vmod (vmod v b (fun x => { x with state := 4 })) (otherBank b) (fun x => { x with fallbacks := 1 })

theorem failedBanks_other (b : Fin 2) (v : Vector Bank 2) : (failedBanks b v)[otherBank b] = { v[otherBank b] with fallbacks := 1 } := by
  rw [failedBanks, vmod_self, vmod_other _ _ (otherBank_ne b)]

theorem trialFail_first (h : (s.fw.banks[otherBank s.fw.running]).fallbacks = 0) : trialFail s = modFw (fun f => { f with
    banks := failedBanks s.fw.running s.fw.banks, running := otherBank s.fw.running, retained := none }) s := by
  have counted : vmod (vmod s.fw.banks s.fw.running (fun x => { x with state := 4 })) (otherBank s.fw.running)
      (fun x => { x with fallbacks := x.fallbacks + 1 }) = failedBanks s.fw.running s.fw.banks :=
    vmod_congr (by rw [vmod_other _ _ (otherBank_ne s.fw.running), h])
  rw [← counted]
  rfl

/-- The first failed trial restores the previous image by a warm reset (R520). -/
theorem trialExpiry_first (hr : running s = true) (ht : inTrial s = true) (h : (s.fw.banks[otherBank s.fw.running]).fallbacks = 0) :
    trialExpiry s = quiesceStart .warmCmd (modFw (fun f => { f with
      banks := failedBanks s.fw.running s.fw.banks, running := otherBank s.fw.running, retained := none
      fallback := some (s.fw.running.val, (s.fw.banks[s.fw.running]).version) }) s) := by
  have once : ¬2 ≤ ((failedBanks s.fw.running s.fw.banks)[otherBank s.fw.running]).fallbacks := by
    rw [failedBanks_other]; exact Nat.not_succ_le_self 1
  rw [trialExpiry, hr, ht, trialFail_first h]
  exact congrArg (quiesceStart .warmCmd) (if_neg once)

/-- An apply whose target passes leaves the inactive bank APPLIED (R512). -/
theorem applyEnd_applied {a : Apply} {t : List Byte} (hr : running s = true) (ha : s.fw.applying = some a)
    (ht : applyTarget a.bytes s = some t) (hk : targetRefusal a.bytes t s = none) :
    applyEnd s = applyOwner a stOK 0 a.bytes.length (modFw (fun f => { f with
      banks := vset f.banks (otherBank f.running) ⟨1, 0, headVersion t, 0, some t⟩, applying := none }) s) := by
  simp only [applyEnd, ha, hr, ht, hk, Bool.not_true, Bool.false_eq_true, if_false]
  rfl

end

/-- Settles O54: what each stage does is a lemma above; the cast-on rows act in every phase, the trial's and the apply's in a running
device. -/
theorem castOnAndFirmware : Obligations.CastOnAndFirmware := by
  intro s r failed
  refine ⟨fun hp hm hw => ⟨fun b warm => ?_, fun b cold hf => ?_, fun b cold hf => ⟨fun hk => ?_, fun hk hs => ?_, fun i is t' hk hs hb => ?_⟩⟩,
    fun hp hr hh => ⟨fun h1 => ?_, fun cold hc => ⟨fun is x i hj hb hi => ?_, fun h hj h0 => ?_, fun h hj h0 => ?_⟩, fun hc hj => ?_,
      fun hj cold he hq hd hv hres hf hcl ha => ?_⟩,
    fun hr => ⟨fun hj hn hc => ?_, fun st k hcl hres => ?_, fun ht => ⟨?_, fun hf => ?_⟩, fun a t ha ht hk => ⟨fun ho => ?_, fun n cid ho => ?_⟩⟩⟩
  · exact answers_actAny rfl ((castOnS1_begins b hp hm hw).trans (if_pos warm))
  · exact answers_actAny rfl
      ((castOnS1_begins b hp hm hw).trans ((if_neg (Bool.eq_false_iff.mp cold)).trans (bootCold_fuses hf)))
  · exact answers_actAny rfl
      ((castOnS1_begins b hp hm hw).trans ((if_neg (Bool.eq_false_iff.mp cold)).trans (bootCold_noKey hf hk)))
  · exact answers_actAny rfl
      ((castOnS1_begins b hp hm hw).trans ((if_neg (Bool.eq_false_iff.mp cold)).trans (bootCold_strap hf hk hs)))
  · exact answers_actAny rfl
      ((castOnS1_begins b hp hm hw).trans ((if_neg (Bool.eq_false_iff.mp cold)).trans (bootCold_boots hf hk hs hb)))
  · exact answers_actAny rfl (stageTime_fails hp hr hh h1)
  · exact answers_actAny rfl (castOnS2_runs hp hr hh cold hc hj rfl hb hi)
  · exact answers_actAny rfl ((castOnS3_cold hp hr hh h cold hc hj).trans (trainCold_noStack h0))
  · obtain ⟨found, done⟩ := trainCold_finds (s := modRst (fun r => { r with stage := 3 }) s) h0
    simp only [fitted, Prod.mk.injEq] at found
    obtain ⟨hstage, hstacks, htiles, hports⟩ := found
    exact ⟨_, answers_actAny rfl (castOnS3_cold hp hr hh h cold hc hj), hstage, hstacks, htiles, hports, done⟩
  · exact answers_actAny rfl (castOnS4_ends hp hr hh hc hj)
  · exact answers_actAny rfl (castOnS5_ready (stageAfter_of hp hj hr hh) cold he hq hd hv hres hf hcl ha)
  · exact answers_actAny rfl (castOnS7_starts hr hj hn hc)
  · exact answers_actAny rfl (closeResume_restarts hr hcl hres)
  · exact answers_act rfl (running_awake hr) (selfConfirm_confirms hr ht)
  · exact answers_act rfl (running_awake hr) (trialExpiry_first hr ht hf)
  · refine answers_act rfl (running_awake hr) ((applyEnd_applied hr ha ht hk).trans ?_)
    rw [applyOwner, ho]; rfl
  · refine answers_act rfl (running_awake hr) ((applyEnd_applied hr ha ht hk).trans ?_)
    rw [applyOwner, ho]; rfl

end Sys2Proof.Machine

namespace Sys2Proof.Machine

open Sys2Proof

/-! ### What no background work between two starts touches: the power phase and the stitch queues

Containment and cleared sectors go through the Purls, the walks, the residency of blocks and the fabric; none of it changes the power
phase, and it changes the stitch queues only by flushing them. -/

/-- The power phase and the stitch queues. -/
def standing (s : State) : Phase × SqUnit := (s.rst.phase, s.sq)

theorem standing_of_snd {α : Type} {p : α × State} {a : α} {s t : State} (e : p = (a, t)) (h : standing p.2 = standing s) :
    standing t = standing s := by
  rw [e] at h; exact h

theorem standing_foldl {α : Type} {f : State → α → State} (h : ∀ s a, standing (f s a) = standing s) (l : List α) (s : State) :
    standing (l.foldl f s) = standing s :=
  foldl_same standing f h l s

section
variable {s t : State}

theorem LogsOnly.standing (h : LogsOnly s t) : Machine.standing t = Machine.standing s := by
  obtain ⟨_, _, _, _, _, _, _, rfl⟩ := h; rfl

theorem PostsOnly.standing (h : PostsOnly s t) : Machine.standing t = Machine.standing s := by
  obtain ⟨_, _, h⟩ := h
  exact (LogsOnly.standing h).trans rfl

theorem SendsOnly.standing (h : SendsOnly s t) : Machine.standing t = Machine.standing s := by
  obtain ⟨_, _, rfl⟩ := h; rfl

end

section
variable (s : State)

/-! #### Outputs, logs, and changes of one unit -/

@[simp] theorem standing_emit (o : Output) : standing (emit o s) = standing s := rfl
@[simp] theorem standing_raise (v : Fin 128) : standing (raise v s) = standing s := (raise_logs v s).standing
@[simp] theorem standing_countViol : standing (countViol s) = standing s := rfl
@[simp] theorem standing_hostWrite (a : Nat) (bs : List Byte) : standing (hostWrite a bs s) = standing s := (hostWrite_logs a bs s).standing

@[simp] theorem standing_logFull (cls : ErrClass) (cause : Nat) (scope : Scope) (unit a b : Nat) (cont : Option (BitVec 192)) :
    standing (logFull cls cause scope unit a b cont s) = standing s := (logFull_logs cls cause scope unit a b cont s).standing

@[simp] theorem standing_logErr (cls : ErrClass) (cause : Nat) (scope : Scope) (unit a b : Nat) :
    standing (logErr cls cause scope unit a b s) = standing s := (logErr_logs cls cause scope unit a b s).standing

@[simp] theorem standing_complete (n : Fin 64) (cid status sub : Nat) (r0 r1 : W64) :
    standing (complete n cid status sub r0 r1 s) = standing s := (complete_posts n cid status sub r0 r1 s).standing

@[simp] theorem standing_quarantine (n : Fin 64) (cause : Nat) : standing (quarantine n cause s) = standing s :=
  (quarantine_posts n cause s).standing

@[simp] theorem standing_rawSend (p : Fin 9) (m : List Byte) : standing (rawSend p m s) = standing s := (rawSend_sends p m s).standing

@[simp] theorem standing_sendOn (p : Fin 9) (vc : Nat) (request : Bool) (m : List Byte) :
    standing (sendOn p vc request m s) = standing s := (sendOn_sends p vc request m s).standing

@[simp] theorem standing_sendRouted (dst vc : Nat) (request : Bool) (m : List Byte) :
    standing (sendRouted dst vc request m s).2 = standing s := (sendRouted_sends dst vc request m s).standing

@[simp] theorem standing_modRes (f : Residency → Residency) : standing (modRes f s) = standing s := rfl
@[simp] theorem standing_modDrive (p : Fin 4) (f : Drive → Drive) : standing (modDrive p f s) = standing s := rfl
@[simp] theorem standing_modFab (f : Fabric → Fabric) : standing (modFab f s) = standing s := rfl
@[simp] theorem standing_modPort (p : Fin 9) (f : Port → Port) : standing (modPort p f s) = standing s := rfl
@[simp] theorem standing_modCount (peer : Nat) (f : PeerCount → PeerCount) : standing (modCount peer f s) = standing s := rfl
@[simp] theorem standing_modStp (f : StepUnit → StepUnit) : standing (modStp f s) = standing s := rfl
@[simp] theorem standing_modStep (n : Nat) (f : Step → Step) : standing (modStep n f s) = standing s := rfl
@[simp] theorem standing_modPurl (f : PurlUnit → PurlUnit) : standing (modPurl f s) = standing s := rfl
@[simp] theorem standing_modSlot (u : Update) (f : Update → Update) : standing (modSlot u f s) = standing s := rfl
@[simp] theorem standing_dropSlot (u : Update) : standing (dropSlot u s) = standing s := rfl
@[simp] theorem standing_modPm (f : PowerUnit → PowerUnit) : standing (modPm f s) = standing s := rfl
@[simp] theorem standing_modTx (f : TxUnit → TxUnit) : standing (modTx f s) = standing s := rfl
@[simp] theorem standing_modTbl (f : TableUnit → TableUnit) : standing (modTbl f s) = standing s := rfl
@[simp] theorem standing_modTh (f : ThreadUnit → ThreadUnit) : standing (modTh f s) = standing s := rfl
@[simp] theorem standing_modTl (f : TileUnit → TileUnit) : standing (modTl f s) = standing s := rfl
@[simp] theorem standing_modLaunch (id : Nat) (f : Launch → Launch) : standing (modLaunch id f s) = standing s := rfl
@[simp] theorem standing_dropHeld : standing (dropHeld s) = standing s := rfl
@[simp] theorem standing_pruneFaults : standing (pruneFaults s) = standing s := rfl
@[simp] theorem standing_releaseStalls (a b : Stall) : standing (releaseStalls a b s) = standing s := rfl
@[simp] theorem standing_streamAccess (tile : Fin 16) (purl : Bool) (tag va n : Nat) :
    standing (streamAccess tile purl tag va n s) = standing s := rfl
@[simp] theorem standing_stepJournal (kind stage step : Nat) (a b c : W64) : standing (stepJournal kind stage step a b c s) = standing s := rfl

/-! #### T1, its frames, and the directory -/

@[simp] theorem standing_t1Put (a : Nat) (bs : List Byte) : standing (t1Put a bs s) = standing s := rfl
@[simp] theorem standing_setFrameVersion (f : Nat) (v : BitVec 7) : standing (setFrameVersion f v s) = standing s := rfl
@[simp] theorem standing_setSectorVersions (secs : List Nat) (v : BitVec 7) : standing (setSectorVersions secs v s) = standing s := rfl
@[simp] theorem standing_clearPoison (secs : List Nat) : standing (clearPoison secs s) = standing s := rfl
@[simp] theorem standing_t1Fill (f : Nat) (bs : List Byte) (v : BitVec 7) : standing (t1Fill f bs v s) = standing s := rfl
@[simp] theorem standing_markStale (id row : Nat) : standing (markStale id row s) = standing s := rfl

@[simp] theorem standing_writeEvent (f : Nat) : standing (writeEvent f s) = standing s := by
  simp only [writeEvent]; split <;> rfl

@[simp] theorem standing_dirWrite (t : Table) (b : Nat) (d : DirEntry) : standing (dirWrite t b d s) = standing s := by
  rw [dirWrite]; split <;> rfl

@[simp] theorem standing_dirMod (t : Table) (b : Nat) (f : DirEntry → DirEntry) : standing (dirMod t b f s) = standing s := by
  rw [dirMod]; split
  · exact standing_dirWrite ..
  · rfl

@[simp] theorem standing_blockMod (id b : Nat) (f : DirEntry → DirEntry) : standing (blockMod id b f s) = standing s := by
  rw [blockMod]; split
  · exact standing_dirMod ..
  · rfl

/-! #### Residency: write-backs, fault-ins, drives -/

@[simp] theorem standing_wbJournal (kind tier id b : Nat) (target : W64) : standing (wbJournal kind tier id b target s) = standing s := rfl
@[simp] theorem standing_nvmeIssue (p : Fin 4) (use : NvmeUse) : standing (nvmeIssue p use s) = standing s := rfl
@[simp] theorem standing_wbDrop (id b : Nat) : standing (wbDrop id b s) = standing s := rfl
@[simp] theorem standing_modFaultIn (id b : Nat) (f : FaultIn → FaultIn) : standing (modFaultIn id b f s) = standing s := rfl
@[simp] theorem standing_logFaultIn (id b : Nat) : standing (logFaultIn id b s) = standing s := standing_logErr ..

@[simp] theorem standing_nvmeIssueN (p : Fin 4) (use : NvmeUse) (n : Nat) : standing (nvmeIssueN p use n s) = standing s := by
  induction n generalizing s with
  | zero => rfl
  | succ n ih => exact (ih _).trans (standing_nvmeIssue ..)

@[simp] theorem standing_wbStart (id b tier : Nat) (evict : Bool) : standing (wbStart id b tier evict s) = standing s := by
  rw [wbStart]; split
  · rfl
  · split
    · rfl
    · split <;> simp

@[simp] theorem standing_wbCancel (id b : Nat) : standing (wbCancel id b s) = standing s := by
  rw [wbCancel]; split <;> simp

@[simp] theorem standing_blockLeave (id b : Nat) : standing (blockLeave id b s) = standing s := by
  rw [blockLeave]; split <;> simp

@[simp] theorem standing_clockStep (pass cls : Nat) (spec : Bool) (f : Nat) : standing (clockStep pass cls spec f s).2 = standing s := by
  rw [clockStep]; repeat' split
  all_goals simp

theorem standing_clockSweep (pass cls : Nat) (spec : Bool) (fuel f : Nat) : standing (clockSweep pass cls spec fuel f s).2 = standing s := by
  induction fuel generalizing f s with
  | zero => rfl
  | succ fuel ih =>
    rw [clockSweep]
    split
    next t h =>
      have step := standing_of_snd h (standing_clockStep ..)
      split
      · exact (ih _ _).trans step
      · exact step
    · exact standing_clockStep ..

theorem standing_clockFind (cls : Nat) (spec : Bool) : standing (clockFind cls spec s).2 = standing s := by
  simp only [clockFind]
  split
  · rfl
  next f _ =>
    rcases e1 : clockSweep 1 cls spec (poolSize s) f s with ⟨r, t⟩
    have first := standing_of_snd e1 (standing_clockSweep ..)
    rcases e2 : (if r = .nothing then clockSweep 2 cls spec (poolSize s) f t else (r, t)) with ⟨r', u⟩
    have second : standing u = standing s := by
      split at e2
      · exact (standing_of_snd e2 (standing_clockSweep ..)).trans first
      · cases e2; exact first
    dsimp only
    split <;> exact second

@[simp] theorem standing_faultInFrame (id b f : Nat) : standing (faultInFrame id b f s) = standing s := by
  simp only [faultInFrame]; split
  · split <;> simp
  · simp

@[simp] theorem standing_faultInPlace (id b : Nat) (spec : Bool) : standing (faultInPlace id b spec s) = standing s := by
  rw [faultInPlace]
  split
  · rfl
  · split
    · rfl
    · split
      all_goals rename_i h; have found := standing_of_snd h (standing_clockFind ..)
      · exact (standing_faultInFrame ..).trans found
      · split
        · split
          · simp [found]
          · exact found
        · simp [found]
      · exact found

@[simp] theorem standing_touchAway (id b cls : Nat) (spec : Bool) : standing (touchAway id b cls spec s).2 = standing s := by
  simp only [touchAway]
  repeat' split
  all_goals simp

@[simp] theorem standing_touchHere (id b cls : Nat) (wr : Bool) : standing (touchHere id b cls wr s) = standing s := by
  simp only [touchHere]; split <;> simp

@[simp] theorem standing_faultInFail (id b status : Nat) : standing (faultInFail id b status s) = standing s := by
  simp only [faultInFail]; split <;> simp

@[simp] theorem standing_logReadRefused (unit addr : Nat) : standing (logReadRefused unit addr s) = standing s := by
  simp [logReadRefused]

@[simp] theorem standing_faultInEnd (id b : Nat) : standing (faultInEnd id b s) = standing s := by
  simp only [faultInEnd]
  repeat' split
  all_goals simp

@[simp] theorem standing_fenceBlock (id b : Nat) : standing (fenceBlock id b s) = standing s := by
  rw [fenceBlock]
  repeat' split
  all_goals simp

@[simp] theorem standing_nvmeFailed (use : NvmeUse) (status : Nat) : standing (nvmeFailed use status s) = standing s := by
  cases use with
  | write id b => exact standing_wbCancel ..
  | _ => rfl

/-! #### Translation -/

@[simp] theorem standing_cacheLeaf (tag va : Nat) : standing (cacheLeaf tag va s) = standing s := by
  simp only [cacheLeaf]
  repeat' split
  all_goals rfl

@[simp] theorem standing_pageFault (who : Accessor) (tag va level ea : Nat) (acc : Access) :
    standing (pageFault who tag va level ea acc s).2 = standing s := by
  simp only [pageFault]; split <;> rfl

@[simp] theorem standing_xlateOne (who : Accessor) (tag va : Nat) (acc : Access) : standing (xlateOne who tag va acc s).2 = standing s := by
  rw [xlateOne]
  split
  case h_3 =>
    split
    · rfl
    · exact standing_pageFault ..
  case h_4 =>
    split
    all_goals rename_i h; exact (standing_of_snd h (standing_touchAway ..)).trans (standing_cacheLeaf ..)
  all_goals repeat' split
  all_goals simp

theorem standing_xlatePieces (who : Accessor) (tag : Nat) (acc : Access) (ps : List (Nat × Nat)) :
    standing (xlatePieces who tag acc ps s).2 = standing s := by
  induction ps generalizing s with
  | nil => rfl
  | cons p ps ih =>
    rw [xlatePieces]
    split
    next h =>
      have one := standing_of_snd h (standing_xlateOne ..)
      split
      next h => exact (standing_of_snd h (ih _)).trans one
      · exact (ih _).trans one
    · exact standing_xlateOne ..

@[simp] theorem standing_translate (who : Accessor) (tag va n : Nat) (acc : Access) :
    standing (translate who tag va n acc s).2 = standing s := by
  rw [translate]; split
  · rfl
  · exact standing_xlatePieces ..

/-! #### The Purl's adders -/

@[simp] theorem standing_writeElems (t : Table) (pa : Nat) (vs : List (Nat × Nat)) : standing (writeElems t pa vs s) = standing s := by
  simp only [writeElems, standing_setSectorVersions, standing_writeEvent]
  exact standing_foldl (fun s v => standing_t1Put s _ _) vs s

@[simp] theorem standing_floatElems (table row : Nat) (t : Table) (pa : Nat) (ks : List (Nat × W32 × Rnd)) :
    standing (floatElems table row t pa ks s) = standing s := by
  simp only [floatElems, standing_modPurl]
  split <;> simp

@[simp] theorem standing_floatUpdate (u : Update) (t : Table) (pa : Nat) (ks : List Nat) :
    standing (floatUpdate u t pa ks s) = standing s := standing_floatElems ..

@[simp] theorem standing_flagFallback (k step table : Nat) : standing (flagFallback k step table s) = standing s := by
  rw [flagFallback]; split <;> simp

@[simp] theorem standing_accumNew (u : Update) (t : Table) (pa : Nat) : standing (accumNew u t pa s) = standing s := rfl

@[simp] theorem standing_exactUpdate (u : Update) (t : Table) (pa : Nat) (ks : List Nat) :
    standing (exactUpdate u t pa ks s) = standing s := by
  simp only [exactUpdate, standing_modPurl]
  split <;> simp

theorem standing_parkSector {u : Update} {t : Table} {x : Nat × List Nat} {r : State} (h : parkSector u t x s = some r) :
    standing r = standing s := by
  obtain ⟨k, _, rfl⟩ := Option.map_eq_some_iff.mp h
  dsimp only
  split <;> simp <;> rfl

theorem standing_parkAll {u : Update} {t : Table} {xs : List (Nat × List Nat)} {r : State} (h : parkAll u t xs s = some r) :
    standing r = standing s := by
  induction xs generalizing s with
  | nil => cases h; rfl
  | cons x xs ih =>
    obtain ⟨m, hm, hr⟩ := Option.bind_eq_some_iff.mp h
    exact (ih _ hr).trans (standing_parkSector s hm)

@[simp] theorem standing_updatePlace (u : Update) : standing (updatePlace u s).2 = standing s := by
  rw [updatePlace]
  split
  · rfl
  · split
    · rfl
    · split
      all_goals rename_i h; have placed := standing_of_snd h (standing_translate ..)
      · split <;> simp [placed]
      all_goals exact placed

@[simp] theorem standing_applyAt (u : Update) (t : Table) (pa : Nat) : standing (applyAt u t pa s).2 = standing s := by
  simp only [applyAt]
  split
  · rfl
  next h =>
    have parked := standing_parkAll s h
    repeat' split
    all_goals simp [parked]

@[simp] theorem standing_countDone (u : Update) (parked : Bool) : standing (countDone u parked s) = standing s := by
  simp only [countDone]
  repeat' split
  all_goals simp

@[simp] theorem standing_countReleased (source : Nat) : standing (countReleased source s) = standing s := by
  rw [countReleased]; split <;> rfl

theorem standing_releaseRecord (r : ParkRec) : standing (releaseRecord s r) = standing s := by
  unfold releaseRecord
  extract_lets rest unit s1 base s2
  have applied : standing s2 = standing s := by
    simp only [s2]
    split
    · rfl
    · split <;> simp <;> rfl
  split
  · exact (standing_countReleased ..).trans applied
  · exact applied

theorem standing_releaseCleared : standing (releaseCleared s) = standing s :=
  (standing_foldl standing_releaseRecord _ _).trans rfl

theorem standing_clearedSectors : standing (clearedSectors s) = standing s := by
  rw [clearedSectors]
  split
  · rfl
  · exact (standing_releaseCleared _).trans (standing_foldl (fun s x => standing_releaseStalls s _ _) _ s)

@[simp] theorem standing_refuseUpdate (u : Update) (reason : Nat) : standing (refuseUpdate u reason s) = standing s := by
  simp [refuseUpdate]

@[simp] theorem standing_applyLocal (u : Update) : standing (applyLocal u s) = standing s := by
  rw [applyLocal]
  split
  all_goals rename_i h; have placed := standing_of_snd h (standing_updatePlace ..)
  · split
    all_goals rename_i h; have applied := standing_of_snd h (standing_applyAt ..)
    all_goals simp [applied, placed]
  all_goals simp [placed]

theorem standing_storeSlots : standing (storeSlots s) = standing s :=
  standing_foldl (fun s u => by split <;> simp [sendUpdate]) _ s

theorem standing_drainPurl (tile : Nat) : standing (drainPurl tile s) = standing s :=
  (standing_storeSlots _).trans (standing_foldl (fun s u => by split <;> simp) _ s)

/-! #### Drives and ports -/

@[simp] theorem standing_fenceDrive (p : Fin 4) : standing (fenceDrive p s) = standing s := by
  unfold fenceDrive
  extract_lets d cs s1 s2 unit s3 s4 s5
  have failed : standing s2 = standing s := standing_foldl (fun s c => standing_nvmeFailed s c.use 0x20) cs s1
  have ended : standing s5 = standing s2 :=
    (standing_foldl (fun s (x : FaultIn) => standing_faultInEnd s x.table x.blk) _ s4).trans (standing_logErr ..)
  split
  · rfl
  · exact (standing_foldl (fun s (x : Nat × Nat) => standing_fenceBlock s x.1 x.2) _ s5).trans (ended.trans failed)

@[simp] theorem standing_pmEvent (k : Nat) : standing (pmEvent k s) = standing s := by
  rw [pmEvent]
  split
  · rfl
  · dsimp only
    split <;> simp

@[simp] theorem standing_withLadder (f : State → State) : standing (withLadder f s) = standing (f s) := by
  simp only [withLadder]
  repeat' split
  all_goals simp

@[simp] theorem standing_sendLeave (p : Fin 9) (reason : Nat) : standing (sendLeave p reason s) = standing s := by
  rw [sendLeave]; split <;> simp

@[simp] theorem standing_dropArrivals (p : Fin 9) : standing (dropArrivals p s) = standing s := by
  simp only [dropArrivals, standing_pruneFaults, standing_modPurl]
  refine (standing_foldl (fun s u => standing_modCount s _ _) _ _).trans ?_
  exact standing_foldl (fun s g => standing_modCount s _ _) _ s

@[simp] theorem standing_chainLost (p : Fin 9) : standing (chainLost p s) = standing s := by
  rw [chainLost]
  repeat' split
  all_goals rfl

@[simp] theorem standing_floodOwn : standing (floodOwn s) = standing s :=
  standing_foldl (fun s q => by split <;> simp) _ _

@[simp] theorem standing_portDown (p : Fin 9) : standing (portDown p s) = standing s := by
  simp only [portDown]; split <;> simp

@[simp] theorem standing_portFatal (p : Fin 9) : standing (portFatal s p) = standing s := by
  simp only [portFatal]; split <;> simp

theorem standing_fatalEnter : standing (fatalEnter s) = standing s := by
  rw [fatalEnter]
  exact (standing_foldl standing_portFatal _ _).trans ((standing_withLadder s _).trans rfl)

/-! #### Tiles -/

theorem standing_endThreads (tile : Nat) : standing (endThreads tile s).2 = standing s :=
  standing_foldl (fun s _ => standing_modLaunch s _ _) _ _

theorem standing_clearTile (tile : Fin 16) : standing (clearTile tile s) = standing s := rfl

/-! #### Checks of ledgers -/

theorem standing_raiseAlarm (x : Nat × Nat) : standing (raiseAlarm s x) = standing s := by
  simp only [raiseAlarm, standing_modStp, standing_raise]
  exact standing_logFull ..

theorem standing_auditEnd (c : Check) (qp cid : Nat) : standing (auditEnd c qp cid s) = standing s := by
  have alarmed : standing (c.outSorted.foldl raiseAlarm { s with ty := { s.ty with check := none } }) = standing s :=
    standing_foldl standing_raiseAlarm _ _
  simp only [auditEnd]
  split
  · simp only [standing_complete, writeBuf, standing_hostWrite, alarmed]
  · exact alarmed

theorem standing_closeBalanced (c : Check) (n : Nat) : standing (closeBalanced c n s) = standing s := by
  have alarmed : standing (c.outSorted.foldl raiseAlarm { s with ty := { s.ty with check := none } }) = standing s :=
    standing_foldl standing_raiseAlarm _ _
  simp only [closeBalanced, stageEnd, stageBegin, standing_stepJournal, standing_modStep]
  split
  · exact alarmed
  · exact alarmed

theorem standing_checkEnd : standing (checkEnd s) = standing s := by
  rw [checkEnd]
  split
  · split
    · split
      · exact standing_auditEnd ..
      · exact standing_closeBalanced ..
    · rfl
  · rfl

end

end Sys2Proof.Machine

namespace Sys2Proof.Machine

open Sys2Proof

/-! ### Background work in a module that waits for its pins

Nothing but the flushes of a tile or port reset touches the stitch queues, and a flush brings no packet back. -/

/-- The module waits for its reset pins with every stitch queue EMPTY. -/
structure Drained (s : State) : Prop where
  phase : s.rst.phase = .pinWait
  empty : ∀ x ∈ s.sq.inst, x.2.packets = []

section
variable {s t : State}

theorem Drained.congr (h : Drained s) (e : standing t = standing s) : Drained t := by
  obtain ⟨hp, hq⟩ := Prod.mk.inj e
  exact ⟨hp.trans h.phase, fun x hx => h.empty x (hq ▸ hx)⟩

theorem mem_kvSet {α : Type} {m : List (Nat × α)} {a : Nat} {v : α} {x : Nat × α} (h : x ∈ kvSet m a v) : x = (a, v) ∨ x ∈ m := by
  induction m with
  | nil => exact .inl (List.mem_singleton.mp h)
  | cons y m ih =>
    rw [kvSet] at h
    split at h
    · exact List.mem_cons.mp h
    · split at h
      · exact (List.mem_cons.mp h).imp_right (List.mem_cons_of_mem y)
      · rcases List.mem_cons.mp h with rfl | h
        · exact .inr List.mem_cons_self
        · exact (ih h).imp_right (List.mem_cons_of_mem y)

theorem mem_of_kvGet {α : Type} {m : List (Nat × α)} {a : Nat} {v : α} (h : kvGet m a = some v) : (a, v) ∈ m := by
  induction m with
  | nil => cases h
  | cons y m ih =>
    rw [kvGet] at h
    split at h
    next e => cases e; cases h; exact List.mem_cons_self
    · exact List.mem_cons_of_mem y (ih h)

theorem packets_sqGet (h : ∀ x ∈ s.sq.inst, x.2.packets = []) (id : Nat) : (sqGet id s).packets = [] := by
  rw [sqGet]
  cases hx : kvGet s.sq.inst id with
  | none => rfl
  | some x => exact h _ (mem_of_kvGet hx)

theorem Drained.sqResetFlush (h : Drained s) (id : Nat) : Drained (sqResetFlush id s) := by
  refine ⟨h.phase, fun x hx => ?_⟩
  rcases mem_kvSet hx with rfl | hx
  · simp only [SqInst.flush, packets_sqGet h.empty, List.filter_nil]
  · exact h.empty x hx

theorem Drained.sqFlushIds (h : Drained s) (ids : List Nat) : Drained (sqFlushIds ids s) :=
  foldl_keeps Drained _ (fun _ id h => h.sqResetFlush id) ids s h

theorem Drained.tileReset (h : Drained s) (tile : Fin 16) : Drained (tileReset tile s).2 := by
  have ended : Drained (clearTile tile (endThreads tile.val (drainPurl tile.val s)).2) :=
    h.congr ((standing_clearTile _ _).trans ((standing_endThreads _ _).trans (standing_drainPurl _ _)))
  exact (ended.sqFlushIds _).congr ((standing_pruneFaults _).trans (standing_dropHeld _))

theorem Drained.portReset (h : Drained s) (p : Fin 9) : Drained (portReset p s) :=
  ((h.congr (standing_dropHeld s)).sqFlushIds _).congr ((standing_portDown _ p).trans (standing_dropArrivals _ p))

theorem Drained.containOne (h : Drained s) (c : Containment) : Drained (containOne s c) := by
  rw [Machine.containOne]
  split
  · split
    · exact h
    · exact h.congr (standing_fatalEnter s)
  · split
    · split
      · exact h.tileReset _
      · exact h
    · dsimp only
      split
      · exact h.portReset _
      · exact h
    · dsimp only
      split
      · exact h.congr (standing_fenceDrive s _)
      · exact h
    · exact h.congr (standing_quarantine s _ _)
    · split
      · exact h.congr rfl
      · exact h
    · exact h

theorem Drained.contain (h : Drained s) : Drained (contain s) :=
  foldl_keeps Drained _ (fun _ c h => h.containOne c) _ _ (h.congr rfl)

/-- Without the firmware running, neither it nor the engines work. -/
theorem Drained.running (h : Drained s) : running s = false := by
  rw [Machine.running, h.phase]; rfl

theorem Drained.operational (h : Drained s) : operational s = false := by
  rw [Machine.operational, h.running]; rfl

theorem Drained.engines (h : Drained s) : engines s = false := by
  rw [Machine.engines, h.operational]; rfl

theorem Drained.threadsOn (h : Drained s) : threadsOn s = s := by rw [Machine.threadsOn, h.engines]; rfl
theorem Drained.engineWork (h : Drained s) : engineWork s = s := by rw [Machine.engineWork, h.engines]; rfl
theorem Drained.commandsOn (h : Drained s) : commandsOn s = s := by rw [Machine.commandsOn, h.running]; rfl
theorem Drained.firmwareWork (h : Drained s) : firmwareWork s = s := by rw [Machine.firmwareWork, h.running]; rfl
theorem Drained.recountCheck (h : Drained s) : recountCheck s = s := by rw [Machine.recountCheck, h.operational]; rfl

theorem standing_scrubCheck (s : State) : standing (scrubCheck s) = standing s := by
  simp only [scrubCheck]
  repeat' split
  all_goals rfl

theorem standing_sensorCheck (s : State) : standing (sensorCheck s) = standing s := by
  simp only [sensorCheck]
  split
  · rfl
  · split <;> rfl

theorem standing_holdCheck (s : State) : standing (holdCheck s) = standing s := by
  rw [holdCheck]
  split
  · exact standing_logFull ..
  · rfl

/-- A WARM_RESET merges into the reset that is under way (R98). -/
theorem Drained.warmCheck (h : Drained s) : warmCheck s = s := by
  have busy : resetBusy s = true := by rw [resetBusy, h.phase]; rfl
  have merged : warmTrigger .warmCmd false s = s := by
    simp only [warmTrigger, busy, Bool.false_and, Bool.false_eq_true, if_false, if_true, ite_self]
  rw [Machine.warmCheck]
  split
  · rw [merged, ite_self]
  · rfl

theorem Drained.settleRound (h : Drained s) : Drained (settleRound s) := by
  have contained : Drained (clearedSectors (Machine.contain s)) := h.contain.congr (standing_clearedSectors _)
  have checked : Drained (checkEnd (clearedSectors (Machine.contain s))) := contained.congr (standing_checkEnd _)
  have sensed : Drained (holdCheck (sensorCheck (scrubCheck (checkEnd (clearedSectors (Machine.contain s)))))) :=
    checked.congr ((standing_holdCheck _).trans ((standing_sensorCheck _).trans (standing_scrubCheck _)))
  rw [Machine.settleRound, contained.threadsOn, contained.engineWork, contained.commandsOn, checked.firmwareWork, checked.recountCheck,
    sensed.warmCheck]
  exact sensed

theorem Drained.settle (h : Drained s) : Drained (settle s) := by
  rw [Machine.settle]
  split
  · exact h
  · dsimp only
    split
    · exact h.settleRound
    · exact h.settleRound.settleRound.settleRound

end

/-- A quiesce finds a stitch queue whose first packet has its header read (R55, R58). -/
def headerRead : State :=
  { State.reset with rst := { phase := .quiesce }, sq := { inst := [(0, { packets := [⟨[0], 2, 0, true⟩] })] } }

/-- The instance of `headerRead` keeps its packet. -/
theorem quiesceComplete_headerRead_keeps :
    (settle (quiesceComplete 0 headerRead)).sq.inst.all (fun x => x.2.packets.isEmpty) = false := by
  decide +kernel

/-- Refutes O53: the flush of a reset keeps a packet whose header has been read (R55), so the state that the quiesce of `headerRead` ends
in has a stitch queue that is not EMPTY. -/
theorem not_resetTriggers : ¬ Obligations.ResetTriggers := by
  intro h
  obtain ⟨-, -, -, -, -, -, -, -, -, quiesced⟩ := h.2 headerRead
  obtain ⟨-, -, ended⟩ := quiesced 0 rfl
  have drained : (quiesceDrain headerRead).pu.slots = [] := by decide +kernel
  obtain ⟨t, answers, phase, -, -, -, -, -, -, -, -, empty, -⟩ := ended drained
  have settled : Drained (settle t) := Drained.settle ⟨phase, empty⟩
  have same : settle (quiesceComplete 0 headerRead) = settle t := by injection answers
  rw [← same] at settled
  have all_empty : (settle (quiesceComplete 0 headerRead)).sq.inst.all (fun x => x.2.packets.isEmpty) = true :=
    List.all_eq_true.mpr (fun x hx => List.isEmpty_iff.mpr (settled.empty x hx))
  exact Bool.false_ne_true (quiesceComplete_headerRead_keeps.symm.trans all_empty)

end Sys2Proof.Machine

namespace Sys2Proof.Machine

open Sys2Proof

/-! ### The posting of one completion (O29) -/

theorem raise_host (v : Fin 128) (s : State) : (raise v s).host = s.host := by
  rw [raise]; split <;> rfl

theorem qpBecomes_host (n : Fin 64) (r : QueuePair × Bool) (s : State) : (qpBecomes n r s).host = s.host := by
  rw [qpBecomes]; split
  · exact raise_host _ _
  · rfl

/-- Where the ring has room and the host can be reached, the entry's 32 bytes are written at the ring's tail (R149, R150). -/
theorem post_host_of_room {n : Fin 64} {c : Completion} {s : State} (enabled : (s.mb.qps[n]).state = .enabled)
    (free : (s.mb.qps[n]).waiting = []) (room : (s.mb.qps[n]).hasRoom = true) (reach : hostReach s = true) :
    (post n c s).host =
      cellsWrite s.host ((s.mb.qps[n]).cqBase.toNat + 32 * (s.mb.qps[n]).cqTail) (c.bytes (s.mb.qps[n]).phase) := by
  simp only [post, enabled, free, room, ne_eq, not_true_eq_false, if_false, List.isEmpty_nil, Bool.and_self, if_true, postNow,
    qpBecomes_host, hostWrite, reach]

theorem Completion.bytes_length (c : Completion) (phase : Bool) : (c.bytes phase).length = 32 := by
  simp only [Completion.bytes, List.length_append, toBytes_length, List.length_cons, List.length_nil]

/-- In a host memory in canonical form, which every reachable state has (`resetMemoriesCanonical`, `stepKeepsMemoriesCanonical`), the entry
reads back as it was written: the clause of O29 that fails without that premise. -/
theorem cellsRead_post_of_wf {n : Fin 64} {c : Completion} {s : State} (w : Memory.wf s.host = true)
    (enabled : (s.mb.qps[n]).state = .enabled) (free : (s.mb.qps[n]).waiting = []) (room : (s.mb.qps[n]).hasRoom = true)
    (reach : hostReach s = true) :
    cellsRead (post n c s).host ((s.mb.qps[n]).cqBase.toNat + 32 * (s.mb.qps[n]).cqTail) 32 = c.bytes (s.mb.qps[n]).phase := by
  have read := cellsRead_cellsWrite w ((s.mb.qps[n]).cqBase.toNat + 32 * (s.mb.qps[n]).cqTail) (c.bytes (s.mb.qps[n]).phase)
  rw [Completion.bytes_length] at read
  rw [post_host_of_room enabled free room reach, read]

/-- Queue pair 0 is enabled with an empty completion ring at address 0, and host memory lists that address twice. -/
def twiceListed : State :=
  { modQp 0 (fun _ => { state := .enabled }) State.reset with
    host := [(0, 1), (0, 1)], hl := { State.reset.hl with up := true, bme := true }, rst := { State.reset.rst with hostOn := true } }

theorem twiceListed_pair : twiceListed.mb.qps[(0 : Fin 64)] = { state := .enabled } := vmod_self _ _ _

/-- Refutes O29: in `twiceListed` the write of a byte 0 takes away the first of two cells at its address, and the second still reads 1. The
statement asks no canonical form of host memory; with it the clause holds (`cellsRead_post_of_wf`). -/
theorem not_completionPosted : ¬ Obligations.CompletionPosted := by
  intro h
  let c : Completion := ⟨0, 0, 0, 0, stOK, false, false, 0, 0, true⟩
  obtain ⟨-, written, -⟩ := h 0 c twiceListed
  rw [twiceListed_pair] at written
  obtain ⟨posted, -⟩ := written rfl rfl (by decide) rfl
  have first : cellGet (post 0 c twiceListed).host 0 = 1 := by decide +kernel
  have zero : (c.bytes false).head? = some 0 := by decide
  have read : (c.bytes false).head? = some (cellGet (post 0 c twiceListed).host 0) := congrArg List.head? posted.symm
  rw [zero, first] at read
  exact absurd read (by decide)

end Sys2Proof.Machine

namespace Sys2Proof.Machine

open Sys2Proof

/-! ### Doorbells, fetch, interim completions, moderation and MB_QP0_CTRL (O45) -/

section

variable {s : State} {n : Fin 64}

/-! #### Changes of a queue pair -/

theorem modQp_self (n : Fin 64) (f : QueuePair → QueuePair) (s : State) : (modQp n f s).mb.qps[n] = f s.mb.qps[n] := vmod_self _ _ _

/-- Two changes of one queue pair are one. -/
theorem modQp_modQp (n : Fin 64) (f g : QueuePair → QueuePair) (s : State) : modQp n g (modQp n f s) = modQp n (fun q => g (f q)) s := by
  simp only [modQp, vmod_vmod]

/-- Two changes of a queue pair that agree on its present state are the same. -/
theorem modQp_congr {n : Fin 64} {f g : QueuePair → QueuePair} {s : State} (same : f s.mb.qps[n] = g s.mb.qps[n]) : modQp n f s = modQp n g s := by
  rw [modQp, modQp, vmod_const, same, ← vmod_const]

/-! #### Doorbells (R139, R144, R533) -/

theorem regAt_doorbells : ∀ n : Fin 64, regAt (0x20000 + 8 * n.val) = some (.sqTail n, false) ∧
    regAt (0x20004 + 8 * n.val) = some (.cqHead n, false) ∧ earlyRegion (0x20000 + 8 * n.val) = true ∧
    earlyRegion (0x20004 + 8 * n.val) = true := by decide

/-- A 4-byte write of a 32-bit register of an early region has the register's effect wherever the BAR answers (R91). -/
theorem barWrite_early {off : Nat} {r : Reg} (answers : barMode s ≠ .unsupported) (aligned : off % 4 = 0) (early : earlyRegion off = true)
    (reg : regAt off = some (r, false)) (narrow : r.wide = false) (v : W32) : barWrite off 4 v.toNat s = r.write v.toNat s := by
  simp only [barWrite, answers, tooEarly, early, Bool.not_true, Bool.and_false, Bool.false_eq_true, aligned, and_self, if_true, if_false,
    write4, reg, narrow, Nat.mod_eq_of_lt v.isLt]

theorem barWrite_sqTail (answers : barMode s ≠ .unsupported) (n : Fin 64) (v : W32) :
    barWrite (0x20000 + 8 * n.val) 4 v.toNat s = doorbell false n v s := by
  obtain ⟨reg, -, early, -⟩ := regAt_doorbells n
  rw [barWrite_early answers (by omega) early reg rfl, Reg.write, BitVec.ofNat_toNat, BitVec.setWidth_eq]

theorem barWrite_cqHead (answers : barMode s ≠ .unsupported) (n : Fin 64) (v : W32) :
    barWrite (0x20004 + 8 * n.val) 4 v.toNat s = doorbell true n v s := by
  obtain ⟨-, reg, -, early⟩ := regAt_doorbells n
  rw [barWrite_early answers (by omega) early reg rfl, Reg.write, BitVec.ofNat_toNat, BitVec.setWidth_eq]

/-- A running mailbox acts on a submission doorbell: inside its ring it sets the tail, outside it quarantines (R139, R144). -/
theorem doorbell_sqTail (runs : running s = true) (enabled : (s.mb.qps[n]).state = .enabled) (stop : (s.mb.qps[n]).stop = none) (v : W32) :
    doorbell false n v s =
      if 2 ^ (s.mb.qps[n]).sqLog ≤ v.toNat then badDoorbell n v s else modQp n (fun q => { q with sqTail := v.toNat }) s := by
  simp only [doorbell, runs, if_true, Bool.false_eq_true, sqTailNow, enabled, stop, reduceCtorEq, ne_eq, not_true_eq_false, or_self, if_false]

/-- A completion doorbell that releases entries of its ring sets the head; nothing waits for the room (R139, R144). -/
theorem doorbell_cqHead (runs : running s = true) (enabled : (s.mb.qps[n]).state = .enabled) (stop : (s.mb.qps[n]).stop = none)
    (free : (s.mb.qps[n]).waiting = []) {v : W32} (inside : v.toNat < 2 ^ (s.mb.qps[n]).cqLog)
    (owed : (v.toNat + 2 ^ (s.mb.qps[n]).cqLog - (s.mb.qps[n]).cqHead) % 2 ^ (s.mb.qps[n]).cqLog ≤ (s.mb.qps[n]).unreleased) :
    doorbell true n v s = modQp n (fun q => { q with cqHead := v.toNat }) s := by
  simp only [doorbell, runs, if_true, cqHeadNow, enabled, stop, reduceCtorEq, ne_eq, not_true_eq_false, false_and, or_self, if_false,
    Nat.not_le.mpr inside, Nat.not_lt.mpr owed, modQp_self, free, List.length_nil, drainWaiting, releaseIfStopped]

/-- Before READY a doorbell is held, and reads back as written (R533). -/
theorem doorbell_held (idle : running s = false) (isCq : Bool) (n : Fin 64) (v : W32) : doorbell isCq n v s =
    { s with mb := { s.mb with
      doorbells := s.mb.doorbells.filter (fun d => !(d.1 == isCq && d.2.1 == n.val)) ++ [(isCq, n.val, v)],
      heldValues := kvSet s.mb.heldValues (doorbellOff isCq n.val) v } } := if_neg (by rw [idle]; decide)

/-! #### Fetch (R145, R156) -/

/-- The occupancy a claim of class `cls` on the mailbox slots may not pass (R443, R444). -/
theorem classLimit_mailbox (cls : Fin 4) : classLimit resMailbox cls (true && decide (cls = 2)) =
    if cls = 0 then 1024 else if cls = 2 then 768 else 896 := by
  revert cls; decide

theorem claimBarred_of_free {res scope occ : Nat} {cls : Fin 4} (free : claimWaits res scope cls s = false) :
    claimBarred res scope occ cls s = false := by
  obtain ⟨first, turn⟩ := Bool.or_eq_false_iff.mp free
  rw [claimBarred, first, turn, Bool.false_and, Bool.or_false]

/-- The claim of one mailbox slot in a new pool cycle is granted where the class's limit leaves it one and nothing waits ahead (R444, R449). -/
theorem decideClaim_mailbox {used : Nat} {cls : Fin 4} (room : used < (if cls = 0 then 1024 else if cls = 2 then 768 else 896))
    (free : claimWaits resMailbox 0 cls s = false) : let m := poolMem resMailbox 0 s
    decideClaim resMailbox 0 used cls 1 true false s =
      (.granted, setPoolMem resMailbox 0 { m with start := used, taken := 1, sinceC3 := if cls = 3 then 0 else m.sinceC3 + 1 } s) := by
  have fits : used + 1 ≤ classLimit resMailbox cls (true && decide (cls = 2)) := by rw [classLimit_mailbox]; exact room
  have noted (m : PoolMem) : noteGrant resMailbox 0 cls 1 (setPoolMem resMailbox 0 m s) =
      setPoolMem resMailbox 0 { m with taken := m.taken + 1, sinceC3 := if cls = 3 then 0 else m.sinceC3 + 1 } s := by
    simp only [noteGrant, setPoolMem, poolMem, kvGet_kvSet, kvSet_kvSet, Option.getD_some]
  simp only [decideClaim, Bool.false_eq_true, if_false, Nat.add_zero, Nat.max_self, fits, claimBarred_of_free free, Bool.not_false, decide_true,
    Bool.and_self, if_true, noted, Nat.zero_add, ite_self]

/-- A fetch with a free slot takes the 64 bytes at the ring's head into a slot and advances the head (R145, R156). -/
theorem fetchCmd_admits {m : PoolMem} (due : mayFetch n s = true)
    (granted : decideClaim resMailbox 0 (slotsUsed s) (s.mb.qps[n]).cls 1 true false s = (.granted, setPoolMem resMailbox 0 m s)) :
    let q := s.mb.qps[n]
    let a := q.sqBase.toNat + 64 * q.sqHead
    let e : Entry := BitVec.ofNat 512 (ofBytes (cellsRead s.host a 64))
    let next := (q.sqHead + 1) % 2 ^ q.sqLog
    hostRefuses a 64 s = false → cidTaken n e s = false →
      fetchCmd n false s = modQp n (fun q => { q with sqHead := next
                                                      cmds := q.cmds ++ [⟨e, nowPoint s, next, false, false, false, none, 0, 0, 0, .none, false⟩] })
        (setPoolMem resMailbox 0 m s) := by
  intro q a e next served fresh
  have still (f : QueuePair → QueuePair) (same : (f q).cmds = q.cmds) : cidTaken n e (modQp n f (setPoolMem resMailbox 0 m s)) = false := by
    rw [cidTaken, findCmd, modQp_self, setPoolMem, same]; exact fresh
  have read (f : QueuePair → QueuePair) : hostRead a 64 (modQp n f (setPoolMem resMailbox 0 m s)) = some (cellsRead s.host a 64) :=
    if_neg (by rw [Bool.not_eq_true]; exact served)
  simp only [fetchCmd, due, Bool.not_true, Bool.false_eq_true, if_false, granted, reduceCtorEq]
  rw [read]
  simp only
  rw [still _ rfl]
  simp only [Bool.false_eq_true, if_false, admitCmd, modQp_modQp]
  exact modQp_congr rfl

/-! #### Interim completions and moderation (R157, R158) -/

/-- A command that has waited DEFER_AFTER beats without effect posts its interim entry, which names its wait (R157). -/
theorem interimDue_posts {cid w : Nat} {c : Cmd} (found : findCmd n cid s = some c) (waits : c.wait = some w) (first : c.interim = false)
    (unfinished : c.effective = false ∨ Entry.opcode c.entry ∈ [0x35, 0x14, 0x11]) (live : mbLive s = true)
    (enabled : (s.mb.qps[n]).state = .enabled) (defers : (s.mb.qps[n]).deferAfter ≠ 0) (late : (s.mb.qps[n]).deferAfter ≤ beatsSince c.due s) :
    interimDue n cid s = post n ⟨0, 0, c.sqHead, cid, stDeferred, true, false, w, (s.mb.qps[n]).deferAfter, Entry.noIrq c.entry⟩
      (modCmd n cid (fun c => { c with interim := true }) s) := by
  have pending : (c.effective && !([0x35, 0x14, 0x11].contains (Entry.opcode c.entry))) = false := by
    rcases unfinished with h | h
    · rw [h, Bool.false_and]
    · rw [List.contains_iff_mem.mpr h, Bool.not_true, Bool.and_false]
  simp only [interimDue, found, waits, first, pending, live, enabled, defers, Nat.not_lt.mpr late, ne_eq, not_true_eq_false, or_self,
    decide_false, Bool.not_true, Bool.or_self, Bool.false_eq_true, if_false]

theorem coalExpiry_raises (runs : (s.mb.qps[n]).timer = true) (irq : (s.mb.qps[n]).irqEn = true) :
    coalExpiry n s = raiseQp n (modQp n (fun q => { q with timer := false, sinceRaise := 0 }) s) := by
  simp only [coalExpiry, runs, irq, Bool.and_self, if_true]

/-! #### MB_QP0_CTRL (R142, R143, R163, R164) -/

/-- An 8-byte write of MB_QP0_CTRL drops a lower half that was held, and acts (R528). -/
theorem barWrite_ctrl (answers : barMode s ≠ .unsupported) (v : W64) :
    barWrite 0x10008 8 v.toNat s = writeCtrl v { s with hl := { s.hl with low := kvErase s.hl.low 0x10008 } } := by
  have early : earlyRegion 0x10008 = true := rfl
  have reg : regAt 0x10008 = some (.qp0Ctrl, false) := rfl
  have wide : Reg.wide .qp0Ctrl = true := rfl
  have size : ¬((8 : Nat) = 4 ∧ 0x10008 % 4 = 0) ∧ ((8 : Nat) = 8 ∧ 0x10008 % 8 = 0) := by decide
  rw [barWrite, if_neg answers, tooEarly, early, Bool.not_true, Bool.and_false, Bool.and_false, if_neg Bool.false_ne_true, if_neg size.1,
    if_pos size.2, Nat.mod_eq_of_lt v.isLt]
  simp only [write8, reg, wide, if_true, Reg.write, BitVec.ofNat_toNat, BitVec.setWidth_eq]

/-- The bits of MB_QP0_CTRL that a write stores (R142). -/
def ctrlKept (v : W64) : W64 := v &&& 0x000000FFFFFF1FFD

/-- The value that stands in MB_QP0_CTRL. -/
def ctrlSet (w : W64) (s : State) : State := { s with mb := { s.mb with ctrl := w } }

theorem getLsbD_ctrlKept_zero (v : W64) : (ctrlKept v).getLsbD 0 = v.getLsbD 0 := by
  rw [ctrlKept, BitVec.getLsbD_and]; exact Bool.and_true _

section

variable {v : W64} (sq : logOk (bits v.toNat 4 4) = true) (cq : logOk (bits v.toNat 8 4) = true)
include sq cq

theorem ctrlStore_assigned (old : W64) : ctrlStore old v = ctrlKept v := by
  simp only [ctrlStore, sq, cq, if_true, ctrlKept]

/-- EN from 0 to 1 with rings that pass R140 enables a disabled queue pair 0 from its registers (R143). -/
theorem writeCtrl_enables (en : v.getLsbD 0 = true) (plain : v.getLsbD 1 = false) (live : mbLive s = true)
    (down : (s.mb.qps[(0 : Fin 64)]).state = .disabled) (was : s.mb.ctrl.getLsbD 0 = false)
    (rings : ringCause s.mb.sqBaseReg s.mb.cqBaseReg s = none) :
    writeCtrl v s = modQp 0 (fun _ => ctrlModeration (ctrlKept v) { state := .enabled, sqBase := s.mb.sqBaseReg, cqBase := s.mb.cqBaseReg
                                                                    sqLog := bits (ctrlKept v).toNat 4 4, cqLog := bits (ctrlKept v).toNat 8 4
                                                                    cls := Fin.ofNat 4 (bits (ctrlKept v).toNat 2 2) })
      (ctrlSet (ctrlKept v) s) := by
  have checked : ringCause s.mb.sqBaseReg s.mb.cqBaseReg (ctrlSet (ctrlKept v) s) = none := rings
  have stays : mbLive (ctrlSet (ctrlKept v) s) = true := live
  simp only [ctrlSet] at checked stays ⊢
  simp only [writeCtrl, ctrlStore_assigned sq cq, sq, cq, Bool.and_self, if_true, down, reduceCtorEq, if_false, plain, Bool.false_and,
    Bool.false_eq_true, getLsbD_ctrlKept_zero, en, was, Bool.not_false, decide_true, stays, Bool.not_true, enableQp0, checked]

/-- EN 0 stops an enabled queue pair 0, whose moderation the write has set first (R143, R163). -/
theorem writeCtrl_disables (en : v.getLsbD 0 = false) (plain : v.getLsbD 1 = false) (live : mbLive s = true)
    (up : (s.mb.qps[(0 : Fin 64)]).state = .enabled) (was : s.mb.ctrl.getLsbD 0 = true) :
    writeCtrl v s = stopQp 0 none (modQp 0 (ctrlModeration (ctrlKept v)) (ctrlSet (ctrlKept v) s)) := by
  have stays : mbLive (modQp 0 (ctrlModeration (ctrlKept v)) (ctrlSet (ctrlKept v) s)) = true := live
  have enabled : ((modQp 0 (ctrlModeration (ctrlKept v)) (ctrlSet (ctrlKept v) s)).mb.qps[(0 : Fin 64)]).state = .enabled := by
    rw [modQp_self]
    exact up
  simp only [ctrlSet] at stays enabled ⊢
  simp only [writeCtrl, ctrlStore_assigned sq cq, sq, cq, Bool.and_self, if_true, up, plain, Bool.false_and,
    Bool.false_eq_true, if_false, getLsbD_ctrlKept_zero, en, was, Bool.not_false, stays, Bool.not_true, disableQp0, enabled]

/-- REINIT with EN 0 puts a queue pair 0 that is not enabled at its reset values (R164). -/
theorem writeCtrl_reinits (en : v.getLsbD 0 = false) (again : v.getLsbD 1 = true) (down : (s.mb.qps[(0 : Fin 64)]).state ≠ .enabled) :
    writeCtrl v s = modQp 0 (fun _ => {}) (ctrlSet (ctrlKept v &&& ~~~ 3) s) := by
  simp only [writeCtrl, ctrlStore_assigned sq cq, sq, cq, Bool.and_self, if_true, down, if_false, again, decide_false, Bool.and_false,
    Bool.false_eq_true, getLsbD_ctrlKept_zero, en, reinitQp0, ctrlSet]

end

/-! #### The three writes of MB_QP0_CTRL's rows -/

theorem getLsbD_or_one (v : W64) : (v ||| 1).getLsbD 0 = true := by
  rw [BitVec.getLsbD_or]; exact Bool.or_true _

theorem getLsbD_or_two (v : W64) : (v ||| 2).getLsbD 1 = true := by
  rw [BitVec.getLsbD_or]; exact Bool.or_true _

theorem getLsbD_andNot_three (v : W64) : (v &&& ~~~ 3).getLsbD 0 = false ∧ (v &&& ~~~ 3).getLsbD 1 = false := by
  rw [BitVec.getLsbD_and, BitVec.getLsbD_and]; exact ⟨Bool.and_false _, Bool.and_false _⟩

end

/-- Settles O45: each event's effect is a lemma above, carried to its row by `answers_act`. -/
theorem mailboxEngine : Obligations.MailboxEngine := by
  intro n s wake q
  refine ⟨fun v answers runs enabled stop => ⟨fun inside => ?_, fun outside => ?_, fun inside owed free => ?_⟩,
    fun v answers idle => ⟨?_, ?_⟩, fun due room ahead => ?_, fun cid c w found waits first unfinished live enabled defers late => ?_,
    fun runs irq => ?_, fun v answers runs => ⟨fun sq cq plain down was rings => ?_, fun sq cq up was => ?_, fun sq cq down en => ?_⟩⟩
  · refine answers_act rfl wake ((barWrite_sqTail answers n v).trans ?_)
    rw [doorbell_sqTail runs enabled stop, if_neg (Nat.not_le.mpr inside)]
  · refine answers_act rfl wake ((barWrite_sqTail answers n v).trans ?_)
    rw [doorbell_sqTail runs enabled stop, if_pos outside, badDoorbell]
  · exact answers_act rfl wake ((barWrite_cqHead answers n v).trans (doorbell_cqHead runs enabled stop free inside owed))
  · exact answers_act rfl wake ((barWrite_sqTail answers n v).trans (doorbell_held idle false n v))
  · refine answers_act rfl wake ((barWrite_cqHead answers n v).trans ((doorbell_held idle true n v).trans ?_))
    rw [doorbellOff, if_pos rfl, Nat.add_right_comm]
  · intro a e next m served fresh
    exact answers_act rfl wake (fetchCmd_admits due (decideClaim_mailbox room ahead) served fresh)
  · exact answers_act rfl wake (interimDue_posts found waits first unfinished live enabled defers late)
  · exact answers_act rfl wake (coalExpiry_raises runs irq)
  · exact answers_act rfl wake ((barWrite_ctrl answers _).trans (writeCtrl_enables sq cq (getLsbD_or_one v) plain runs down was rings))
  · obtain ⟨en, plain⟩ := getLsbD_andNot_three v
    exact answers_act rfl wake ((barWrite_ctrl answers _).trans (writeCtrl_disables sq cq en plain runs up was))
  · exact answers_act rfl wake ((barWrite_ctrl answers _).trans (writeCtrl_reinits sq cq en (getLsbD_or_two v) down))

end Sys2Proof.Machine

namespace Sys2Proof.Machine

open Sys2Proof

/-! ### The aperture, the link and its power states (O48) -/

section

variable {s : State}

/-- An access within one slice is checked against that slice (R127). -/
theorem apAccess_within {off n : Nat} (wr : Bool) (inside : off % 2 ^ 33 + n ≤ 2 ^ 33) :
    let x := s.hl.slices[(Fin.ofNat 8 (off / 2 ^ 33) : Fin 8)]
    let va := x.vbase.toNat * 2 ^ 30 + off % 2 ^ 33
    apAccess off n wr s = (Fin.ofNat 8 (off / 2 ^ 33), va, apCheck x va n wr s) := if_neg (Nat.not_lt.mpr inside)

theorem apCheck_disabled {x : Slice} (disabled : x.en = false) (va n : Nat) (wr : Bool) : apCheck x va n wr s = some (0x07, none) := by
  simp only [apCheck, disabled, Bool.not_false, if_true]

section

variable {off n va : Nat} {k : Fin 8} (full : barMode s = .full)
include full

/-- A read through an open BAR2 whose check passes returns the bytes of its pieces (R128). -/
theorem bar2Read_served {t : State} {ps : List (Nat × Nat)} (filled : 0 < n) (inside : off + n ≤ 2 ^ 36)
    (access : apAccess off n false s = (k, va, none)) (pieces : apPlaces (s.hl.slices[k]).tag.toNat va n false s = ps)
    (touched : apTouch s.hl.slices[k] va n false s = t) (sound : ∀ p ∈ ps, firstPoison p.1 p.2 t = none) :
    bar2Read off n .clean s = emit (.apData (ps.flatMap (fun p => t1Read p.1 p.2 t)) false) t := by
  have good : ps.any (fun p => (firstPoison p.1 p.2 t).isSome) = false :=
    List.any_eq_false.mpr (fun p hp => by rw [sound p hp]; decide)
  simp only [bar2Read, Nat.ne_of_gt filled, full, Nat.not_lt.mpr inside, access, reduceCtorEq, or_self, if_false, pieces, touched]
  cases ps with
  | nil => rfl
  | cons p rest => simp only [eccRead, good, Bool.false_eq_true, if_false]

/-- A read through an open BAR2 whose check fails is aborted and logged (R128). -/
theorem bar2Read_refused (filled : 0 < n) (inside : off + n ≤ 2 ^ 36) {cause : Nat} {piece : Option Nat}
    (access : apAccess off n false s = (k, va, some (cause, piece))) (ecc : Ecc) :
    bar2Read off n ecc s = emit .completerAbort (apRefuse k cause va piece false s) := by
  simp only [bar2Read, Nat.ne_of_gt filled, full, Nat.not_lt.mpr inside, access, reduceCtorEq, or_self, if_false]

/-- A write through an open BAR2 whose check passes stores its enabled bytes (R128, R131). -/
theorem bar2Write_served {data : List (Option Byte)} (filled : 0 < data.length) (inside : off + data.length ≤ 2 ^ 36)
    (access : apAccess off data.length true s = (k, va, none)) :
    let stores := (enabledRuns data 0).flatMap (fun r => cutPieces (apPlaces (s.hl.slices[k]).tag.toNat (va + r.1) r.2.length true s) r.2)
    (∀ p ∈ stores, partialPoison p.1 p.2.length s = none) →
      bar2Write off data s = stores.foldl (fun t p => t1Store p.1 p.2 t) (apTouch s.hl.slices[k] va data.length true s) := by
  intro stores sound
  have good : stores.any (fun p => (partialPoison p.1 p.2.length s).isSome) = false :=
    List.any_eq_false.mpr (fun p hp => by rw [sound p hp]; decide)
  simp only [bar2Write, Nat.ne_of_gt filled, full, Nat.not_lt.mpr inside, access, reduceCtorEq, or_self, if_false]
  exact if_neg (by rw [good]; decide)

/-- A write through an open BAR2 whose check fails is dropped and logged (R128). -/
theorem bar2Write_refused {data : List (Option Byte)} (filled : 0 < data.length) (inside : off + data.length ≤ 2 ^ 36) {cause : Nat}
    {piece : Option Nat} (access : apAccess off data.length true s = (k, va, some (cause, piece))) :
    bar2Write off data s = apRefuse k cause va piece true s := by
  simp only [bar2Write, Nat.ne_of_gt filled, full, Nat.not_lt.mpr inside, access, reduceCtorEq, or_self, if_false]

end

/-- A block of 2^36 bytes is eight slices of 2^33: an access within a slice is within the block. -/
theorem slice_inside (off : BitVec 36) {n : Nat} (inside : off.toNat % 2 ^ 33 + n ≤ 2 ^ 33) : off.toNat + n ≤ 2 ^ 36 := by
  have := off.isLt
  omega

/-- Where the host can be reached, the held writes proceed in order and the pending messages are sent (R120, R121). -/
theorem releaseHeld_reach (reach : hostReach s = true) :
    releaseHeld s = sendAllPending (s.hl.held.foldl performHeld { s with hl := { s.hl with held := [] } }) := if_pos reach

theorem releaseHeld_away (away : s.hl.bme = false) : releaseHeld s = s := by
  simp only [releaseHeld, hostReach, away, Bool.and_false, Bool.false_and, Bool.false_eq_true, if_false]

theorem d0Return_reach (up : s.hl.up = true) (stage : s.rst.hostOn = true) (master : s.hl.bme = true) (cold : s.hl.d3hot = true) :
    d0Return s = sendAllPending (s.hl.held.foldl performHeld { s with hl := { s.hl with d3hot := false, held := [] } }) := by
  rw [d0Return, if_pos cold, releaseHeld_reach]
  simp only [hostReach, up, stage, master, Bool.not_false, Bool.and_self]

theorem bmeSet_reach (up : s.hl.up = true) (stage : s.rst.hostOn = true) (d0 : s.hl.d3hot = false) :
    bmeSet s = sendAllPending (s.hl.held.foldl performHeld { s with hl := { s.hl with bme := true, bmeArmed := true, held := [] } }) := by
  rw [bmeSet, if_pos up, releaseHeld_reach]
  simp only [hostReach, up, stage, d0, Bool.not_false, Bool.and_self]

theorem tlpViolation_up (up : s.hl.up = true) (addr : W64) :
    tlpViolation .malformed addr s = violation 0x01 0 0 addr.toNat s
    ∧ tlpViolation .unsupported addr s = emit .unsupported (violation 0x02 0 0 addr.toNat s)
    ∧ tlpViolation .unexpected addr s = violation 0x03 0 0 addr.toNat s := by
  simp only [tlpViolation, up, Bool.not_true, Bool.false_eq_true, if_false, and_self]

/-- A link that trains at ×16 and 64 GT/s, still in the CXL mode it had, is up and logs nothing (R119). -/
theorem linkTrained_full (wake : awake s = true) (perst : s.pins.perst = false) (cast : s.rst.stage ≠ 0) (stage : s.rst.hostOn = true)
    (away : s.hl.bme = false) {flit cxl : Bool} (kept : s.hl.cxl = true → cxl = true ∧ flit = true) :
    linkTrained 16 6 flit cxl s = { s with hl := { s.hl with up := true, width := 16, rate := 6, flit := flit, cxl := cxl && flit } } := by
  have on : ¬(s.rst.phase = .off ∨ s.rst.phase = .pinWait) := by
    have powered : s.rst.phase = .up ∨ s.rst.phase = .quiesce := of_decide_eq_true wake
    rintro (h | h) <;> rw [h] at powered <;> exact powered.elim nofun nofun
  have stays : (s.hl.cxl && !cxl) = false := by
    cases h : s.hl.cxl with
    | false => rfl
    | true => rw [(kept h).1]; rfl
  have ready : (s.pins.perst || s.rst.stage == 0 || decide (s.rst.phase = .off ∨ s.rst.phase = .pinWait)) = false := by
    rw [perst, decide_eq_false on, beq_false_of_ne cast]; rfl
  simp only [linkTrained, ready, stays, stage]
  exact releaseHeld_away away

end

/-- Settles O48: each event's effect is a lemma above, carried to its row by `answers_act`. -/
theorem hostLinkEvents : Obligations.HostLinkEvents := by
  intro s wake released
  refine ⟨fun off len k va full filled inside access sound => ?_, fun off data k va full filled inside access sound => ?_,
    fun off len full filled inside disabled => ?_, fun addr up => ?_, ?_, fun up stage => ⟨fun master cold => ?_, fun d0 => ?_⟩,
    fun flit cxl perst cast stage away kept => ?_, fun u addr reach => ?_, fun n due => ?_⟩
  · exact answers_act rfl wake (bar2Read_served full filled inside access rfl rfl sound)
  · exact answers_act rfl wake (bar2Write_served full filled inside access sound)
  · have refused (wr : Bool) := (apAccess_within (s := s) wr inside).trans (by rw [apCheck_disabled disabled])
    refine ⟨fun ecc => ?_, fun data same => ?_⟩
    · exact answers_act rfl wake (bar2Read_refused full filled (slice_inside off inside) (refused false) ecc)
    · rw [← same] at filled inside refused
      exact answers_act rfl wake (bar2Write_refused full filled (slice_inside off inside) (refused true))
  · obtain ⟨malformed, unsupported, unexpected⟩ := tlpViolation_up up addr
    exact ⟨answers_act rfl wake malformed, answers_act rfl wake unsupported, answers_act rfl wake unexpected, answers_act rfl wake (if_pos up)⟩
  · exact answers_act rfl wake rfl
  · exact answers_act rfl wake (d0Return_reach up stage master cold)
  · exact answers_act rfl wake (bmeSet_reach up stage d0)
  · exact answers_act rfl wake (linkTrained_full wake perst cast stage away kept)
  · exact answers_act rfl wake (if_pos reach)
  · exact answers_act rfl wake (if_pos due)

end Sys2Proof.Machine

namespace Sys2Proof.Machine

open Sys2Proof

/-! ### Sideband requests and attestation (O55) -/

section

variable {s t : State}

theorem awake_of_sbServed (served : sbServed s = true) : awake s = true := (Bool.and_eq_true_iff.mp served).1

theorem sbAnswer_served (served : sbServed s = true) (r : SbReply) : sbAnswer r s = emit (.sideband r) s := if_pos served

/-- A row whose effect on `s` is an answer from `t`, where the sideband is served as in `s`, answers so (R477). -/
theorem answers_sideband {c : Instr} {f : State → State} {r : SbReply} (served : sbServed s = true) (hx : exec c s = act f s)
    (hf : f s = sbAnswer r t) (same : t.rst = s.rst := by rfl) : Answers c s (emit (.sideband r) t) :=
  answers_act hx (awake_of_sbServed served) (hf.trans (sbAnswer_served (by rw [← served, sbServed, sbServed, same]) r))

/-- A dynamic address outside standalone mode is answered with the provisioned id and changes no grant (R481, R550). -/
theorem dynamicAddress_of_joined (served : sbServed s = true) (joined : s.pm.standalone = false) (a : BitVec 7) :
    dynamicAddress a s = emit (.sideband (.values [provisionedId])) { s with sb := { s.sb with addr := some a } } := by
  simp only [dynamicAddress, served, Bool.not_true, Bool.false_eq_true, if_false, emit_pm, modSb, joined]

theorem setEid_assigned (served : sbServed s = true) {e : Byte} (low : e ≠ 0) (high : e ≠ 0xFF) :
    setEid e s = sbAnswer (.values [e.toNat]) { s with sb := { s.sb with eid := some e } } := by
  simp only [setEid, served, Bool.not_true, Bool.false_eq_true, if_false, low, high, or_self, modSb]

theorem setEid_null (served : sbServed s = true) : setEid 0 s = sbAnswer (.error .invalidData) s := by
  simp only [setEid, served, Bool.not_true, Bool.false_eq_true, if_false, true_or, if_true]

theorem pldmOf_served {x : Nat} (listed : pldmTypes.contains x = true) (r : SbReply) : pldmOf x r s = sbAnswer r s := by
  rw [pldmOf, if_pos listed]

/-- A valid monitor that is not excluded reads as the numeric sensor one above it (R488). -/
theorem numericSensor_monitor {m : Fin 88} (present : monExcluded m.val s = false) (valid : (s.pm.monitors[m]).valid = true) :
    numericSensor (m.val + 1) s = .values [(s.pm.monitors[m]).value.toNat] := by
  have range : 1 ≤ m.val + 1 ∧ m.val + 1 ≤ 88 := ⟨Nat.le_add_left 1 _, m.isLt⟩
  have index : Fin.ofNat 88 m.val = m := Fin.ext (Nat.mod_eq_of_lt m.isLt)
  simp only [numericSensor, range, and_self, if_true, Nat.add_sub_cancel, index, present, valid, Bool.not_true, Bool.or_self,
    Bool.false_eq_true, if_false]

theorem stateSensor_gauge : stateSensor 111 s = .values [s.gg.state.code] := by
  cases h : s.gg.state <;> simp only [stateSensor, h] <;> rfl

theorem setReceiver_served (served : sbServed s = true) (r : Option Byte) :
    setReceiver r s = sbAnswer (.values []) { s with sb := { s.sb with receiver := r } } := if_pos served

/-- The first part of a FRU transfer takes the snapshot that the whole transfer returns (R498). -/
theorem fruTable_first (served : sbServed s = true) : let t := { s with sb := { s.sb with fru := some (fruSnapshot s) } }
    fruTable true s = sbAnswer (.fru (fruFields (fruSnapshot s) t)) t := by
  simp only [fruTable, served, Bool.not_true, Bool.false_eq_true, if_false, if_true, modSb]

theorem fruTable_later (served : sbServed s = true) {f : FruTable} (taken : s.sb.fru = some f) :
    fruTable false s = sbAnswer (.fru (fruFields f s)) s := by
  simp only [fruTable, served, Bool.not_true, Bool.false_eq_true, if_false, taken]

/-! #### SPDM over DOE (R506, R507) -/

theorem spdmServed_iff : spdmServed s = true ↔ s.hl.up = true ∧ s.rst.hostOn = true ∧ s.rst.recovery = false ∧ s.rst.phase = .up := by
  simp only [spdmServed, Bool.and_eq_true, Bool.not_eq_true', decide_eq_true_eq, and_assoc]

theorem awake_of_spdmServed (served : spdmServed s = true) : awake s = true := by
  obtain ⟨-, -, -, up⟩ := spdmServed_iff.mp served
  simp only [awake, up, true_or, decide_true]

theorem spdmAnswer_served (served : spdmServed s = true) (r : SpdmReply) : spdmAnswer r s = emit (.spdm r) s := if_pos served

theorem spdmStep_served (served : spdmServed s = true) (p : SpdmPhase) (r : SpdmReply) :
    spdmStep p r s = emit (.spdm r) { s with sb := { s.sb with spdm := p } } := if_pos served

theorem versioned_current (f : State → State) : versioned 0x12 f s = f s := if_pos rfl

theorem versioned_other {ver : Byte} (other : ver ≠ 0x12) (f : State → State) :
    versioned ver f s = spdmAnswer (.error .versionMismatch) s := if_neg other

theorem negotiated_current (f : State → State) (connected : s.sb.spdm = .negotiated) : negotiated 0x12 f s = f s :=
  (versioned_current _).trans (if_pos connected)

theorem negotiated_other {ver : Byte} (other : ver ≠ 0x12) (f : State → State) :
    negotiated ver f s = spdmAnswer (.error .versionMismatch) s := versioned_other other _

theorem negotiated_early (f : State → State) (early : s.sb.spdm ≠ .negotiated) :
    negotiated 0x12 f s = spdmAnswer (.error .unexpectedRequest) s := (versioned_current _).trans (if_neg early)

/-- A row whose effect on `s` is an SPDM answer from `t`, where the responder is served as in `s`, answers so (R506). -/
theorem answers_spdm {c : Instr} {f : State → State} {r : SpdmReply} (served : spdmServed s = true) (hx : exec c s = act f s)
    (hf : f s = spdmAnswer r t) (link : t.hl = s.hl := by rfl) (same : t.rst = s.rst := by rfl) : Answers c s (emit (.spdm r) t) :=
  answers_act hx (awake_of_spdmServed served)
    (hf.trans (spdmAnswer_served (by rw [← served, spdmServed, spdmServed, link, same]) r))

theorem answers_spdmStep {c : Instr} {f : State → State} {p : SpdmPhase} {r : SpdmReply} (served : spdmServed s = true)
    (hx : exec c s = act f s) (hf : f s = spdmStep p r s) : Answers c s (emit (.spdm r) { s with sb := { s.sb with spdm := p } }) :=
  answers_act hx (awake_of_spdmServed served) (hf.trans (spdmStep_served served p r))

theorem spdmCapabilities_first (first : s.sb.spdm = .version) :
    spdmCapabilities 0x12 s = spdmStep .capabilities .capabilities s := (versioned_current _).trans (if_pos first)

theorem spdmAlgorithms_second (second : s.sb.spdm = .capabilities) :
    spdmAlgorithms 0x12 s = spdmStep .negotiated .algorithms s := (versioned_current _).trans (if_pos second)

/-- A portion of slot 0's chain, or InvalidRequest for an offset beyond it (R506). -/
theorem spdmCertificate_slot0 (connected : s.sb.spdm = .negotiated) (off len : BitVec 16) :
    let part := (Config.certChain.drop off.toNat).take len.toNat
    spdmCertificate 0x12 0 off len s = spdmAnswer (if off.toNat < Config.certChain.length
      then .certificate part (Config.certChain.length - off.toNat - part.length) else .error .invalidRequest) s := by
  refine (negotiated_current _ connected).trans ?_
  by_cases inside : off.toNat < Config.certChain.length
  · simp only [ne_eq, not_true_eq_false, Nat.not_le.mpr inside, or_self, if_false, inside, if_true]
  · simp only [Nat.not_lt.mp inside, or_true, if_true, inside, if_false]

theorem spdmCertificate_empty (connected : s.sb.spdm = .negotiated) {slot : Fin 8} (empty : slot ≠ 0) (off len : BitVec 16) :
    spdmCertificate 0x12 slot off len s = spdmAnswer (.error .invalidRequest) s :=
  (negotiated_current _ connected).trans (if_pos (.inl empty))

theorem spdmChallenge_slot0 (connected : s.sb.spdm = .negotiated) :
    spdmChallenge 0x12 0 s = spdmAnswer (.challengeAuth (Config.deviceSign s.freeCtr)) { s with freeCtr := s.freeCtr + 1 } :=
  (negotiated_current _ connected).trans (if_neg (fun h => h rfl))

/-- All six blocks, signed or not (R507). -/
theorem spdmMeasurements_all (connected : s.sb.spdm = .negotiated) (sign : Bool) :
    spdmMeasurements 0x12 0xFF sign s =
      if sign then spdmAnswer (.measurements ([1, 2, 3, 4, 5, 6].map (fun i => (i, measurement i s))) (some (Config.deviceSign s.freeCtr)))
        { s with freeCtr := s.freeCtr + 1 }
      else spdmAnswer (.measurements ([1, 2, 3, 4, 5, 6].map (fun i => (i, measurement i s))) none) s :=
  (negotiated_current _ connected).trans rfl

theorem spdmMeasurements_unassigned (connected : s.sb.spdm = .negotiated) :
    spdmMeasurements 0x12 7 false s = spdmAnswer (.error .invalidRequest) s :=
  (negotiated_current _ connected).trans rfl

/-- DOE Discovery of a powered module with its link up (R116). -/
theorem doeDiscovery_served (served : spdmServed s = true) :
    doeDiscovery 0 s = emit (.doe 0 0x0001 0 1) s ∧ doeDiscovery 1 s = emit (.doe 1 0x0001 1 0) s := by
  obtain ⟨link, -, -, up⟩ := spdmServed_iff.mp served
  simp only [doeDiscovery, link, powered, up]
  exact ⟨rfl, rfl⟩

theorem h2dSnoop_cxl (served : spdmServed s = true) (cxl : s.hl.cxl = true) : h2dSnoop s = emit .snoopIHitI s := by
  obtain ⟨link, -⟩ := spdmServed_iff.mp served
  simp only [h2dSnoop, link, cxl, Bool.and_self, if_true]

end

/-- The version and the commands of each PLDM type that is served (R477). -/
theorem answers_pldmType {s : State} (served : sbServed s = true) (t : Byte) (listed : t ∈ [(0 : Byte), 2, 4]) :
    Answers (.getPldmVersion t) s (emit (.sideband (.values [Config.pldmVersion t.toNat])) s)
      ∧ Answers (.getPldmCommands t) s (emit (.sideband (.names (pldmCommands t.toNat))) s) := by
  have contained : pldmTypes.contains t.toNat = true := by
    simp only [List.mem_cons, List.not_mem_nil, or_false] at listed
    rcases listed with rfl | rfl | rfl <;> rfl
  exact ⟨answers_sideband served rfl (pldmOf_served contained _), answers_sideband served rfl (pldmOf_served contained _)⟩

/-- A monitor's reading is told through its numeric sensor (R488). -/
theorem answers_monitor {s : State} (served : sbServed s = true) {i : BitVec 16} {m : Fin 88} (hi : i.toNat = m.val + 1)
    (present : monExcluded m.val s = false) (valid : (s.pm.monitors[m]).valid = true) :
    Answers (.getSensorReading i) s (emit (.sideband (.values [(s.pm.monitors[m]).value.toNat])) s) := by
  refine answers_sideband served rfl (congrArg (sbAnswer · s) ?_)
  rw [hi, numericSensor_monitor present valid]

/-- Settles O55: what each request's meaning answers is a lemma above or plain, carried to its row by `answers_sideband` and
`answers_spdm`. -/
theorem sidebandRequests : Obligations.SidebandRequests := by
  refine ⟨fun s served => ?_, fun s served => ?_⟩
  · have plain {c : Instr} {f : State → State} {r : SbReply} (hx : exec c s = act f s) (hf : f s = sbAnswer r s) :
        Answers c s (emit (.sideband r) s) := answers_sideband served hx hf
    exact ⟨fun a joined => answers_act rfl (awake_of_sbServed served) (dynamicAddress_of_joined served joined a),
      fun e low high => answers_sideband served rfl (setEid_assigned served low high), plain rfl (setEid_null served), plain rfl rfl,
      plain rfl rfl, plain rfl rfl, plain rfl rfl, plain rfl rfl, answers_pldmType served, plain rfl rfl, plain rfl rfl, plain rfl rfl,
      plain rfl rfl, plain rfl rfl, plain rfl rfl, fun i m hi present valid => answers_monitor served hi present valid, plain rfl rfl,
      plain rfl (congrArg (sbAnswer · s) stateSensor_gauge), plain rfl rfl, plain rfl rfl, plain rfl rfl,
      fun r => answers_sideband served rfl (setReceiver_served served r), plain rfl rfl,
      answers_sideband served rfl (fruTable_first served), fun f taken => plain rfl (fruTable_later served taken), plain rfl rfl⟩
  · have plain {c : Instr} {f : State → State} {r : SpdmReply} (hx : exec c s = act f s) (hf : f s = spdmAnswer r s) :
        Answers c s (emit (.spdm r) s) := answers_spdm served hx hf
    have awake := awake_of_spdmServed served
    refine ⟨answers_spdmStep served rfl rfl, fun first => answers_spdmStep served rfl (spdmCapabilities_first first),
      fun second => answers_spdmStep served rfl (spdmAlgorithms_second second), fun ver other => ⟨plain rfl (versioned_other other _),
        plain rfl (negotiated_other other _), fun slot => plain rfl (negotiated_other other _)⟩,
      fun early => plain rfl (negotiated_early _ early), fun connected => ?_, plain rfl (versioned_current _),
      fun cxl => answers_act rfl awake (h2dSnoop_cxl served cxl), answers_act rfl awake (doeDiscovery_served served).1,
      answers_act rfl awake (doeDiscovery_served served).2⟩
    exact ⟨plain rfl (negotiated_current _ connected), fun off len => plain rfl (spdmCertificate_slot0 connected off len),
      fun slot off len empty => plain rfl (spdmCertificate_empty connected empty off len),
      answers_spdm served rfl (spdmChallenge_slot0 connected), plain rfl (spdmMeasurements_all connected false),
      answers_spdm served rfl (spdmMeasurements_all connected true), plain rfl (spdmMeasurements_unassigned connected)⟩

end Sys2Proof.Machine

namespace Sys2Proof.Machine

open Sys2Proof

/-! ### The commands of queue pair 0 (R169) -/

section
variable {c : Instr} {d : CmdDef} {n : Fin 64} {e : Entry} {s : State}

/-- The rows of the 13 commands that R169 lists. -/
def qp0Row (c : Instr) : Bool :=
  match c with
  | .qpCreate _ _ | .qpDelete _ _ | .bindOff _ _ | .warmReset _ _ | .ptWrite _ _ | .gaugeConfig _ _ | .gaugeRebase _ _ | .fabricId _ _
  | .keyUpdate _ _ _ | .fwStage _ _ | .fwActivate _ _ | .fwChainSet _ _ | .fwDiscard _ _ => true
  | _ => false

/-- The catalogue's opcodes of R169 are those rows'. -/
theorem qp0Only_row (h : mailboxRow c = some (d, n, e)) : qp0Only d.op = qp0Row c := by
  unfold mailboxRow at h
  split at h
  all_goals cases h
  all_goals rfl

/-- Each of those rows is one of the 13 constructors, with the row's queue pair and entry. -/
theorem qp0Row_named (h : mailboxRow c = some (d, n, e)) (hq : qp0Row c = true) :
    ∃ bad, c = .qpCreate n e ∨ c = .qpDelete n e ∨ c = .bindOff n e ∨ c = .warmReset n e ∨ c = .ptWrite n e ∨ c = .gaugeConfig n e
      ∨ c = .gaugeRebase n e ∨ c = .fabricId n e ∨ c = .keyUpdate n e bad ∨ c = .fwStage n e ∨ c = .fwActivate n e ∨ c = .fwChainSet n e
      ∨ c = .fwDiscard n e := by
  unfold qp0Row at hq
  split at hq
  case h_9 bad => cases h; exact ⟨bad, by simp⟩
  case h_14 => cases hq
  all_goals cases h; exact ⟨false, by simp⟩

/-- The check of R169 is the only one that answers REFUSED_POLICY. -/
theorem cmdRefusal_policy {sub : Nat} (h : cmdRefusal d n e s = some (stPolicy, sub)) : qp0Only d.op = true ∧ n ≠ 0 := by
  cases hg : gateShut d.op s with
  | true => rw [cmdRefusal_gate hg] at h; cases h
  | false =>
    cases hf : entryFault d false (d.timing n e s) e with
    | some o => rw [cmdRefusal_malformed hg hf] at h; cases h
    | none =>
      cases hi : (missingFeatures d e s).min? with
      | some i => rw [cmdRefusal_feature hg hf hi] at h; cases h
      | none =>
        rw [cmdRefusal_granted hg hf (List.min?_eq_none_iff.mp hi)] at h
        split at h
        next only => exact only
        next => cases h

end

/-- Settles O32: the 13 rows are `qp0Row`, and REFUSED_POLICY comes of the check on the queue pair alone. -/
theorem mailboxQueuePairZeroOnly : Obligations.MailboxQueuePairZeroOnly := by
  refine ⟨?_, fun d e s h => (cmdRefusal_policy h).2 rfl, fun c d n e s hc hother h => ?_⟩
  · intro c d n e x earlier s hc hrow hn awake ho hf hx hm hh hg hfault hgranted
    have only : qp0Only d.op = true := by
      rw [qp0Only_row hc]
      obtain ⟨bad, h | h | h | h | h | h | h | h | h | h | h | h | h⟩ := hrow
      all_goals rw [h]; rfl
    have other : ¬(d.op = 0x01 ∧ s.mb.negotiated = true) := fun h => by rw [h.1] at only; cases only
    refine mailboxRefusalHasNoEffect c d n e x earlier s _ _ hc awake ho hf hx hm hh other ?_ (by decide)
    refine (cmdRefusal_granted (s := begun n e s) hg hfault (List.eq_nil_iff_forall_not_mem.mpr (fun i hi => ?_))).trans (if_pos ⟨only, hn⟩)
    obtain ⟨hneeds, hmissing⟩ := mem_missingFeatures.mp hi
    exact Bool.false_ne_true (hmissing.symm.trans (hgranted i hneeds))
  · have only := (cmdRefusal_policy h).1
    rw [qp0Only_row hc] at only
    obtain ⟨bad, named⟩ := qp0Row_named hc only
    have unnamed := hother bad
    simp only [ne_eq, ← not_or] at unnamed
    exact unnamed named

end Sys2Proof.Machine

namespace Sys2Proof.Machine

open Sys2Proof

/-! ### The address-space and translation commands (R175–R177, R250, R252–R255) -/

section
variable {n : Fin 64} {e : Entry} {s : State}

/-- AS_CREATE enters its tag with the table's root, under the generation the tag has (R175). -/
theorem run_asCreate (ht : t1Target (efld e 16 8) 65536 s = true) (hl : spaceLive (Entry.tag e) s = false) :
    cmdAsCreate.run n e s = (okEnd 0 0, retryFaultIns (rereadPool (Entry.tag e) 0 (2 ^ 52)
      (modTx (fun x => { x with spaces := kvSet x.spaces (Entry.tag e) ⟨efld e 16 8, tagGen (Entry.tag e) s⟩
                                gens := kvSet x.gens (Entry.tag e) (tagGen (Entry.tag e) s) }) s))) := by
  simp only [cmdAsCreate, ht, hl, Bool.not_true, Bool.false_eq_true, if_false]

/-- The invalidation that an AS_DESTROY runs, which no engine acknowledges (R175). -/
def destroyInval (n : Fin 64) (e : Entry) : Inval := ⟨n.val, Entry.cid e, Entry.tag e, 0, 2 ^ 52, 0, true⟩

theorem run_asDestroy (hl : spaceLive (Entry.tag e) s = true) (hu : spaceUsed (Entry.tag e) s = false)
    (hd : destroying (Entry.tag e) s = false) : cmdAsDestroy.run n e s = (.works, invalProgress
      (modTx (fun x => { x with invals := x.invals ++ [destroyInval n e] })
        (modRes (fun r => { r with poolDecl := r.poolDecl.filter (fun d => d.1 != Entry.tag e) }) (bumpGen (Entry.tag e) s)))
      (destroyInval n e)) := by
  simp only [cmdAsDestroy, hl, hu, hd, Bool.not_true, Bool.or_self, Bool.false_eq_true, if_false, destroyInval]

theorem run_ptWrite (ht : t1Target (efld e 16 8) (efld e 24 4) s = true) :
    cmdPtWrite.run n e s = ptPieces n (Entry.dptr e) (efld e 16 8) (efld e 24 4) 0 18 s := by
  simp only [cmdPtWrite, ht, Bool.not_true, Bool.false_eq_true, if_false]

/-- One unit within one page of the buffer is one piece: it is read and written (R176). -/
theorem ptPieces_unit {src dst fuel : Nat} (hp : src % 4096 ≤ 4088) (hr : hostRefuses src 8 s = false)
    (hs : poisoned (sectorOf dst) s = false) :
    ptPieces n src dst 8 0 (fuel + 2) s = (okEnd 1 0, t1Store dst (cellsRead s.host src 8) s) := by
  have piece : min 8 (4096 - src % 4096) = 8 := by omega
  have whole : (cellsRead s.host src 8).take 8 = cellsRead s.host src 8 :=
    List.take_of_length_le (Nat.le_of_eq (cellsRead_length _ _ _))
  simp only [ptPieces, piece, hr, ptUnits, hs, whole, Nat.reduceEqDiff, Bool.false_eq_true, if_false, Nat.reduceDiv, Nat.sub_self, if_true]

theorem tagGen_bumpGen (tag : Nat) : tagGen tag (bumpGen tag s) = tagGen tag s + 1 := by
  simp only [bumpGen, modTx, tagGen, kvGet_kvSet, Option.getD_some]

theorem run_invalTag (hl : spaceLive (Entry.tag e) s = true) :
    cmdInvalTag.run n e s = (okEnd (tagGen (Entry.tag e) s + 1).toNat 0, bumpGen (Entry.tag e) s) := by
  simp only [cmdInvalTag, hl, tagGen_bumpGen, Bool.not_true, Bool.false_eq_true, if_false]

/-- The invalidation that an INVAL_RANGE runs, which all 58 engines are asked for (R253). -/
def rangeInval (n : Fin 64) (e : Entry) : Inval :=
  ⟨n.val, Entry.cid e, Entry.tag e, efld e 16 8, efld e 24 8, BitVec.allOnes 58, false⟩

theorem run_invalRange (hl : spaceLive (Entry.tag e) s = true) (hr : rangeInvals s < 4) :
    cmdInvalRange.run n e s = (.works,
      modTx (fun x => { x with invals := x.invals ++ [rangeInval n e], ackExpected := x.ackExpected + 58 })
        (uncacheRange (Entry.tag e) (efld e 16 8) (efld e 24 8) s)) := by
  simp only [cmdInvalRange, hl, if_neg (Nat.not_le.mpr hr), Bool.not_true, Bool.false_eq_true, if_false, rangeInval]

/-- A fifth INVAL_RANGE waits (R253). -/
theorem run_invalRange_waits (hl : spaceLive (Entry.tag e) s = true) (hr : 4 ≤ rangeInvals s) :
    cmdInvalRange.run n e s = (.waits resInvals, s) := by
  simp only [cmdInvalRange, hl, if_pos hr, Bool.not_true, Bool.false_eq_true, if_false]

theorem run_faultRingSet (h : s.tx.ringSet = false ∨ s.tx.faults = []) :
    cmdFaultRingSet.run n e s = (okEnd 0 0, modTx (fun x => { x with
      ringSet := true, ringBase := BitVec.ofNat 64 (efld e 16 8), frHead := 0, frTail := 0, frPhase := true, frCount := 0 }) s) := by
  have free : (s.tx.ringSet && !s.tx.faults.isEmpty) = false := by
    rcases h with h | h
    · rw [h, Bool.false_and]
    · rw [h, List.isEmpty_nil, Bool.not_true, Bool.and_false]
  simp only [cmdFaultRingSet, free, Bool.false_eq_true, if_false]

theorem run_faultResume {f : FaultRec} (h : s.tx.faults.find? (fun f => f.id == efld e 16 8) = some f) :
    cmdFaultResume.run n e s = (okEnd 0 0, endFault f (efld e 24 1 == 0) s) := by
  simp only [cmdFaultResume, h]

end

/-- Settles O35: each command's run is a `run_` lemma, and the `accepted_` lemmas carry it to the row's answer. -/
theorem spaceCommands : Obligations.SpaceCommands := by
  intro n e s b tag root
  refine ⟨fun ha ht hl => ?_, fun ha hl hu hd => ?_, fun ha ht => ⟨fun k t hp => ?_, fun h8 hp hr hs => ?_⟩, fun ha hl => ?_,
    fun ha hl hr => ?_, fun ha hl hr => ?_, fun ha hf => ?_, fun f ha hf => ?_⟩
  · exact accepted_done rfl ha (run_asCreate ht hl)
  · exact accepted_works rfl ha (run_asDestroy hl hu hd)
  · exact accepted_done rfl ha ((run_ptWrite ht).trans hp)
  · refine accepted_done rfl ha ((run_ptWrite ht).trans ?_)
    rw [h8]
    exact ptPieces_unit hp hr hs
  · exact accepted_done rfl ha (run_invalTag hl)
  · exact accepted_works rfl ha (run_invalRange hl hr)
  · exact accepted_waits rfl ha (run_invalRange_waits hl hr)
  · exact accepted_done rfl ha (run_faultRingSet hf)
  · exact accepted_done rfl ha (run_faultResume hf)

end Sys2Proof.Machine

namespace Sys2Proof.Machine

open Sys2Proof

/-! ### The table commands (R172, R178, R196, R214, R215) -/

section
variable {n : Fin 64} {e : Entry} {s : State}

/-- The descriptor in the buffer of a TABLE_CREATE that no check refuses is entered under its id (R178). -/
theorem run_tableCreate (hr : bufferReads e 128 s)
    (hv : createVerdict (ofBytes (bufferOf e 128 s)) (Table.parse (ofBytes (bufferOf e 128 s))) s = none) :
    cmdTableCreate.run n e s = (okEnd 0 0, modTbl (fun x => { x with
      tables := kvSet x.tables (Table.parse (ofBytes (bufferOf e 128 s))).id.toNat (Table.parse (ofBytes (bufferOf e 128 s))) }) s) := by
  simp only [cmdTableCreate, readBuf_served _ hr, hv]

/-- A table that no live step, composition or parked update needs leaves (R178). -/
theorem run_tableDestroy {t : Table} (ht : tableOf (namedTable e) s = some t) (hl : s.stp.live = [])
    (hc : ∀ x ∈ s.tbl.tables, x.2.index = 2 → x.2.compQ.toNat ≠ namedTable e ∧ x.2.compR.toNat ≠ namedTable e)
    (hp : ∀ r ∈ s.ram.parked, r.table.toNat ≠ namedTable e) :
    cmdTableDestroy.run n e s = (okEnd t.blocks 0, destroyTable (namedTable e) s) := by
  have uncomposed : s.tbl.tables.any (fun x => x.2.index == 2 && (x.2.compQ.toNat == namedTable e || x.2.compR.toNat == namedTable e))
      = false := by
    refine List.any_eq_false.mpr (fun x hx h => ?_)
    simp only [Bool.and_eq_true, Bool.or_eq_true, beq_iff_eq] at h
    exact h.2.elim (hc x hx h.1).1 (hc x hx h.1).2
  have unparked : s.ram.parked.any (fun r => r.table.toNat == namedTable e) = false :=
    List.any_eq_false.mpr (fun r hr => by simpa only [beq_iff_eq] using hp r hr)
  simp only [cmdTableDestroy, ht, hl, uncomposed, unparked, List.isEmpty_nil, Bool.not_true, Bool.or_self, Bool.false_eq_true, if_false]

/-- The record that TABLE_QUERY returns: the descriptor and the blocks on tiers 1, 2 and 3 (R215). -/
def queryRecord (t : Table) (x y z : Nat) : List Byte :=
  toBytes 128 t.pack ++ toBytes 8 0 ++ toBytes 8 x ++ toBytes 8 y ++ toBytes 8 z ++ List.replicate 96 0

theorem run_tableQuery {t : Table} {x y z : Nat} (hh : hostReach s = true) (ht : tableOf (namedTable e) s = some t)
    (hc : countBlocks t s = .inl (x, y, z)) : cmdTableQuery.run n e s = (okEnd x z, buffered e (queryRecord t x y z) s) := by
  simp only [cmdTableQuery, ht, hc, writeBuf_reached _ hh, queryRecord]

/-- A table id with no descriptor ends the command with the id (R172). -/
theorem run_unknownTable (h : tableOf (namedTable e) s = none) :
    cmdTableDestroy.run n e s = noTable e s ∧ cmdTableQuery.run n e s = noTable e s := by
  simp only [cmdTableDestroy, cmdTableQuery, h, and_self]

end

/-- Settles O36: each command's run is a `run_` lemma, and the `accepted_` lemmas carry it to the row's answer. -/
theorem tableCommands : Obligations.TableCommands := by
  intro n e s b id
  refine ⟨fun ha hr hv => ?_, fun t ha ht hl hc hp => ?_, fun t x y z ha ht hc => ?_, fun hn => ⟨fun ha => ?_, fun ha => ?_⟩⟩
  · exact accepted_done rfl ha (run_tableCreate hr hv)
  · exact accepted_done rfl ha (run_tableDestroy ht hl hc hp)
  · exact accepted_done rfl ha (run_tableQuery ha.reach ht hc)
  · exact accepted_fail rfl ha (run_unknownTable hn).1
  · exact accepted_fail rfl ha (run_unknownTable hn).2

end Sys2Proof.Machine

namespace Sys2Proof.Machine

open Sys2Proof

/-! ### Hot sets and replicas (R172, R179, R181, R206, R210–R212) -/

section
variable {n : Fin 64} {e : Entry} {s s' : State} {t : Table} {copies : List RowCopy}

/-- Rows that this device owns give no reason to refuse a copy command (R198, R434). -/
theorem ownsRow_any {id : Nat} {rows : List Nat} (h : ∀ r ∈ rows, ownsRow id t r s = true) : rows.any (fun r => !ownsRow id t r s) = false :=
  List.any_eq_false.mpr (fun r hr => by rw [h r hr]; decide)

/-- The state in which the copies of hot set `h` are `copies`. -/
def hotCopied (h : Nat) (copies : List RowCopy) (s : State) : State :=
  modTbl (fun u => { u with hotSets := kvMod u.hotSets h (fun y => { y with rows := copies }) }) s

/-- The hot set that a HOTSET_LOAD enters: its rows are not loaded yet (R179). -/
def newHotSet (e : Entry) (t : Table) (xs : List W64) (s : State) : HotSet :=
  ⟨BitVec.ofNat 20 (namedTable e), maskTiles (efld e 14 2) s, (xs.filterMap t.rowOf).map (fun r => ⟨r, [], 0, true⟩)⟩

/-- The state with a hot set entered. -/
def withHotSet (h : Nat) (x : HotSet) (s : State) : State := modTbl (fun u => { u with hotSets := kvSet u.hotSets h x }) s

/-- A hot set whose rows all load is kept with them, and the command returns the bytes it takes (R179, R211). -/
theorem hotLoadOn_loaded {x : HotSet} (hx : kvGet s.tbl.hotSets (namedHotSet e) = some x) (ht : tableOf (namedTable e) s = some t)
    (hl : loadCopies (cmdClass n s) t x.rows s = ((copies, .loaded), s')) : hotLoadOn n e s =
      (okEnd (copies.length * copyBytes (namedTable e) (hotCopied (namedHotSet e) copies s')) 0, hotCopied (namedHotSet e) copies s') := by
  simp only [hotLoadOn, hx, ht, hl, hotCopied]

/-- A HOTSET_LOAD whose checks pass enters its hot set and loads it (R179, R211). -/
theorem run_hotsetLoad {xs : List W64} (hr : bufferReads e (8 * efld e 16 4) s) (ht : tableOf (namedTable e) s = some t)
    (hxs : indexWords (efld e 16 4) (bufferOf e (8 * efld e 16 4) s) = xs) (hv : ∀ x ∈ xs, (t.rowOf x).isSome = true)
    (ho : ∀ r ∈ xs.filterMap t.rowOf, ownsRow (namedTable e) t r s = true)
    (hc : (kvGet s.tbl.hotSets (namedHotSet e)).isSome = true ∨ s.tbl.hotSets.length < 1024)
    (hs : ∀ k ∈ tilesOf (maskTiles (efld e 14 2) s),
      swatchUsed k (some (namedHotSet e)) s + xs.length * roundUp t.stride 32 ≤ 2 ^ 24) :
    cmdHotsetLoad.run n e s = hotLoadOn n e (withHotSet (namedHotSet e) (newHotSet e t xs s) s) := by
  have valid : xs.find? (fun x => (t.rowOf x).isNone) = none :=
    List.find?_eq_none.mpr (fun x hx h => by rw [Option.isNone_eq_false_iff.mpr (hv x hx)] at h; cases h)
  have room : ((kvGet s.tbl.hotSets (namedHotSet e)).isNone && decide (1024 ≤ s.tbl.hotSets.length)) = false := by
    rcases hc with h | h
    · rw [Option.isNone_eq_false_iff.mpr h, Bool.false_and]
    · rw [decide_eq_false (Nat.not_le.mpr h), Bool.and_false]
  have space : (tilesOf (maskTiles (efld e 14 2) s)).any (fun k => decide (copySpace <
      swatchUsed k (some (namedHotSet e)) s + xs.length * roundUp t.stride 32)) = false :=
    List.any_eq_false.mpr (fun k hk h => Nat.not_lt.mpr (hs k hk) (of_decide_eq_true h))
  simp only [cmdHotsetLoad, readBuf_served _ hr, ht, hxs, valid, ownsRow_any ho, room, space, Bool.false_eq_true, if_false]
  rfl

theorem run_hotsetRefresh (h : (kvGet s.tbl.hotSets (namedHotSet e)).isSome = true) :
    cmdHotsetRefresh.run n e s = schedule [ownEntry n e 8 (namedHotSet e)] s := by
  simp only [cmdHotsetRefresh, Option.isNone_eq_false_iff.mpr h, Bool.false_eq_true, if_false]

theorem run_hotsetDrop (h : (kvGet s.tbl.hotSets (namedHotSet e)).isSome = true) :
    cmdHotsetDrop.run n e s = (okEnd 0 0, dropHotSet (namedHotSet e) (dropRefreshes (namedHotSet e) (namedHotSet e) s)) := by
  simp only [cmdHotsetDrop, Option.isNone_eq_false_iff.mpr h, Bool.false_eq_true, if_false]

/-- The range that a REPLICA_SET adds: its rows are not loaded yet (R181, R206). -/
def newReplica (e : Entry) (s : State) : Replica :=
  ⟨BitVec.ofNat 20 (namedTable e), repFirst e, repCount e, BitVec.ofNat 16 (efld e 28 2) &&& s.ram.tiles,
    BitVec.ofNat 8 (efld e 30 1) &&& s.ram.stackSet, ((List.range (repCount e)).map (fun i => repFirst e + i)).map (fun x => ⟨x, [], 0, true⟩)⟩

/-- The state with a range added. -/
def withReplica (r : Replica) (s : State) : State := modTbl (fun u => { u with replicas := u.replicas ++ [r] }) s

/-- A range whose rows all load is kept with them (R181). -/
theorem replicaOn_loaded {i : Nat} {r : Replica} (hi : findReplica (namedTable e) (repFirst e) (repCount e) s = some i)
    (ht : tableOf (namedTable e) s = some t) (hr : s.tbl.replicas[i]? = some r)
    (hl : loadCopies (cmdClass n s) t r.rows s = ((copies, .loaded), s')) :
    replicaOn n e s = (okEnd 0 0, modTbl (fun u => { u with replicas := u.replicas.set i { r with rows := copies } }) s') := by
  simp only [replicaOn, hi, ht, hr, hl]

/-- A REPLICA_SET whose checks pass adds its range and loads it (R181, R206). -/
theorem run_replicaSet (ht : tableOf (namedTable e) s = some t)
    (ho : ∀ x ∈ (List.range (repCount e)).map (fun i => repFirst e + i), ownsRow (namedTable e) t x s = true)
    (hd : ∀ x ∈ s.tbl.replicas, x.table.toNat = namedTable e → overlaps x.first x.count (repFirst e) (repCount e) = false)
    (hl : replicaLack (namedTable e) (repCount e) (newReplica e s).tiles (newReplica e s).stackSet s = none) :
    cmdReplicaSet.run n e s = replicaOn n e (withReplica (newReplica e s) s) := by
  have disjoint : s.tbl.replicas.any (fun r => r.table.toNat == namedTable e && overlaps r.first r.count (repFirst e) (repCount e)) = false := by
    refine List.any_eq_false.mpr (fun x hx h => ?_)
    simp only [Bool.and_eq_true, beq_iff_eq] at h
    exact Bool.false_ne_true ((hd x hx h.1).symm.trans h.2)
  rw [newReplica] at hl
  simp only [cmdReplicaSet, ht, ownsRow_any ho, disjoint, hl, Bool.or_self, Bool.false_eq_true, if_false]
  rfl

theorem run_replicaDrop {i : Nat} (ht : tableOf (namedTable e) s = some t)
    (hi : findReplica (namedTable e) (repFirst e) (repCount e) s = some i) :
    cmdReplicaDrop.run n e s = (okEnd 0 0, modTbl (fun u => { u with replicas := u.replicas.eraseIdx i }) s) := by
  simp only [cmdReplicaDrop, ht, hi]

end

/-- Settles O37: each command's run is a `run_` lemma, what loads at once is `hotLoadOn_loaded` and `replicaOn_loaded`, and the
`accepted_` lemmas carry it to the row's answer. -/
theorem copyCommands : Obligations.CopyCommands := by
  intro n e s b id h
  refine ⟨fun t ha hr ht hv ho hc hs copies b2 hl => ?_, fun ha hh => ?_, fun ha hh => ?_,
    fun t ha ht ho hd hk i copies b2 hi hri hl => ?_, fun t i ha ht hi => ?_⟩
  · exact accepted_done rfl ha ((run_hotsetLoad hr ht rfl hv ho hc hs).trans (hotLoadOn_loaded (kvGet_kvSet _ _ _) ht hl))
  · exact accepted_schedules rfl ha (run_hotsetRefresh hh)
  · exact accepted_done rfl ha (run_hotsetDrop hh)
  · exact accepted_done rfl ha ((run_replicaSet ht ho hd hk).trans (replicaOn_loaded hi ht hri hl))
  · exact accepted_done rfl ha (run_replicaDrop ht hi)

end Sys2Proof.Machine

namespace Sys2Proof.Machine

open Sys2Proof

/-! ### PREFETCH, ADVISE and DRIVE_UNFENCE (R180, R231–R234) -/

section
variable {n : Fin 64} {e : Entry} {s t : State} {k : Nat}

theorem run_prefetch_marked (hm : Entry.marked e = true) : cmdPrefetch.run n e s = schedule [ownEntry n e 8 0] s := if_pos hm

theorem run_prefetch (hm : Entry.marked e = false) : cmdPrefetch.run n e s = prefetchStart n e s := if_neg (Bool.eq_false_iff.mp hm)

/-- The first piece of the range that does not translate ends PREFETCH (R232). -/
theorem prefetchStart_bad {va st : Nat} (h : rangeBad e s = some (va, st)) : prefetchStart n e s = rangeFault va st s := by
  simp only [prefetchStart, h]

theorem prefetchStart_translates (h : rangeBad e s = none) :
    prefetchStart n e s = prefetchOn n e (2 * (efld e 24 8 / 65536) + 2) s := by
  simp only [prefetchStart, h]

/-- ADVISE with no buffer, on a range that does not translate (R232). -/
theorem run_advise_bad {va st : Nat} (h2 : efld e 8 1 ≠ 2) (h : rangeBad e s = some (va, st)) :
    cmdAdvise.run n e s = rangeFault va st s := by
  simp only [cmdAdvise, if_neg h2, h]

/-- ADVISE with no buffer runs on a range that translates (R234). -/
theorem run_advise (h2 : efld e 8 1 ≠ 2) (h : rangeBad e s = none) : cmdAdvise.run n e s = adviseRun e 0 s := by
  simp only [cmdAdvise, if_neg h2, h]

/-- ADVISE of an accessed-by set reads its buffer first (R147, R234). -/
theorem run_advise_buffer (h2 : efld e 8 1 = 2) (hr : bufferReads e 64 s) (h : rangeBad e s = none) :
    cmdAdvise.run n e s = adviseRun e (BitVec.ofNat 512 (ofBytes (bufferOf e 64 s))) s := by
  simp only [cmdAdvise, if_pos h2, readBuf_served _ hr, h]

/-- HINT 0 sets the preferred tier (R234). -/
theorem adviseRun_tier {mask : BitVec 512} (h : efld e 8 1 = 0) (hk : adviseAll (adviseTier (efld e 9 1) s) (rangeBlocks e s) s = (k, t)) :
    adviseRun e mask s = (okEnd k 0, t) := by
  simp only [adviseRun, h, hk]

/-- HINT 1 sets READ_MOSTLY (R234). -/
theorem adviseRun_readMostly {mask : BitVec 512} (h : efld e 8 1 = 1)
    (hk : adviseAll (fun d => ({ d with readMostly := efld e 9 1 == 1 }, true)) (rangeBlocks e s) s = (k, t)) :
    adviseRun e mask s = (okEnd k 0, t) := by
  simp only [adviseRun, h, hk]

/-- HINT 2 with VALUE 0 takes the blocks out of every accessed-by set (R234). -/
theorem adviseRun_unaccessed {mask : BitVec 512} (h : efld e 8 1 = 2) (hv : efld e 9 1 = 0)
    (hk : adviseAll (fun d => ({ d with abset := 0 }, true)) (rangeBlocks e s) s = (k, t)) :
    adviseRun e mask s = (okEnd k 0, pruneAbsets t) := by
  simp only [adviseRun, h, hv, if_true, hk]

/-- HINT 2 with VALUE 1 gives the blocks the accessed-by set of its mask, here one that is held already (R234). -/
theorem adviseRun_accessed {mask : BitVec 512} {a : Nat × BitVec 512} (h : efld e 8 1 = 2) (hv : efld e 9 1 ≠ 0)
    (ha : s.res.absets.find? (fun x => x.2 == mask) = some a)
    (hk : adviseAll (fun d => ({ d with abset := a.1 }, true)) (rangeBlocks e s) s = (k, t)) :
    adviseRun e mask s = (okEnd k 0, pruneAbsets t) := by
  simp only [adviseRun, h, if_neg hv, ha, hk]

/-- HINT 3 with VALUE 0 unpins the blocks (R234). -/
theorem adviseRun_unpin {mask : BitVec 512} (h : efld e 8 1 = 3) (hv : efld e 9 1 = 0)
    (hk : adviseAll (fun d => ({ d with pin := false }, true)) (rangeBlocks e s) s = (k, t)) :
    adviseRun e mask s = (okEnd k 0, t) := by
  have unpins : ((0 : Nat) == 1) = false := rfl
  simp only [adviseRun, h, hv, unpins, Nat.zero_ne_one, false_and, if_false, hk]

/-- A drive with which the examination finds nothing wrong is initialised and unfenced (R226, R231). -/
theorem run_driveUnfence {r : DriveReport} (hf : r.failed = 0) (ht : r.fitted = true) :
    (cmdDriveUnfence r).run n e s = (okEnd 0 0, unfenceBlocks (Fin.ofNat 4 (efld e 8 1)) (initDrive (Fin.ofNat 4 (efld e 8 1)) r
      (abandonNvme (Fin.ofNat 4 (efld e 8 1)) s))) := by
  simp only [cmdDriveUnfence, reinitDrive_usable hf ht]

end

/-- Settles O38: each command's run is a `run_` lemma, each hint of ADVISE is an `adviseRun_` lemma, and the `accepted_` lemmas carry it to
the row's answer. -/
theorem tierCommands : Obligations.TierCommands := by
  intro n e s b blocks v
  refine ⟨fun ha => ⟨fun hm => ?_, fun hm => ⟨fun va st hb => ?_, fun k t hb hk => ?_⟩⟩, fun ha h2 va st hb => ?_,
    fun ha hb => ⟨fun k t h hk => ?_, fun k t h hk => ?_, fun k t h hv hr hk => ?_, fun k t a h hv hr hf hk => ?_, fun k t h hv hk => ?_⟩,
    fun r ha hf ht => ?_⟩
  · exact accepted_schedules rfl ha (run_prefetch_marked hm)
  · exact accepted_done rfl ha ((run_prefetch hm).trans (prefetchStart_bad hb))
  · exact accepted_done rfl ha ((run_prefetch hm).trans ((prefetchStart_translates hb).trans hk))
  · exact accepted_done rfl ha (run_advise_bad h2 hb)
  · exact accepted_done rfl ha ((run_advise (by omega) hb).trans (adviseRun_tier h hk))
  · exact accepted_done rfl ha ((run_advise (by omega) hb).trans (adviseRun_readMostly h hk))
  · exact accepted_done rfl ha ((run_advise_buffer h hr hb).trans (adviseRun_unaccessed h hv hk))
  · exact accepted_done rfl ha ((run_advise_buffer h hr hb).trans (adviseRun_accessed h hv hf hk))
  · exact accepted_done rfl ha ((run_advise (by omega) hb).trans (adviseRun_unpin h hv hk))
  · exact accepted_done rfl ha (run_driveUnfence hf ht)

end Sys2Proof.Machine

namespace Sys2Proof.Machine

open Sys2Proof

/-! ### Identity, tag, key and firmware commands (R491–R504, R510–R524) -/

section
variable {n : Fin 64} {e : Entry} {s : State}

theorem tagCount_tagCommit (a : Nat) (bs : List Byte) : tagCount a (tagCommit a bs s) = tagCount a s + 1 := by
  simp only [tagCount, tagCommit, modFw, kvGet_kvSet, Option.getD_some]

section
variable (hr : bufferReads e (tagSize (efld e 8 1)) s)
include hr

/-- An area written 100,000 times takes no more (R496). -/
theorem run_tagWrite_worn (hc : 100000 ≤ tagCount (efld e 8 1) s) : cmdTagWrite.run n e s = (failEnd stPolicy 0x0005, s) := by
  simp only [cmdTagWrite, readBuf_served _ hr, if_pos hc]

/-- A write that changes nothing is not counted (R495). -/
theorem run_tagWrite_same (hc : tagCount (efld e 8 1) s < 100000)
    (hb : bufferOf e (tagSize (efld e 8 1)) s = tagArea (efld e 8 1) s) :
    cmdTagWrite.run n e s = (okEnd (tagCount (efld e 8 1) s) 0, s) := by
  simp only [cmdTagWrite, readBuf_served _ hr, if_neg (Nat.not_le.mpr hc), if_pos hb]

theorem run_tagWrite (hc : tagCount (efld e 8 1) s < 100000)
    (hb : bufferOf e (tagSize (efld e 8 1)) s ≠ tagArea (efld e 8 1) s) : cmdTagWrite.run n e s =
      (okEnd (tagCount (efld e 8 1) s + 1) 0, tagCommit (efld e 8 1) (bufferOf e (tagSize (efld e 8 1)) s) s) := by
  simp only [cmdTagWrite, readBuf_served _ hr, if_neg (Nat.not_le.mpr hc), if_neg hb, tagCount_tagCommit]

end

/-- A key that no check of R502 refuses is committed (R503). -/
theorem run_keyUpdate {bad : Bool} (hr : bufferReads e 1024 s) (hk : keyRefusal (bufferOf e 1024 s) s = none) :
    (cmdKeyUpdate bad).run n e s = keyCommit (bufferOf e 1024 s) bad s := by
  simp only [cmdKeyUpdate, readBuf_served _ hr, hk]

/-- The delivery `d` with `bs` appended. -/
def Staging.append (d : Staging) (bs : List Byte) : Staging := { d with bytes := d.bytes ++ bs, next := (d.bytes ++ bs).length }

/-- A chunk within the size, not the last, is sent on and kept (R510, R515). -/
theorem stageStore_more {owner : Nat × Nat} {d : Staging} {off : Nat} {bs : List Byte} (h : (d.bytes ++ bs).length ≤ d.size) :
    stageStore owner d off bs false s = (okEnd (d.bytes ++ bs).length 0, modFw (fun f => { f with staging := some (d.append bs) })
      (sendCut off false d.version (bs.length / 7888 + 1) bs s)) := by
  have fits : ¬(d.size < (d.bytes ++ bs).length ∨ false = true ∧ (d.bytes ++ bs).length ≠ d.size) := by
    rintro (h' | ⟨h', -⟩)
    · exact Nat.not_lt.mpr h h'
    · cases h'
  simp only [stageStore, if_neg fits, Bool.not_false, if_true, Staging.append]

/-- A later chunk continues the mailbox's own delivery where it stands (R192, R510). -/
theorem run_fwStage {d : Staging} (hr : bufferReads e (efld e 12 4) s) (hrec : s.rst.recovery = false) (h0 : efld e 8 4 ≠ 0)
    (hs : s.fw.staging = some d) (hc : d.chain = false) (hn : d.next = efld e 8 4) : cmdFwStage.run n e s =
      stageStore (n.val, Entry.cid e) d (efld e 8 4) (bufferOf e (efld e 12 4) s) (e.getLsbD 128) s := by
  simp only [cmdFwStage, readBuf_served _ hr, stageRun, if_neg h0, hs, hc, hn, bne_self_eq_false, hrec, Bool.or_self, Bool.false_eq_true,
    if_false]

theorem run_fwActivate (hb : (idleBank s).state = 1) (hp : activatePending s = false) (ht : inTrial s = false) :
    cmdFwActivate.run n e s = schedule [ownEntry n e 0x0B 0] s := by
  simp only [cmdFwActivate, hb, hp, ht, ne_eq, not_true_eq_false, Bool.false_eq_true, or_self, if_false]

theorem run_fwStatus (h : hostReach s = true) : cmdFwStatus.run n e s =
    (okEnd (runningVersion s) (stagedVersion s), (drawFree (buffered e (fwStatus s) s)).2) := by
  simp only [cmdFwStatus, writeBuf_reached _ h]

theorem run_fwChainSet (hs : s.fw.staging = none) (ha : s.fw.applying = none) (hp : activatePending s = false) (ht : inTrial s = false) :
    cmdFwChainSet.run n e s =
      (okEnd 0 0, modFw (fun f => { f with chainUp := efld e 8 1, chainMask := BitVec.ofNat 9 (efld e 10 2) }) s) := by
  simp only [cmdFwChainSet, hs, ha, hp, ht, Option.isSome_none, Bool.or_self, Bool.false_eq_true, if_false]

/-- With no activation pending, the schedule has no entry of one (R517). -/
theorem sched_of_no_activation (h : activatePending s = false) : s.gg.sched.filter (fun x => x.2.kind == 0x0B) = []
    ∧ s.gg.sched.filter (fun x => x.2.kind != 0x0B) = s.gg.sched := by
  have other := List.any_eq_false.mp h
  exact ⟨List.filter_eq_nil_iff.mpr other, List.filter_eq_self.mpr (fun x hx => by simpa using other x hx)⟩

/-- FW_DISCARD with no trial, apply or activation empties staging and the inactive bank (R522). -/
theorem run_fwDiscard (ht : inTrial s = false) (ha : s.fw.applying = none) (hp : activatePending s = false) :
    cmdFwDiscard.run n e s =
      (okEnd 0 0, modBank (otherBank s.fw.running) (fun _ => blankBank) (modFw (fun f => { f with staging := none }) s)) := by
  obtain ⟨none_pending, kept⟩ := sched_of_no_activation hp
  simp only [cmdFwDiscard, ht, ha, none_pending, kept, List.foldl_nil, Bool.false_eq_true, if_false]
  rfl

end

/-- Settles O44: each command's run is a `run_` lemma or plain, and the `accepted_` lemmas carry it to the row's answer. -/
theorem firmwareCommands : Obligations.FirmwareCommands := by
  intro n e s b a
  refine ⟨fun ha => ?_, fun ha => ?_, fun ha hr => ⟨fun hc => ?_, fun hc hb => ?_, fun hc hb => ?_⟩, fun ha hr hk => ?_, fun ha => ?_,
    fun d ha hr hrec h0 hs hc hn hlast hsize => ?_, fun ha hb hp ht _ => ?_, fun ha => ?_, fun ha hs happ hp ht => ?_,
    fun ha ht happ hp => ?_⟩
  · exact accepted_done rfl ha (congrArg (Prod.mk _) (writeBuf_accepted ha _))
  · exact accepted_done rfl ha (congrArg (Prod.mk _) (writeBuf_accepted ha _))
  · exact accepted_fail rfl ha (run_tagWrite_worn hr hc)
  · exact accepted_done rfl ha (run_tagWrite_same hr hc hb)
  · exact accepted_done rfl ha (run_tagWrite hr hc hb)
  · exact accepted_done rfl ha (run_keyUpdate hr hk)
  · exact accepted_done rfl ha rfl
  · refine accepted_done rfl ha ((run_fwStage hr hrec h0 hs hc hn).trans ?_)
    rw [hlast]
    exact stageStore_more hsize
  · exact accepted_schedules rfl ha (run_fwActivate hb hp ht)
  · exact accepted_done rfl ha (run_fwStatus ha.reach)
  · exact accepted_done rfl ha (run_fwChainSet hs happ hp ht)
  · exact accepted_done rfl ha (run_fwDiscard ht happ hp)

end Sys2Proof.Machine

namespace Sys2Proof.Machine

open Sys2Proof

/-! ### Walks, fills, write-backs, drives and scrubbing (R217–R276) -/

section
variable {s : State}

/-! #### Walks, streams, the fault ring and acknowledgements (R243–R255) -/

/-- The entry at `ea` was walked to its end, so that its next fault is a first one (R248). -/
def leafReached (tag ea : Nat) (s : State) : State :=
  modTx (fun x => { x with replayed := x.replayed.filter (fun r => !(r.1 == tag && r.2 == ea)) }) s

/-- The page of `va` in a leaf of level `level`. -/
def leafPage (va level : Nat) : Nat := va / 2 ^ pageLog level * 2 ^ pageLog level

/-- The cache holds the page for this generation of the space. -/
def leafCached (tag : Nat) (sp : AddrSpace) (page : Nat) (s : State) : Bool :=
  s.tx.cache.any (fun c => c.tag == tag && c.gen == sp.gen && c.page == page)

theorem cacheLeaf_cached {tag va level ea e : Nat} {sp : AddrSpace} (space : kvGet s.tx.spaces tag = some sp)
    (leaf : lookup tag va s = some (.leaf level ea e)) (cached : leafCached tag sp (leafPage va level) s = true) :
    cacheLeaf tag va s = leafReached tag ea s := by
  simp only [cacheLeaf, space, leaf]
  exact if_pos cached

theorem cacheLeaf_new {tag va level ea e : Nat} {sp : AddrSpace} (space : kvGet s.tx.spaces tag = some sp)
    (leaf : lookup tag va s = some (.leaf level ea e)) (uncached : leafCached tag sp (leafPage va level) s = false) :
    cacheLeaf tag va s = modTx (fun x => { x with
      cache := (⟨tag, sp.gen, leafPage va level, pageLog level, BitVec.ofNat 64 e⟩ :: x.cache).take 65536 }) (leafReached tag ea s) := by
  simp only [cacheLeaf, space, leaf]
  exact if_neg (Bool.eq_false_iff.mp uncached)

/-- A walk that does not end at a leaf caches nothing (R243). -/
theorem cacheLeaf_noLeaf {tag va : Nat} (noLeaf : ∀ level ea e, lookup tag va s ≠ some (.leaf level ea e)) : cacheLeaf tag va s = s := by
  rw [cacheLeaf]
  split
  next leaf => exact absurd leaf (noLeaf _ _ _)
  · rfl

theorem walkComplete_engines (works : engines s = true) (tag : BitVec 12) (va : BitVec 52) :
    walkComplete tag va s = cacheLeaf tag.toNat va.toNat s := if_pos works

theorem streamPrewalk_walks {tile : Fin 16} {purl : Bool} {k page : Nat} {x : Stream}
    (stream : (s.tx.streams.filter (fun x => x.tile == tile && x.purl == purl))[k]? = some x) (ahead : x.next = some page) :
    streamPrewalk tile purl k s =
      modTx (fun u => { u with streams := modFirst (fun y => y == x) (fun y => { y with walked := page + 2 ^ 21 }) u.streams })
        (cacheLeaf x.tag page s) := by
  simp only [streamPrewalk, stream, ahead, modTx]

theorem hostWrite_reach (reach : hostReach s = true) (a : Nat) (bs : List Byte) :
    hostWrite a bs s = { s with host := cellsWrite s.host a bs } := if_pos reach

/-- With the ring set and a slot released, the oldest record not written yet goes to the ring's tail (R249). -/
theorem faultRecordWrite_writes {f : FaultRec} (oldest : s.tx.faults.find? (fun f => !f.written) = some f) (ring : s.tx.ringSet = true)
    (room : s.tx.frCount < 4096) (reach : hostReach s = true) : faultRecordWrite s =
      raise 64 { s with
        host := cellsWrite s.host (s.tx.ringBase.toNat + 64 * s.tx.frTail) (f.bytes s.tx.frPhase)
        tx := { s.tx with
          frTail := (s.tx.frTail + 1) % 4096, frCount := s.tx.frCount + 1
          frPhase := if (s.tx.frTail + 1) % 4096 = 0 then !s.tx.frPhase else s.tx.frPhase
          frAge := if s.tx.faults.any (fun y => y.written) then s.tx.frAge else 0
          faults := modFirst (fun y => y.id == f.id) (fun y => { y with written := true }) s.tx.faults } } := by
  simp only [faultRecordWrite, oldest, ring, hostWrite_reach reach, decide_eq_false (Nat.not_le.mpr room), Bool.not_true, Bool.or_self,
    Bool.false_eq_true, if_false]

theorem faultWatchdog_raises (outstanding : ∃ f ∈ s.tx.faults, f.written = true) :
    faultWatchdog s = raise 65 (modTx (fun x => { x with frAge := x.frAge + 1000 }) s) :=
  if_pos (List.any_eq_true.mpr outstanding)

theorem faultWatchdog_idle (none_written : ∀ f ∈ s.tx.faults, f.written = false) : faultWatchdog s = s :=
  if_neg (Bool.eq_false_iff.mp (List.any_eq_false.mpr fun f hf => Bool.eq_false_iff.mp (none_written f hf)))

/-- `x` with the acknowledgement of engine `k` in. -/
def Inval.acked (x : Inval) (k : Fin 58) : Inval := { x with waiting := x.waiting &&& ~~~ (BitVec.twoPow 58 k.val) }

/-- The acknowledgement of engine `k` counts for the `i`-th invalidation (R253). -/
def ackCounted (i : Nat) (k : Fin 58) (x : Inval) (s : State) : State :=
  modTx (fun t => { t with invals := t.invals.set i (x.acked k), ackReceived := t.ackReceived + 1 }) s

theorem invalAck_expected {i : Nat} {k : Fin 58} {x : Inval} (running : s.tx.invals[i]? = some x) (expected : x.waiting.getLsbD k.val = true) :
    invalAck i k s = if (x.acked k).waiting = 0 then invalProgress (rereadPool x.tag x.base (x.base + x.len) (ackCounted i k x s)) (x.acked k)
      else ackCounted i k x s := by
  simp only [invalAck, running, expected, Bool.not_true, Bool.false_eq_true, if_false]
  rfl

/-! #### Fills and write-backs (R217, R222) -/

theorem faultInEnd_failed {id b st : Nat} {x : FaultIn} {d : DirEntry} (fill : faultInOf id b s = some x) (block : blockDir id b s = some d)
    (failed : x.failed = some st) : faultInEnd id b s = faultInFail id b st s := by
  simp only [faultInEnd, fill, block, failed]

/-- Nothing holds a transfer back whose tier is host memory in reach or a drive that has answered. -/
theorem tier_answers {tier : Nat} {reach busy : Bool} (host : tier = 2 → reach = true) (drive : tier = 3 → busy = false) :
    ¬(tier = 2 ∧ (!reach) = true ∨ tier = 3 ∧ busy = true) := by
  rintro (⟨t2, away⟩ | ⟨t3, waits⟩)
  · rw [host t2] at away; cases away
  · rw [drive t3] at waits; cases waits

/-- The block is in frame `f` with its home's bytes: resident, and dirty where it never had a home (R217). -/
def blockFilled (id b f : Nat) (bs : List Byte) (d : DirEntry) (s : State) : State :=
  blockMod id b (fun d => { d with loc := 1, ref := true, busy := false, dirty := d.dirty || d.loc == 0, frame := f }) (t1Fill f bs d.version s)

/-- A fill whose home answers puts the block in its frame and releases its waiters (R217). -/
theorem faultInEnd_fills {id b f : Nat} {x : FaultIn} {d : DirEntry} {bs : List Byte} (fill : faultInOf id b s = some x)
    (block : blockDir id b s = some d) (good : x.failed = none) (frame : x.frame = some f) (host : d.loc = 2 → t2Reach d.t2cxl s = true)
    (drive : d.loc = 3 → nvmeBusy d.t3port (.read id b) s = false) (home : homeBytes d s = some bs) : faultInEnd id b s =
      releaseStalls (.block id b) .none (modRes (fun r => { r with faultIns := r.faultIns.filter (fun x => !(x.table == id && x.blk == b)) })
        (blockFilled id b f bs d s)) := by
  simp only [faultInEnd, fill, block, good, frame, if_neg (tier_answers host drive), home, blockFilled]

/-- A write-back to the block's own home, whose target has taken the data, is journaled DONE and cleans the entry (R222). -/
theorem wbEnd_home {id b : Nat} {w : WriteBack} {d : DirEntry}
    (found : s.res.writeBacks.find? (fun w => w.table == id && w.blk == b) = some w) (block : blockDir id b s = some d)
    (stays : w.evict = false) (home : d.home = w.tier) (host : w.tier = 2 → t2Reach d.t2cxl s = true)
    (drive : w.tier = 3 → nvmeBusy d.t3port (.write id b) s = false) : wbEnd id b s =
      blockMod id b (fun d => { d with home := w.tier, dirty := false, busy := false, xfer := false, noHome := false })
        (wbDrop id b (wbJournal 2 w.tier id b (wbTarget d w.tier) (wbData d w.tier (t1Read (d.frame * 65536) 65536 s) s))) := by
  have unmoved : decide (d.home = 3 ∧ w.tier ≠ 3) = false := decide_eq_false fun ⟨h, other⟩ => other (home ▸ h)
  simp only [wbEnd, found, block, if_neg (tier_answers host drive), unmoved, stays, Bool.false_eq_true, if_false]

end

/-! #### Drives (R222, R229, R230) -/

section
variable {p : Fin 4} {id : Nat} {s : State}

/-- A drive fault is counted and logged (R229). -/
def faultCounted (p : Fin 4) (kind id : Nat) (s : State) : State :=
  logErr .partner 0x41 .nvmePort p.val kind id (modDrive p (fun d => { d with faults := d.faults + 1 }) s)

theorem modDrive_drive (f : Drive → Drive) : (modDrive p f s).res.drives[p] = f s.res.drives[p] := vmod_self _ p f

theorem faults_faultCounted (kind : Nat) : ((faultCounted p kind id s).res.drives[p]).faults = (s.res.drives[p]).faults + 1 := by
  rw [faultCounted, logErr_res, modDrive_drive]

theorem driveFault_few (few : (s.res.drives[p]).faults + 1 < 16) (kind : Nat) : driveFault p kind id s = faultCounted p kind id s :=
  if_neg (Nat.not_le_of_lt (Nat.lt_of_le_of_lt (Nat.le_of_eq (faults_faultCounted kind)) few))

/-- The 16th fault fences the drive (R229). -/
theorem driveFault_sixteenth (many : 16 ≤ (s.res.drives[p]).faults + 1) (kind : Nat) :
    driveFault p kind id s = fenceDrive p (faultCounted p kind id s) :=
  if_pos (Nat.le_trans many (Nat.le_of_eq (faults_faultCounted kind).symm))

theorem deallocComplete_found {t b lba : Nat} {c : NvmeCmd} (found : (s.res.drives[p]).cmds.find? (fun c => c.use == .dealloc t b lba) = some c) :
    deallocComplete p t b lba s = deallocDone p t b lba (nvmeRemove p c.id s) := by
  simp only [deallocComplete, found]

theorem faults_modDrive {f : Drive → Drive} (kept : ∀ d, (f d).faults = d.faults) :
    ((modDrive p f s).res.drives[p]).faults = (s.res.drives[p]).faults := by
  rw [modDrive_drive, kept]

/-- An Abort of the command `id` is sent (R229). -/
def abortSent (p : Fin 4) (id : Nat) (s : State) : State :=
  emit (.nvmeAbort p id)
    (modDrive p (fun d => { d with cmds := modFirst (fun c => c.id == id) (fun c => { c with aborted := true }) d.cmds }) s)

theorem faults_abortSent : ((abortSent p id s).res.drives[p]).faults = (s.res.drives[p]).faults := faults_modDrive (s := s) fun _ => rfl

theorem faults_nvmeRemove : ((nvmeRemove p id s).res.drives[p]).faults = (s.res.drives[p]).faults := faults_modDrive fun _ => rfl

section
variable (usable : (s.res.drives[p]).usable = true)
include usable

theorem nvmeComplete_badHead (ok : Bool) : nvmeComplete p id false ok s = driveFault p 2 id s := by
  simp only [nvmeComplete, usable, Bool.not_true, Bool.not_false, Bool.false_eq_true, if_false, if_true]

theorem nvmeComplete_unmatched (unknown : ∀ c ∈ (s.res.drives[p]).cmds, c.id ≠ id) (ok : Bool) :
    nvmeComplete p id true ok s = driveFault p 1 id s := by
  have none_found : (s.res.drives[p]).cmds.find? (fun c => c.id == id) = none :=
    List.find?_eq_none.mpr fun c hc => by simpa only [beq_iff_eq] using unknown c hc
  simp only [nvmeComplete, usable, none_found, Bool.not_true, Bool.false_eq_true, if_false]

section
variable {c : NvmeCmd} (found : (s.res.drives[p]).cmds.find? (fun c => c.id == id) = some c)
include found

/-- The successful end of a transfer only ends its command. -/
theorem nvmeComplete_transfer {t b : Nat} (use : c.use = .read t b ∨ c.use = .write t b) :
    nvmeComplete p id true true s = nvmeRemove p id s := by
  rcases use with use | use <;>
    simp only [nvmeComplete, usable, found, use, Bool.not_true, Bool.false_eq_true, if_false]

theorem nvmeComplete_stepRecord {n : Nat} (use : c.use = .stepRecord n) : nvmeComplete p id true true s =
    { nvmeRemove p id s with stp := { (nvmeRemove p id s).stp with durable := max s.stp.durable n } } := by
  simp only [nvmeComplete, usable, found, use, Bool.not_true, Bool.false_eq_true, if_false]
  rfl

theorem nvmeComplete_readFailed {t b : Nat} (use : c.use = .read t b) :
    nvmeComplete p id true false s = driveFault p 5 id (nvmeFailed (.read t b) 0x22 (nvmeRemove p id s)) := by
  simp only [nvmeComplete, usable, found, use, Bool.not_true, Bool.false_eq_true, if_false]

end

theorem nvmeTimeout_aborts (outstanding : ∃ c ∈ (s.res.drives[p]).cmds, c.id = id ∧ c.aborted = false) :
    nvmeTimeout p id s = driveFault p 3 id (abortSent p id s) := by
  obtain ⟨c, hc, named, running⟩ := outstanding
  have late : (s.res.drives[p]).cmds.any (fun c => c.id == id && !c.aborted) = true :=
    List.any_eq_true.mpr ⟨c, hc, by simp only [named, running, beq_self_eq_true, Bool.not_false, Bool.and_self]⟩
  simp only [nvmeTimeout, usable, late, Bool.and_self, if_true, abortSent]

theorem controllerFatal_usable : controllerFatal p s = fenceDrive p s := if_pos usable
theorem nvmeLinkDown_usable : nvmeLinkDown p s = fenceDrive p s := if_pos usable

end

theorem controllerFatal_unusable (unusable : (s.res.drives[p]).usable = false) : controllerFatal p s = s := if_neg (Bool.eq_false_iff.mp unusable)
theorem nvmeLinkDown_unusable (unusable : (s.res.drives[p]).usable = false) : nvmeLinkDown p s = s := if_neg (Bool.eq_false_iff.mp unusable)

/-- A step record whose Abort has timed out too is abandoned, and counts again (R229). -/
theorem nvmeAbortTimeout_stepRecord {n : Nat}
    (found : (s.res.drives[p]).cmds.find? (fun c => c.id == id && c.aborted) = some ⟨id, .stepRecord n, true⟩) :
    nvmeAbortTimeout p id s = driveFault p 3 id (nvmeRemove p id s) := by
  simp only [nvmeAbortTimeout, found, nvmeFailed]

theorem homedOn_noTables (tables : s.tbl.tables = []) : homedOn p s = [] := by
  rw [homedOn, tables, List.flatMap_nil]

/-- The fencing of a drive that has no command and no block only takes it out of use (R230). -/
theorem fenceDrive_idle (unfenced : (s.res.drives[p]).fenced = false) (idle : (s.res.drives[p]).cmds = []) (fills : s.res.faultIns = [])
    (tables : s.tbl.tables = []) : fenceDrive p s =
      (let u := modDrive p (fun d => { d with fenced := true, usable := false, cmds := [] }) s
      logErr .contained 0x42 .nvmePort p.val (s.res.drives[p]).faults 0 { u with rst := { u.rst with degraded := true } }) := by
  have no_fills (f : Drive → Drive) : (modDrive p f s).res.faultIns = [] := fills
  simp only [fenceDrive, unfenced, idle, Bool.false_eq_true, if_false, List.foldl_nil, logErr_res, no_fills, List.filter_nil]
  rw [homedOn_noTables (by rw [logErr_tbl]; exact tables), List.foldl_nil]

end

/-! #### Scrubbing and repair (R265, R275, R276) -/

section
variable {k : Fin 8} {s : State}

/-- The sector that stack `k` scrubs next. -/
def scrubSector (k : Fin 8) (s : State) : Nat := stackBase k.val + (s.ram.stack[k]).position

/-- The stack's counts after one more sector: a pass ends at the top of the stack (R275). -/
def scrubMoved (u : StackUnit) : StackUnit :=
  if 2 ^ 36 ≤ u.position + 32 then { u with scrubbed := u.scrubbed + 32, position := 0, passes := u.passes + 1, late := false }
  else { u with scrubbed := u.scrubbed + 32, position := u.position + 32 }

/-- At the end of a pass the on-die count is read, a free value (R260). -/
theorem scrubNext_eq : scrubNext k s =
    if 2 ^ 36 ≤ (s.ram.stack[k]).position + 32 then
      { s with freeCtr := s.freeCtr + 1
               ram := { s.ram with stack := vmod s.ram.stack k (fun _ => { scrubMoved s.ram.stack[k] with
                 ondie := satAdd (s.ram.stack[k]).ondie ((Config.freeValue s.freeCtr).toNat % 65536) }) } }
    else { s with ram := { s.ram with stack := vmod s.ram.stack k (fun _ => scrubMoved s.ram.stack[k]) } } := by
  by_cases top : 2 ^ 36 ≤ (s.ram.stack[k]).position + 32
  · simp only [scrubNext, scrubMoved, if_pos top]; rfl
  · simp only [scrubNext, scrubMoved, if_neg top]; rfl

theorem poisoned_scrubNext (sec : Nat) : poisoned sec (scrubNext k s) = poisoned sec s := by
  rw [scrubNext_eq]; split <;> rfl

/-- The read of a sector that is neither being filled nor poisoned does what its decoding asks, and the Scrubber goes on (R276). -/
theorem scrubRead_reads {ecc : Ecc} (may : mayScrub k s = true)
    (unfilled : s.res.faultIns.any (fun x => x.frame == some (frameOf (scrubSector k s))) = false)
    (whole : poisoned (scrubSector k s) s = false) (lossless : ecc = .clean ∨ reserved (scrubSector k s) = false) :
    scrubRead k ecc s = eccRead (scrubSector k s) ecc (scrubNext k s) := by
  have kept : (poisoned (scrubSector k s) (eccRead (scrubSector k s) ecc (scrubNext k s)) && reserved (scrubSector k s)) = false := by
    rcases lossless with rfl | outside
    · rw [eccRead, poisoned_scrubNext, whole, Bool.false_and]
    · rw [outside, Bool.and_false]
  simp only [scrubSector] at unfilled whole kept ⊢
  simp only [scrubRead, may, unfilled, whole, kept, Bool.not_true, Bool.false_eq_true, if_false]

/-- A repair whose source has given the sector's bytes rewrites it clean (R265). -/
theorem repairEnd_rewrites {sec : Nat} {r : Repair} {bs : List Byte} (found : s.ram.repairs.find? (fun r => r.sector == sec) = some r)
    (ended : repairReading r s = false) (good : r.failed = false) (source : repairBytes sec r.source s = some bs) :
    repairEnd sec true s =
      releaseStalls (.repair sec) .none (logErr .corrected 0x32 .data (cellOf sec) r.source sec
        (modStack (stackOf sec) (fun x => { x with repaired := satInc x.repaired })
          (clearPoison [sec] (setSectorVersions [sec] (frameVersion (frameOf sec) s) (t1Put sec bs s))))) := by
  simp only [repairEnd, found, ended, good, source, Bool.not_false, Bool.and_self, Bool.false_eq_true, if_false, if_true]
  rfl

/-- A fold whose every step keeps its start ends there. -/
theorem foldl_fixed {α β : Type} {f : α → β → α} {a : α} (fixed : ∀ b, f a b = a) (l : List β) : l.foldl f a = a := by
  induction l with
  | nil => rfl
  | cons b l ih => rw [List.foldl_cons, fixed, ih]

/-- A one-shot slot, and a periodic one whose stacks met their quota, ends with no stack late (R275). -/
theorem scrubSlotEnd_onTime {x : ScrubSlot} (slot : s.ram.slot = some x) (active : x.active = true)
    (met : x.periodic = true → ∀ k : Fin 8, x.quota ≤ (s.ram.stack[k]).scrubbed) : scrubSlotEnd s =
      { s with ram := { s.ram with slot := if x.periodic then some { x with active := false } else none } } := by
  have nobody_late (k : Fin 8) :
      ¬(x.periodic = true ∧ stackUsable k.val s = true ∧ (s.ram.stack[k]).scrubbed < x.quota ∧ (!(s.ram.stack[k]).late) = true) :=
    fun ⟨periodic, _, short, _⟩ => Nat.not_lt.mpr (met periodic k) short
  simp only [scrubSlotEnd, slot, active, Bool.not_true, Bool.false_eq_true, if_false]
  rw [foldl_fixed fun k => if_neg (nobody_late k)]

end

/-- Settles O58: each row runs its function of the model (`answers_act`), and what the function does under the clause's premises is a lemma
above. -/
theorem tiersAndScrubbing : Obligations.TiersAndScrubbing := by
  refine ⟨fun s ha => ?residency, fun p s ha => ?drives, fun s ha => ?scrubbing⟩
  case residency =>
    refine ⟨fun tag va works => ⟨fun sp level ea e space leaf => ⟨fun cached => ?_, fun uncached => ?_⟩, fun noLeaf => ?_⟩,
      fun tile purl k x page stream ahead => ?_, fun f oldest ring room reach => ?_, fun outstanding => ?_, fun idle => ?_,
      fun i k x running expected => ⟨fun more => ?_, fun last => ?_⟩,
      fun id b x d fill block => ⟨fun st failed => ?_, fun f bs good frame host drive home => ?_⟩,
      fun id b w d found block stays home host drive => ?_, fun link => ?_⟩
    · exact answers_act rfl ha ((walkComplete_engines works tag va).trans (cacheLeaf_cached space leaf cached))
    · exact answers_act rfl ha ((walkComplete_engines works tag va).trans (cacheLeaf_new space leaf uncached))
    · exact answers_act rfl ha ((walkComplete_engines works tag va).trans (cacheLeaf_noLeaf noLeaf))
    · exact answers_act rfl ha (streamPrewalk_walks stream ahead)
    · exact answers_act rfl ha (faultRecordWrite_writes oldest ring room reach)
    · exact answers_act rfl ha (faultWatchdog_raises outstanding)
    · exact answers_act rfl ha (faultWatchdog_idle idle)
    · exact answers_act rfl ha ((invalAck_expected running expected).trans (if_neg more))
    · exact answers_act rfl ha ((invalAck_expected running expected).trans (if_pos last))
    · exact answers_act rfl ha (faultInEnd_failed fill block failed)
    · exact answers_act rfl ha (faultInEnd_fills fill block good frame host drive home)
    · exact answers_act rfl ha (wbEnd_home found block stays home host drive)
    · exact answers_act rfl ha rfl
  case drives =>
    refine ⟨fun t b lba c found => ?_,
      fun usable => ⟨fun id ok few => ?_, fun id ok many => ?_, fun id ok few unknown => ?_,
        fun id c found => ⟨fun t b use => ?_, fun n use => ?_, fun t b few use same => ?_⟩, fun id few outstanding => ?_, ?_, ?_⟩,
      fun unusable => ⟨?_, ?_⟩, fun id n few found => ?_, fun unfenced idle fills tables => ?_⟩
    · exact answers_act rfl ha (deallocComplete_found found)
    · exact answers_act rfl ha ((nvmeComplete_badHead usable ok).trans (driveFault_few few 2))
    · exact answers_act rfl ha ((nvmeComplete_badHead usable ok).trans (driveFault_sixteenth many 2))
    · exact answers_act rfl ha ((nvmeComplete_unmatched usable unknown ok).trans (driveFault_few few 1))
    · exact answers_act rfl ha (nvmeComplete_transfer usable found use)
    · exact answers_act rfl ha (nvmeComplete_stepRecord usable found use)
    · exact answers_act rfl ha ((nvmeComplete_readFailed usable found use).trans (driveFault_few (same ▸ few) 5))
    · exact answers_act rfl ha ((nvmeTimeout_aborts usable outstanding).trans (driveFault_few (by rwa [faults_abortSent]) 3))
    · exact answers_act rfl ha (controllerFatal_usable usable)
    · exact answers_act rfl ha (nvmeLinkDown_usable usable)
    · exact answers_act rfl ha (controllerFatal_unusable unusable)
    · exact answers_act rfl ha (nvmeLinkDown_unusable unusable)
    · exact answers_act rfl ha ((nvmeAbortTimeout_stepRecord found).trans (driveFault_few (by rwa [faults_nvmeRemove]) 3))
    · exact fenceDrive_idle unfenced idle fills tables
  case scrubbing =>
    refine ⟨fun k may unfilled whole => ⟨?_, fun outside => ⟨?_, ?_⟩⟩, fun sec r bs found ended good source => ?_,
      fun x slot active once => ?_, fun x slot active periodic met => ?_⟩
    · exact answers_act rfl ha ((scrubRead_reads may unfilled whole (.inl rfl)).trans scrubNext_eq)
    · exact answers_act rfl ha ((scrubRead_reads may unfilled whole (.inr outside)).trans (congrArg (correctedError _) scrubNext_eq))
    · exact answers_act rfl ha ((scrubRead_reads may unfilled whole (.inr outside)).trans (congrArg (uncorrectableSector _) scrubNext_eq))
    · exact answers_act rfl ha (repairEnd_rewrites found ended good source)
    · exact answers_act rfl ha ((scrubSlotEnd_onTime slot active (fun h => absurd h (Bool.eq_false_iff.mp once))).trans (by rw [once]; rfl))
    · exact answers_act rfl ha ((scrubSlotEnd_onTime slot active (fun _ => met)).trans (by rw [periodic]; rfl))

end Sys2Proof.Machine

namespace Sys2Proof.Machine

open Sys2Proof

/-! ### The steps of an instruction (R287, R298) -/

section
variable {key : Nat} {i : PInstr} {t t1 t2 t3 t4 : Thread} {s s1 s2 s3 s4 : State}

/-- A step that answers is followed by the next one. -/
theorem TStep.andThen_ok {α β : Type} {x : TStep α} {a : α} {f : α → Thread → State → TStep β} {y : TStep β} (ok : x = .ok a t s)
    (next : f a t s = y) : x.andThen f = y := by
  rw [ok]; exact next

/-- An instruction whose steps all answer is done, without a taken branch. -/
theorem TStep.finish_ok {x : TStep Unit} (ok : x = .ok () t s) : x.finish = .done t none s := by
  rw [ok]; rfl

theorem need_met {n : Nat} (deep : n ≤ t.sd) : need n t s = .ok () t s := if_neg (Nat.not_lt.mpr deep)

theorem countUp_room {k : Fin 4} (room : (t.cc[k]).out < 255) :
    countUp key k t s = .ok () { t with cc := vmod t.cc k (fun c => { c with out := c.out + 1 }) } s :=
  if_neg (Nat.not_le.mpr room)

@[simp] theorem iterating_cc (u : PUnit) (left : Nat) (t : Thread) : (iterating u left t).cc = t.cc := by
  simp only [iterating]; split <;> rfl

/-- Two changes of a context that agree on the context it holds are one. -/
theorem modThread_congr {f g : Thread → Thread} (held : threadAt key s = some t) (agree : f t = g t) : modThread key f s = modThread key g s := by
  rw [threadAt] at held
  simp only [modThread, kvMod, held, agree]

/-! ### Loads, stores, atomics and block copies (R334–R336) -/

theorem opLd_done {ecc : Ecc} {o : Nat} {bs : List Byte} (deep : baseWords i ≤ t.sd) (offset : accessOff key i t s = .ok o t1 s1)
    (read : threadRead key (immSeg i.imm) o (2 ^ (i.sub % 4)) ecc t1 s1 = .ok bs t2 s2)
    (pushed : pushLoaded key (loadValue i bs) t2 s2 = .ok () t3 s3) : opLd ecc key i t s = .done t3 none s3 :=
  TStep.finish_ok (TStep.andThen_ok (need_met deep) (TStep.andThen_ok offset (TStep.andThen_ok read pushed)))

theorem opSt_done {o : Nat} {v : W64} (deep : baseWords i + 1 ≤ t.sd) (offset : accessOff key i t s = .ok o t1 s1)
    (value : pop key t1 s1 = .ok v t2 s2)
    (stored : threadStore key (immSeg i.imm) o (toBytes (2 ^ (i.sub % 4)) v.toNat) t2 s2 = .ok () t3 s3) :
    opSt key i t s = .done t3 none s3 :=
  TStep.finish_ok (TStep.andThen_ok (need_met deep) (TStep.andThen_ok offset (TStep.andThen_ok value stored)))

/-- An AADD whose memory half is done goes on with what it returns (R335). -/
theorem opAadd_added {o : Nat} {v : W64} {old : List Byte} (deep : baseWords i + 1 ≤ t.sd) (offset : accessOff key i t s = .ok o t1 s1)
    (value : pop key t1 s1 = .ok v t2 s2)
    (read : atomicRead key (immSeg i.imm) o (2 ^ (i.sub % 4)) (i.sub.testBit 2) t2 s2 = .ok old t3 s3)
    (written : atomicWrite key (immSeg i.imm) o (toBytes (2 ^ (i.sub % 4)) (ofBytes old + v.toNat)) t3 s3 = .ok () t4 s4) :
    opAadd key i t s =
      (if i.sub.testBit 2 then pushLoaded key (BitVec.ofNat 64 (ofBytes old)) t4 s4 else .ok () t4 s4).finish :=
  congrArg TStep.finish (TStep.andThen_ok (need_met deep) (TStep.andThen_ok offset (TStep.andThen_ok value (TStep.andThen_ok read
    (TStep.andThen_ok written rfl)))))

/-- A BCOPY with room on its counter puts its copy under way (R336). -/
theorem opBcopy_done {l d o : W64} (deep : 3 ≤ t.sd) (len : pop key t s = .ok l t1 s1) (dst : pop key t1 s1 = .ok d t2 s2)
    (src : pop key t2 s2 = .ok o t3 s3) (room : (t3.cc[(Fin.ofNat 4 i.sub : Fin 4)]).out < 255) :
    opBcopy key i t s = .done { t3 with cc := vmod t3.cc (Fin.ofNat 4 i.sub) (fun c => { c with out := c.out + 1 }) } none
      { s3 with th := { s3.th with copies := s3.th.copies ++
        [⟨key, Fin.ofNat 4 i.sub, Fin.ofNat 8 (i.imm % 8), Fin.ofNat 8 (i.imm / 8 % 8), o, d, l, 0, .none⟩] } } := by
  have srcField : bits i.imm 0 3 = i.imm % 8 := bits_zero _ _
  have dstField : bits i.imm 3 3 = i.imm / 8 % 8 := bits_div _ _ _
  rw [← srcField, ← dstField]
  exact TStep.finish_ok (TStep.andThen_ok (need_met deep) (TStep.andThen_ok len (TStep.andThen_ok dst (TStep.andThen_ok src
    (TStep.andThen_ok (countUp_room room) rfl)))))

end

/-- Settles O18: each instruction's meaning is done under its clause's premises, and `retires_of` carries it to the row's answer. -/
theorem pyratMemory : Obligations.PyratMemory := by
  intro tile ctx s t u left key t0 i n
  have depth : t0.sd = t.sd := iterating_sd u left t
  refine ⟨fun ecc o bs t1 s1 t2 s2 t3 s3 runs deep offset read pushed => ?_,
    fun o v t1 s1 t2 s2 t3 s3 runs deep offset value stored => ?_,
    fun o v old t1 s1 t2 s2 t3 s3 t4 s4 runs plain deep offset value read written => ?_,
    fun o v old t1 s1 t2 s2 t3 s3 t4 s4 t5 s5 runs returns deep offset value read written pushed => ?_,
    fun l d o t1 s1 t2 s2 t3 s3 runs deep len dst src room => ?_⟩
  all_goals rw [← depth] at deep
  all_goals refine retires_of (fun _ => rfl) runs ?_
  · exact opLd_done deep offset read pushed
  · exact opSt_done deep offset value stored
  · rw [← plain] at read
    exact (opAadd_added deep offset value read written).trans (by rw [if_neg (Bool.eq_false_iff.mp plain)]; rfl)
  · rw [← returns] at read
    exact (opAadd_added deep offset value read written).trans (by rw [if_pos returns, pushed]; rfl)
  · exact opBcopy_done deep len dst src room

end Sys2Proof.Machine

namespace Sys2Proof.Machine

open Sys2Proof

/-! ### Waits and fences (R288, R291, R341) -/

section
variable {c : Instr} {op : POp} {key left : Nat} {i : PInstr} {u : PUnit} {t t1 : Thread} {s s1 : State}

/-- The context that has taken the status of counter `k`: XI and XF are a latched operation's, and the latch is clear (R288). -/
def Thread.taken (t : Thread) (k : Fin 4) (c : Counter) : Thread :=
  { t with cc := vmod t.cc k (fun c => { c with latch := none, more := false })
           xi := (c.latch.map (·.xi)).getD t.xi
           xf := (c.latch.map (·.xf)).getD t.xf }

theorem waitcTake_pushed {k : Fin 4} (pushed : push key (t.cc[k]).word t s = .ok () t1 s1) :
    waitcTake key k t s = .ok () (t1.taken k t.cc[k]) s1 := by
  refine TStep.andThen_ok pushed ?_
  cases latch : (t.cc[k]).latch with
  | none => simp only [Thread.taken, latch, Option.map_none, Option.getD_none]
  | some l => simp only [Thread.taken, latch, Option.map_some, Option.getD_some]

/-- The count that WAITC waits for (R341). -/
theorem bits_waitcCount (imm : Nat) : bits imm 8 8 = imm / 256 % 256 := bits_div _ _ _

theorem opWaitc_few (few : (t.cc[(Fin.ofNat 4 i.imm : Fin 4)]).out ≤ i.imm / 256 % 256)
    (pushed : push key (t.cc[(Fin.ofNat 4 i.imm : Fin 4)]).word t s = .ok () t1 s1) :
    opWaitc key i t s = .done (t1.taken (Fin.ofNat 4 i.imm) t.cc[(Fin.ofNat 4 i.imm : Fin 4)]) none s1 := by
  rw [← bits_waitcCount] at few
  exact (if_neg (Nat.not_lt.mpr few)).trans (TStep.finish_ok (waitcTake_pushed pushed))

theorem opWaitc_many (many : i.imm / 256 % 256 < (t.cc[(Fin.ofNat 4 i.imm : Fin 4)]).out) :
    opWaitc key i t s = .hold (.waitc (Fin.ofNat 4 i.imm) (i.imm / 256 % 256)) s := by
  rw [← bits_waitcCount] at many ⊢
  exact if_pos many

/-- An instruction that holds its context answers with the held context. -/
theorem answers_hold {m : Meaning} {w : Hold} (row : ∀ s, exec c s = act (issue op m key) s) (runs : Runs op key s t u left)
    (holds : m key u.ins (iterating u left t) s = .hold w s1) : Answers c s (putThread key { iterating u left t with hold := w } s1) :=
  answers_act (row s) runs.issues.awake (issue_hold runs m holds)

/-- A row whose meaning is the fence of scope `f` retires when the scope is clear, and holds its context until then (R291). -/
theorem answers_fence {f : FenceScope} (row : ∀ s, exec c s = act (issue op (fun key _ => fence f key) key) s)
    (runs : Runs op key s t u left) :
    (fenceClear key f (iterating u left t) s = true → Retires c key u left none s (iterating u left t) s)
    ∧ (fenceClear key f (iterating u left t) s = false →
      Answers c s (putThread key { iterating u left t with hold := .fence f } s)) :=
  ⟨fun clear => retires_of row runs (if_pos clear), fun waits => answers_hold row runs (if_neg (Bool.eq_false_iff.mp waits))⟩

end

/-- Settles O21: WAITC by its two branches, the three fences by `answers_fence`, the events by what they change of the context. -/
theorem pyratWaits : Obligations.PyratWaits := by
  intro tile ctx s t u left key t0 k
  have counters : t0.cc = t.cc := iterating_cc u left t
  refine ⟨fun t1 s1 runs few pushed => ?_, fun runs many => ?_, fun runs => ?_, fun runs => ?_, fun runs => ?_,
    fun awake held data => ?_, fun awake _ => ⟨?_, ?_, ?_⟩⟩
  · rw [← counters] at few pushed ⊢
    exact retires_of (fun _ => rfl) runs (opWaitc_few few pushed)
  · rw [← counters] at many
    exact answers_hold (fun _ => rfl) runs (opWaitc_many many)
  · exact answers_fence (fun _ => rfl) runs
  · exact answers_fence (fun _ => rfl) runs
  · exact answers_fence (fun _ => rfl) runs
  · exact answers_act rfl awake (modThread_congr held (if_pos data))
  · exact answers_act rfl awake rfl
  · exact answers_act rfl awake rfl
  · exact answers_act rfl awake rfl

end Sys2Proof.Machine

namespace Sys2Proof.Machine

open Sys2Proof

/-! ### A context that does not issue (R286, R301, R316, R319) -/

section
variable {c : Instr} {op : POp} {m : Meaning} {key : Nat} {t : Thread} {s : State}

/-- Every Pyrat row issues, with a meaning of its own, the operation it names in the context it names. -/
theorem exec_pyratRow (row : pyratRow c = some (op, key)) : ∃ m, ∀ s, exec c s = act (issue op m key) s := by
  unfold pyratRow at row
  split at row
  all_goals cases row
  all_goals exact ⟨_, fun _ => rfl⟩

theorem issue_unready (held : threadAt key s = some t) (unready : canIssue t s = false) : issue op m key s = s := by
  simp only [issue, held, unready, Bool.not_false, if_true]

theorem issue_malformed (held : threadAt key s = some t) (ready : canIssue t s = true) (malformed : fetchUnit (t.code s) t.pc = .malformed) :
    issue op m key s = endFaulted key stMalformed (modThread key (fun x => { x with xf := xfWord stMalformed 0 false 0 }) s) := by
  simp only [issue, held, ready, malformed, Bool.not_true, Bool.false_eq_true, if_false]
  rfl

theorem issue_outside {o : Nat} (held : threadAt key s = some t) (ready : canIssue t s = true)
    (outside : fetchUnit (t.code s) t.pc = .outside o) : issue op m key s = endFaulted key stSegment (modThread key (fun x => { x with
      xi := BitVec.ofNat 64 (t.segs[(0 : Fin 8)]).limit, xf := xfWord stSegment 0 false ((t.segs[(0 : Fin 8)]).va o) }) s) := by
  simp only [issue, held, ready, outside, Bool.not_true, Bool.false_eq_true, if_false]
  rfl

theorem issue_otherOp {u : PUnit} (held : threadAt key s = some t) (ready : canIssue t s = true)
    (fetched : fetchUnit (t.code s) t.pc = .unit u) (other : u.ins.op ≠ op) : issue op m key s = s := by
  simp only [issue, held, ready, fetched, Bool.not_true, Bool.false_eq_true, if_false, if_pos other]

end

/-- Settles O24: every row issues (`exec_pyratRow`), and the four clauses are the ways an issue ends before its unit runs. -/
theorem pyratNoIssue : Obligations.PyratNoIssue := by
  intro c op key s t row awake held
  obtain ⟨m, issues⟩ := exec_pyratRow row
  have answers {t' : State} (ends : issue op m key s = t') : Answers c s t' := answers_act (issues s) awake ends
  exact ⟨fun unready => answers (issue_unready held unready), fun ready malformed => answers (issue_malformed held ready malformed),
    fun _ ready outside => answers (issue_outside held ready outside),
    fun _ ready fetched other => answers (issue_otherOp held ready fetched other)⟩

end Sys2Proof.Machine

namespace Sys2Proof.Machine

open Sys2Proof

/-! ### Block copies, placement and grants (R281, R282, R336, R449) -/

section
variable {s s1 : State} {c : Copy} {t : Thread}

/-- The copy has left the list of those under way. -/
def withoutCopy (c : Copy) (s : State) : State := { s with th := { s.th with copies := s.th.copies.erase c } }

theorem copyCompletion_moving {i : Nat} (found : s.th.copies[i]? = some c) (moving : c.stall = .none) :
    copyCompletion i s = copyRun c s := by
  simp only [copyCompletion, found, moving]

theorem copyRefusal_tooLong (long : 2 ^ 24 < c.len.toNat) : copyRefusal c t = some (stMalformed, xfWord stMalformed 0 false 0) :=
  if_pos long

theorem copyRun_empty (held : threadAt c.thread s = some t) (empty : c.len = 0) :
    copyRun c s = opDone c.thread c.counter stOK 0 0 (withoutCopy c s) := by
  simp only [copyRun, held, if_pos empty]
  rfl

theorem copyRun_refused {st : Nat} {xf : W64} (held : threadAt c.thread s = some t) (nonempty : c.len ≠ 0)
    (refused : copyRefusal c t = some (st, xf)) : copyRun c s = opDone c.thread c.counter st 0 xf (withoutCopy c s) := by
  simp only [copyRun, held, if_neg nonempty, refused]
  rfl

theorem copyRun_all (held : threadAt c.thread s = some t) (nonempty : c.len ≠ 0) (checked : copyRefusal c t = none)
    (moved : copyOn (threadWho c.thread t) t.tag.toNat ((t.segs[c.srcSeg]).va c.src.toNat) ((t.segs[c.dstSeg]).va c.dst.toNat) c.len.toNat
      (c.len.toNat + 1) c.done s = (.all, s1)) : copyRun c s = opDone c.thread c.counter stOK 0 0 (withoutCopy c s1) := by
  simp only [copyRun, held, if_neg nonempty, checked, moved]
  rfl

/-- The next thread of `l` is on the context `key`, and its launch and its command know it (R280, R281). -/
def threadPlaced (l : Launch) (key : Nat) (p : Pattern) (s : State) : State :=
  modCmd (Fin.ofNat 64 l.qp) l.cid (fun c => { c with effective := true, wait := none })
    (modLaunch l.id (fun x => { x with next := x.next + 1 }) (putThread key (l.thread l.next (keyTile key) p.image.length) s))

theorem placeThread_next {l : Launch} {key : Nat} {p : Pattern} (runs : engines s = true) (next : nextPlacement s = some (l, key))
    (loaded : patternOf l.pattern s = some p) : placeThread s =
      if l.plain then threadPlaced l key p s
      else { threadPlaced l key p s with th := { (threadPlaced l key p s).th with pointer := (keyTile key + 1) % 16 } } := by
  simp only [placeThread, runs, next, loaded, Bool.not_true, Bool.false_eq_true, if_false]
  rfl

/-- The head claim leaves the list, its context goes on, and the claims of its pool stand behind any it makes (R449). -/
theorem claimGrant_next {res scope : Nat} {x : Claim} (runs : engines s = true)
    (next : nextGrant res scope (poolUsed res scope s) s = some x) :
    let here := fun (y : Claim) => y.res == res && y.scope == scope
    let rest := s.th.claims.erase x
    let s1 := reissue x.thread (endWait x.thread { s with th := { s.th with claims := rest.filter (fun y => !here y) } })
    claimGrant res scope s = { s1 with th := { s1.th with claims := rest.filter here ++ s1.th.claims } } := by
  simp only [claimGrant, runs, next, Bool.not_true, Bool.false_eq_true, if_false]

end

/-- Settles O28: a block copy that is not stalled runs (`copyCompletion_moving`) to the end its length and its bytes give it; placement and
grant are their functions' effect. -/
theorem pyratEvents : Obligations.PyratEvents := by
  intro s awake
  refine ⟨fun idx c t found held moving => ⟨fun empty => ?_, fun long => ?_, fun s1 nonempty checked moved => ?_⟩,
    fun l key p runs next loaded => ?_, fun res scope c runs next => ?_⟩
  · exact answers_act rfl awake ((copyCompletion_moving found moving).trans (copyRun_empty held empty))
  · have nonempty : c.len ≠ 0 := fun empty => absurd (empty ▸ long) (by decide)
    exact answers_act rfl awake ((copyCompletion_moving found moving).trans (copyRun_refused held nonempty (copyRefusal_tooLong long)))
  · exact answers_act rfl awake ((copyCompletion_moving found moving).trans (copyRun_all held nonempty checked moved))
  · exact answers_act rfl awake (placeThread_next runs next loaded)
  · exact answers_act rfl awake (claimGrant_next runs next)

end Sys2Proof.Machine

namespace Sys2Proof.Machine

open Sys2Proof

/-! ### Engine instructions (R342, R343) -/

section
variable {key left n : Nat} {i : PInstr} {t t1 tp tq tr : Thread} {s s1 s2 sp sq : State} {o m : W64} {bs : List Byte} {same : Bool}

/-- An engine instruction that has taken its descriptor goes on with what follows (R342). -/
theorem TakesDescriptor.next {α : Type} {f : W64 → List Byte → Thread → State → TStep α} {y : TStep α}
    (taken : TakesDescriptor key i n t s o bs t1 s1) (next : f o bs t1 s1 = y) :
    ((need 1 t s).andThen fun _ t s => (pop key t s).andThen fun o t s =>
      (threadRead key (issueSeg i) o.toNat n .clean t s).andThen fun bs t s =>
        (countUp key (issueCounter i) t s).andThen fun _ t s => f o bs t s) = y := by
  obtain ⟨_, deep, _, _, _, popped, read, counted⟩ := taken
  exact TStep.andThen_ok (need_met deep) (TStep.andThen_ok popped (TStep.andThen_ok read (TStep.andThen_ok counted next)))

theorem TakesDescriptor.woven (taken : TakesDescriptor key i n t s o bs t1 s1) : ¬ keyPlain key = true := Bool.eq_false_iff.mp taken.1

theorem hookSlot_free (room : hooksActive (keyTile key) s < 256) (free : claimWaits resHook (keyTile key) t.cls s = false) :
    hookSlot key t s = .ok () t s :=
  if_neg (not_or.mpr ⟨Nat.not_le.mpr room, Bool.eq_false_iff.mp free⟩)

/-- The Hook of a tile holds one more operation, which has its slot (R351). -/
def hookQueued (key : Nat) (cls : Fin 4) (x : HookOp) (s : State) : State :=
  noteGrant resHook (keyTile key) cls 1 { s with tl := { s.tl with nextOp := s.tl.nextOp + 1, hooks := s.tl.hooks ++ [x] } }

theorem hookTake_accepted {k : Fin 4} {x y : HookOp} (accepted : hookAccept x same (hookQueued key t.cls x s) = (.accepted y, s2)) :
    hookTake key k x same t s = .ok () t (hookStart y (putHook y s2)) := by
  rw [hookQueued] at accepted
  simp only [hookTake, accepted]

/-- GATHER, POOL and GATHER.ADDR whose descriptor is accepted (R342, R347). -/
theorem hookIssue_accepted {kind : HookKind} {x y : HookOp} (taken : TakesDescriptor key i 64 t s o bs t1 s1)
    (room : hooksActive (keyTile key) s1 < 256) (free : claimWaits resHook (keyTile key) t1.cls s1 = false)
    (starts : newHook key t1 (issueCounter i) kind (ofBytes bs) ((t1.segs[issueSeg i]).va o.toNat) s1.tl.nextOp = x)
    (accepted : hookAccept x same (hookQueued key t1.cls x (putThread key t1 s1)) = (.accepted y, s2)) :
    hookIssue kind same key i t s =
      .done (withCounters key t1 (hookStart y (putHook y s2))) none (hookStart y (putHook y s2)) := by
  rw [hookIssue, if_neg taken.woven]
  refine TStep.finish_ok (taken.next (TStep.andThen_ok (hookSlot_free room free) ?_))
  simp only [starts, hookTake_accepted accepted, if_true, withCounters]
  cases threadAt key (hookStart y (putHook y s2)) with
  | none => rfl
  | some held => rfl

/-- GATHER.RESUME whose checks pass and whose buffers are granted (R343, R359). -/
theorem opGatherResume_granted {x : HookOp} (deep : 2 ≤ t.sd) (woven : keyPlain key = false) (offset : pop key t s = .ok o tp sp)
    (restart : pop key tp sp = .ok m tq sq) (read : threadRead key (issueSeg i) o.toNat 64 .clean tq sq = .ok bs tr s1)
    (counted : countUp key (issueCounter i) tr s1 = .ok () t1 s1) (room : hooksActive (keyTile key) s1 < 256)
    (free : claimWaits resHook (keyTile key) t1.cls s1 = false)
    (checked : resumeCheck key (issueCounter i) ((t1.segs[issueSeg i]).va o.toNat) (ofBytes bs) m.toNat s1 = .ok x) :
    let x1 : HookOp := { x with id := s1.tl.nextOp, accepted := true, bufs := x.accBufs s1 }
    decideClaim resBuffers x1.tile.val (buffersUsed x1.tile.val s1) x1.cls (x1.rowBufs s1) true same s1 = (.granted, s2) →
    let x2 : HookOp := { x1 with bufs := x1.accBufs s2 + x1.rowBufs s2 }
    let s3 := noteGrant resHook (keyTile key) t1.cls 1 (dropRetained key (issueCounter i) s2)
    let s4 := hookDrive x2 (putThread key t1 { s3 with tl := { s3.tl with nextOp := s1.tl.nextOp + 1, hooks := s3.tl.hooks ++ [x2] } })
    opGatherResume same key i t s = .done (withCounters key t1 s4) none s4 := by
  intro x1 granted x2 s3 s4
  rw [opGatherResume, if_neg (Bool.eq_false_iff.mp woven)]
  refine TStep.finish_ok (TStep.andThen_ok (need_met deep) (TStep.andThen_ok offset (TStep.andThen_ok restart (TStep.andThen_ok read
    (TStep.andThen_ok counted (TStep.andThen_ok (hookSlot_free room free) ?_))))))
  simp only [checked]
  rw [granted]
  rfl

/-- The operation an accepted ROW_ADD starts (R378, R379). -/
def newRowAdd (key : Nat) (t : Thread) (i : PInstr) (o : W64) (bs : List Byte) (s : State) : RowAddOp where
  tile := Fin.ofNat 16 (keyTile key)
  thread := key
  counter := issueCounter i
  cls := t.cls
  tag := t.tag
  segs := t.segs
  seg := issueSeg i
  off := o.toNat
  desc := some (BitVec.ofNat 256 (ofBytes bs))
  links := 0
  next := 0
  accepted := 0
  step := ((confirmOf s).map (·.num)).getD 0
  stall := .none

/-- ROW_ADD whose first descriptor passes its checks and whose first claim is granted (R378, R379). -/
theorem opRowAdd_granted (taken : TakesDescriptor key i 32 t s o bs t1 s1)
    (checked : raVerdict (BitVec.ofNat 256 (ofBytes bs)) 0 t1.segs s1 = none)
    (granted : (decideClaim resPurl (keyTile key) (purlUsed (keyTile key) s1) t1.cls 1 true same s1).1 = .granted) :
    let x := newRowAdd key t1 i o bs s1
    let s2 := storeSlots (rowAddRun rowAddFuel x same (putThread key t1 (modPurl (fun p => { p with ops := p.ops ++ [x] }) s1)))
    opRowAdd same key i t s = .done (withCounters key t1 s2) none s2 := by
  intro x s2
  rw [opRowAdd, if_neg taken.woven]
  refine TStep.finish_ok (taken.next ?_)
  simp only [checked, granted]
  rfl

/-- STREAM whose descriptor breaks no constraint (R245, R246). -/
theorem opStream_active (taken : TakesDescriptor key i 32 t s o bs t1 s1) (checked : streamFault (ofBytes bs) = none) :
    opStream key i t s =
      .done { t1 with cc := vmod t1.cc (issueCounter i) (fun c => c.complete stOK 0 0) } none (streamAdd (newStream key (ofBytes bs)) s1) := by
  rw [opStream, if_neg taken.woven]
  refine TStep.finish_ok (taken.next ?_)
  simp only [checked]
  rfl

/-- The operation an accepted MXOP puts into its tile's queue (R403). -/
def newMx (key : Nat) (t : Thread) (i : PInstr) (bs : List Byte) : MxOp where
  tile := Fin.ofNat 16 (keyTile key)
  thread := key
  counter := issueCounter i
  cls := t.cls
  tag := t.tag
  segs := t.segs
  desc := BitVec.ofNat 512 (ofBytes bs)
  started := false
  row := 0
  cnt := {}
  written := 0
  seen := []
  stall := .none
  stallXf := 0
  ending := none

/-- MXOP whose descriptor passes its checks, with room in the queue (R294, R403). -/
theorem opMxop_queued (taken : TakesDescriptor key i 64 t s o bs t1 s1) (room : mxQueued (keyTile key) s1 < 64)
    (free : claimWaits resMatrix (keyTile key) t1.cls s1 = false) (checked : (newMx key t1 i bs).verdict s1 = none) :
    opMxop key i t s = .done t1 none
      (noteGrant resMatrix (keyTile key) t1.cls 1 { s1 with tl := { s1.tl with mx := s1.tl.mx ++ [newMx key t1 i bs] } }) := by
  rw [opMxop, if_neg taken.woven]
  refine TStep.finish_ok (taken.next ?_)
  rw [newMx] at checked
  simp only [if_neg (not_or.mpr ⟨Nat.not_le.mpr room, Bool.eq_false_iff.mp free⟩), checked]
  rfl

end

/-- Settles O22: each instruction's meaning hands its operation over under its clause's premises, and `retires_of` carries it to the row's
answer. -/
theorem pyratEngineIssue : Obligations.PyratEngineIssue := by
  intro tile ctx same s t u left o bs t1 s1 key t0 k va
  have depth : t0.sd = t.sd := iterating_sd u left t
  refine ⟨fun taken room free kind y s2 accepted => ?hook,
    fun n tp sp offset deep woven tq sq restart tr read counted room free x checked s2 granted runs => ?resume,
    fun taken runs checked granted => ?rowAdd, fun taken runs checked => ?stream, fun taken runs room free checked => ?mxop⟩
  case hook =>
    have done := hookIssue_accepted taken room free rfl accepted
    refine ⟨?_, ?_, ?_⟩
    all_goals
      rintro rfl runs
      exact retires_of (fun _ => rfl) runs done
  case resume =>
    rw [← depth] at deep
    exact retires_of (fun _ => rfl) runs (opGatherResume_granted deep woven offset restart read counted room free checked granted)
  case rowAdd => exact retires_of (fun _ => rfl) runs (opRowAdd_granted taken checked granted)
  case stream => exact retires_of (fun _ => rfl) runs (opStream_active taken checked)
  case mxop => exact retires_of (fun _ => rfl) runs (opMxop_queued taken room free checked)

end Sys2Proof.Machine

namespace Sys2Proof.Machine

open Sys2Proof

/-! ### The Hook: a returned element, and the validation of a held operation (R349, R357, R372, R375) -/

section
variable {tile : Fin 16} {id j : Nat} {ecc : Ecc} {x : HookOp} {w : Window} {s u : State}

/-- The operation `x` of `tile` is not speculative and waits for its oldest element: nothing is fetched, and nothing holds it up. -/
structure AwaitsOldest (tile : Fin 16) (id : Nat) (x : HookOp) (s : State) : Prop where
  held : hookOf id s = some x
  home : x.tile = tile
  accepted : x.accepted = true
  ending : x.ending = none
  moving : x.stall = .none
  running : x.halted = false
  fetched : x.fetched = []
  plain : x.spec = false
  more : x.next < x.count
  kept : x.skipTo ≤ x.next

theorem AwaitsOldest.hookReturn_eq (awaits : AwaitsOldest tile id x s) : hookReturn tile id j ecc s = hookFetch x j ecc s := by
  simp only [hookReturn, awaits.held, awaits.home, awaits.accepted, awaits.ending, awaits.moving, awaits.fetched, ne_eq, not_true_eq_false,
    Bool.not_true, Option.isSome_none, Bool.or_self, List.any_nil, Bool.false_and, Bool.false_eq_true, if_false]

/-- The oldest element is fetched whatever buffers are free. -/
theorem AwaitsOldest.fetches (awaits : AwaitsOldest tile id x s) (oldest : x.next = j) :
    ¬(x.count ≤ j ∨ j < x.next ∨ (j = x.next ∧ x.halted = true) ∨ j < x.skipTo ∨ x.fetched.any (fun f => f.elem == j) = true
      ∨ (!decide (j = x.next) && !aheadOk x s) = true) := by
  subst oldest
  simp only [awaits.running, awaits.fetched, Nat.not_le.mpr awaits.more, Nat.lt_irrefl, Nat.not_lt.mpr awaits.kept, Bool.false_eq_true,
    and_false, List.any_nil, decide_true, Bool.not_true, Bool.false_and, or_self, not_false_eq_true]

theorem AwaitsOldest.hookReturn_rows {rows : List (List Byte)} {recs : List ReadRec} (awaits : AwaitsOldest tile id x s)
    (oldest : x.next = j) (fetch : fetchElem x j ecc s = (.rows rows recs, u)) :
    hookReturn tile id j ecc s = hookArrive x j rows recs u := by
  rw [awaits.hookReturn_eq, hookFetch, if_neg (awaits.fetches oldest)]
  simp only [awaits.plain, fetch, oldest, Bool.false_and, Bool.false_eq_true, if_false, decide_true, if_true]

theorem AwaitsOldest.hookReturn_fault {st : Nat} {xf : W64} (awaits : AwaitsOldest tile id x s) (oldest : x.next = j)
    (fetch : fetchElem x j ecc s = (.fault st xf, u)) : hookReturn tile id j ecc s =
      hookEnd { x with fetched := [], stall := .none } stPartial (BitVec.ofNat 64 j) (xf ||| BitVec.ofNat 64 st) u := by
  rw [awaits.hookReturn_eq, hookFetch, if_neg (awaits.fetches oldest)]
  simp only [awaits.plain, fetch, oldest, hookFault, Bool.false_and, Bool.false_eq_true, if_false, decide_true, if_true]

/-- A held operation whose records can all be compared is validated, counted in its window, and goes on (R372–R375). -/
theorem validateOp_validates (held : hookOf id s = some x) (window : s.stp.window = some w) (home : x.tile = tile) (spec : x.spec = true)
    (validating : w.state = .validating) (step : x.step = w.step) (complete : specComplete x = true)
    (compared : ∀ r ∈ x.reads, recChanged r (sendValidations x s) ≠ none) : validateOp tile id s =
      hookDrive { (validated x (sendValidations x s)).1 with packetBufs := x.packetBufs } (modWindow (fun w =>
        { w with reread := w.reread + (validated x (sendValidations x s)).2, deferred := w.deferred + b2n x.halted })
        (sendValidations x s)) := by
  have decided : x.reads.any (fun r => (recChanged r (sendValidations x s)).isNone) = false :=
    List.any_eq_false.mpr fun r mem none => compared r mem (Option.isNone_iff_eq_none.mp none)
  simp only [validateOp, held, window, home, spec, validating, step, complete, decided, ne_eq, not_true_eq_false, Bool.not_true,
    Bool.false_eq_true, or_self, if_false]

end

/-! ### The Matrix Unit (R294, R404, R408, R413–R416) -/

section
variable {kind : Nat} {tile : Fin 16} {x y : MxOp} {out : List Nat} {l : W32} {s t u : State}

/-- A row of the Matrix Unit whose kind its running operation has answers what the run gives. -/
theorem answers_mxRun {c : Instr} {run : MxOp → State → State} (row : ∀ s, exec c s = act (mxRun kind run tile) s)
    (runs : MxRuns kind tile x s) (gives : run x s = t) : Answers c s t := by
  refine answers_act (row s) runs.awake ?_
  simp only [mxRun, runs.current, runs.kind, runs.ending, runs.engines, runs.stall, ne_eq, not_true_eq_false, Option.isSome_none,
    Bool.not_true, Bool.false_eq_true, or_self, if_false, gives]

/-- The operation `y` as it stands after the row at which `x` stood. -/
def MxOp.rowMoved (x y : MxOp) : MxOp := { y with started := true, row := x.row + 1, written := x.written + x.n, stall := .none }

/-- Converting a row of a LOAD counts, and leaves the descriptor alone. -/
theorem loadRow_desc {bs : List Byte} (converts : loadRow x bs s = some (out, y, l)) : y.desc = x.desc := by
  simp only [loadRow] at converts
  split at converts
  · split at converts
    all_goals cases converts; rfl
  · split at converts
    · cases converts; rfl
    · obtain ⟨_, zeros⟩ := Option.ite_none_left_eq_some.mp converts
      cases zeros; rfl

theorem storeRow_desc (converts : storeRow x s = (out, y, l)) : y.desc = x.desc := by
  simp only [storeRow] at converts
  split at converts
  all_goals cases converts; rfl

theorem MxOp.rowMoved_m (same : y.desc = x.desc) : (x.rowMoved y).m = x.m := by
  simp only [MxOp.m, MxOp.fld, MxOp.rowMoved, same]

/-- A LOAD or STORE whose last row moves ends after it (R415). -/
theorem mxRows_last {step : MxOp → State → Option MxOp × State} (last : x.m = x.row + 1) (same : y.desc = x.desc)
    (moves : step x s = (some (x.rowMoved y), u)) :
    mxRows step (x.m + 1) x s = mxFinish (x.rowMoved y) (x.rowMoved y) stOK 0 0 u := by
  have more : ¬ x.m ≤ x.row := by omega
  have done : (x.rowMoved y).m ≤ (x.rowMoved y).row := Nat.le_of_eq ((MxOp.rowMoved_m same).trans last)
  rw [mxRows, if_neg more, moves, last]
  simp only [mxRows, if_pos done]

/-- A LOAD or STORE whose last row does not move stands as its step leaves it. -/
theorem mxRows_stops {step : MxOp → State → Option MxOp × State} (last : x.m = x.row + 1) (stops : step x s = (none, u)) :
    mxRows step (x.m + 1) x s = u := by
  have more : ¬ x.m ≤ x.row := by omega
  rw [mxRows, if_neg more, stops]

/-- The row of a LOAD is written to staging (R404). -/
theorem loadStep_moves {bs : List Byte}
    (read : xRead x.who x.tag.toNat ((x.segs[x.memSeg]).va (x.memOff + x.row * x.memPitch)) x.memRow .read s = (.data bs, u))
    (converts : loadRow x bs u = some (out, y, l)) : loadStep x s = (some (x.rowMoved y),
      putMx x (x.rowMoved y) (stagePut x.tile (x.cOff + x.row * x.cPitch) (mxRow x.outFmt out) u)) := by
  simp only [loadStep, read, converts, MxOp.rowMoved]

theorem loadStep_faults {st : Nat}
    (read : xRead x.who x.tag.toNat ((x.segs[x.memSeg]).va (x.memOff + x.row * x.memPitch)) x.memRow .read s = (.fault st, u)) :
    loadStep x s = (none, mxFinish x x stPartial (BitVec.ofNat 64 x.row)
      (xfWord st x.memSeg.val false ((x.segs[x.memSeg]).va (x.memOff + x.row * x.memPitch))) u) := by
  simp only [loadStep, read]

/-- The row of a STORE is written to memory (R415). -/
theorem storeStep_moves (converts : storeRow x s = (out, y, l))
    (stored : xStore x.who x.tag.toNat ((x.segs[x.memSeg]).va (x.memOff + x.row * x.memPitch)) (mxRow x.outFmt out) s = (.done, u)) :
    storeStep x s = (some (x.rowMoved y),
      putMx x (x.rowMoved y) { u with tl := { u.tl with lfsr := vset u.tl.lfsr x.tile l } }) := by
  simp only [storeStep, converts, stored, MxOp.rowMoved]

/-- A MATMUL that does not drain writes its accumulators and nothing else (R408). -/
theorem matmulRun_keeps (undrained : x.drain = false) :
    let acc := (pairing x.aFmt x.bFmt).getD 0
    let cells := (List.range x.m).flatMap (fun i => (List.range x.n).map (fun j => (accKey x.tile i j, matmulCell x acc i j s)))
    let cnt := x.cnt.plus ((matmulInputs x s).plus { sat := (cells.filter (fun c => c.2.2)).length })
    matmulRun x s = mxFinish x { x with cnt := cnt } stOK 0 0
      { s with tl := { s.tl with accs := cells.foldl (fun m c => kvSet m c.1 c.2.1) s.tl.accs } } := by
  simp only [matmulRun, undrained, Bool.false_eq_true, if_false]

theorem elemRun_rows {rows : List (List Nat)} {c : Counts} (computes : elemRows x s = (rows, c, l)) :
    let t := rows.zipIdx.foldl (fun s r => stagePut x.tile (x.cOff + r.2 * x.cPitch) (mxRow x.outFmt r.1) s) s
    elemRun x s = mxFinish x { x with cnt := x.cnt.plus c, written := x.m * x.n } stOK 0 0
      { t with tl := { t.tl with lfsr := vset t.tl.lfsr x.tile l } } := by
  simp only [elemRun, computes]

section
variable {st : Nat} {xi xf : W64} (runs : engines s = true) (current : mxCurrent tile s = some x) (ending : x.ending = some (st, xi, xf))
include runs current ending

theorem mxComplete_plain (unrecorded : x.resEn = false) : mxComplete tile s = mxRelease x st xi xf s := by
  simp only [mxComplete, current, ending, runs, unrecorded, Bool.not_true, Bool.not_false, Bool.false_eq_true, if_false, if_true]

/-- The record is written before the operation leaves the queue (R416). -/
theorem mxComplete_recorded (moving : x.stall = .none) (recorded : x.resEn = true)
    (stored : xStore x.who x.tag.toNat ((x.segs[x.resSeg]).va x.resOff) (x.record st) s = (.done, u)) :
    mxComplete tile s = mxRelease x st xi xf u := by
  simp only [mxComplete, current, ending, runs, moving, recorded, stored, Bool.not_true, Bool.false_eq_true, if_false]

end
end

/-! ### The adders (R385, R387) -/

section
variable {exact : Bool} {src : Fin 17} {i pa : Nat} {up : Update} {t : Table} {s s1 : State}

/-- An adder's row takes the local update that waits for it. -/
theorem AdderTakes.adderRun_eq (takes : AdderTakes exact src i up t pa s s1) : adderRun exact src i s = applyLocal up s := by
  simp only [adderRun, if_pos takes.tile, takes.waiting, takes.engines, takes.wants, takes.stall, Bool.not_true, bne_self_eq_false,
    Bool.or_self, Bool.false_eq_true, if_false]

/-- With no poisoned sector nothing is parked: the update is applied where `applyAt` applies it, counted, and its slot is free. -/
theorem AdderTakes.applyLocal_eq {s2 : State} (takes : AdderTakes exact src i up t pa s s1) (applied : applyAt up t pa s1 = (.done false, s2)) :
    applyLocal up s = countDone up false (dropSlot up s2) := by
  obtain ⟨_, place⟩ := takes.place
  simp only [applyLocal, place, applied]

theorem AdderTakes.applyAt_float (takes : AdderTakes false src i up t pa s s1) (float : t.addMode ≠ 2) :
    applyAt up t pa s1 = (.done false, floatUpdate up t pa (cleanElems t pa s1) s1) := by
  simp only [applyAt, takes.clean, parkAll, takes.takes, if_neg float, List.isEmpty_nil, Bool.not_true, Bool.false_eq_true, if_false]

theorem AdderTakes.applyAt_exact (takes : AdderTakes true src i up t pa s s1) :
    applyAt up t pa s1 = (.done false, exactUpdate up t pa (cleanElems t pa s1) s1) := by
  simp only [applyAt, takes.clean, parkAll, takes.takes, List.isEmpty_nil, Bool.not_true, if_true]

end

/-- Settles O56: each row runs its function of the model (`answers_act`, `answers_mxRun`), and what the function does under the clause's
premises is a lemma above. -/
theorem enginesHold : Obligations.Engines := by
  refine ⟨fun tile id j ecc x s awake held home accepted ending moving running fetched plain oldest more kept => ?hook,
    fun tile id x w s awake held window home spec validating step complete compared => ?validation, fun tile x s => ?matrix,
    fun src i u t pa s s1 => ?adder⟩
  case hook =>
    have awaits : AwaitsOldest tile id x s :=
      ⟨held, home, accepted, ending, moving, running, fetched, plain, oldest ▸ more, oldest ▸ kept⟩
    exact ⟨fun rows recs u fetch => answers_act rfl awake (awaits.hookReturn_rows oldest fetch),
      fun st xf u fetch => answers_act rfl awake (awaits.hookReturn_fault oldest fetch)⟩
  case validation => exact answers_act rfl awake (validateOp_validates held window home spec validating step complete compared)
  case matrix =>
    refine ⟨fun runs last => ⟨fun bs u out y l read converts => ?_, fun st u read => ?_⟩,
      fun runs last out y l u converts stored => ?_, fun runs undrained => ?_, fun runs rows c l computes => ?_, fun runs => ?_,
      fun st xi xf awake runs current ending moving => ⟨fun unrecorded => ?_, fun u recorded stored => ?_⟩⟩
    · exact answers_mxRun (fun _ => rfl) runs (mxRows_last last (loadRow_desc converts) (loadStep_moves read converts))
    · exact answers_mxRun (fun _ => rfl) runs (mxRows_stops last (loadStep_faults read))
    · exact answers_mxRun (fun _ => rfl) runs (mxRows_last last (storeRow_desc converts) (storeStep_moves converts stored))
    · exact answers_mxRun (fun _ => rfl) runs (matmulRun_keeps undrained)
    · exact answers_mxRun (fun _ => rfl) runs (elemRun_rows computes)
    · exact answers_mxRun (fun _ => rfl) runs rfl
    · exact answers_act rfl awake (mxComplete_plain runs current ending unrecorded)
    · exact answers_act rfl awake (mxComplete_recorded runs current ending moving recorded stored)
  case adder =>
    exact ⟨fun takes float => answers_act rfl takes.awake (takes.adderRun_eq.trans (takes.applyLocal_eq (takes.applyAt_float float))),
      fun takes => answers_act rfl takes.awake (takes.adderRun_eq.trans (takes.applyLocal_eq takes.applyAt_exact))⟩

end Sys2Proof.Machine

namespace Sys2Proof.Machine

open Sys2Proof

/-! ### Encoding and fetch of a unit (R301, R312, R318–R325) -/

section
variable {op : POp} {sub : Nat} {i : PInstr} {before after : List Byte} {rep : Rep}

theorem subOk_lt (ok : subOk op sub = true) : sub < 16 := by
  cases op
  all_goals
    simp only [subOk, Bool.and_eq_true, Bool.or_eq_true, decide_eq_true_eq, beq_iff_eq, majorSub] at ok
    omega

/-- MAJOR and SUB of an operation select it and its decoded SUB, and fit their fields (R325). -/
theorem majorSub_decodes (op : POp) : ∀ sub < 16, subOk op sub = true →
    opOf (majorSub op sub).1 (majorSub op sub).2 = some op ∧ subOf (majorSub op sub).1 (majorSub op sub).2 = sub
      ∧ (majorSub op sub).1 < 64 ∧ (majorSub op sub).2 < 16 := by
  cases op
  all_goals decide

/-- Only BFX and BFI have fields that depend on SUB, and their SUB is encoded as it is (R325, R329). -/
theorem immMask_majorSub (major : Nat) (op : POp) (sub : Nat) : immMask major (majorSub op sub).2 op = immMask major sub op := by
  cases op
  all_goals rfl

theorem immRange_majorSub (op : POp) (sub imm : Nat) : immRange (majorSub op sub).2 imm op = immRange sub imm op := by
  cases op
  all_goals rfl

theorem PInstr.wf_iff : i.wf = true ↔ (i.size = 4 ∧ i.pred < 8 ∧ i.imm < 2 ^ 16 ∧
    i.imm &&& immMask (majorSub i.op i.sub).1 i.sub i.op = i.imm) ∧ subOk i.op i.sub = true ∧ immRange i.sub i.imm i.op = true := by
  simp only [PInstr.wf, Bool.and_eq_true, decide_eq_true_eq, and_assoc]

theorem b2n_le (b : Bool) : b2n b ≤ 1 := by cases b <;> decide

/-- The fields of the 32-bit form (R321). -/
theorem encodeLong_fields (wf : i.wf = true) :
    bits (encodeLong i) 4 6 = (majorSub i.op i.sub).1 ∧ bits (encodeLong i) 0 4 = (majorSub i.op i.sub).2
      ∧ bits (encodeLong i) 16 16 = i.imm ∧ (encodeLong i).testBit 13 = i.neg ∧ bits (encodeLong i) 10 3 = i.pred
      ∧ bits (encodeLong i) 14 2 = 3 ∧ encodeLong i < 2 ^ 32 := by
  obtain ⟨⟨_, pred, imm, _⟩, ok, _⟩ := PInstr.wf_iff.mp wf
  obtain ⟨_, _, major, sub⟩ := majorSub_decodes i.op i.sub (subOk_lt ok) ok
  have sign := b2n_le i.neg
  have neg : (encodeLong i).testBit 13 = i.neg := by
    have bit : encodeLong i / 2 ^ 13 % 2 = b2n i.neg := by rw [encodeLong]; omega
    rw [Nat.testBit_eq_decide_div_mod_eq, bit]
    cases i.neg <;> rfl
  simp only [bits_div, neg, true_and]
  rw [encodeLong]
  omega

/-- A well-formed instruction survives its 32-bit form (R321, R322). -/
theorem decodeLong_encodeLong (wf : i.wf = true) : decodeLong (encodeLong i) = some i := by
  obtain ⟨major, sub, imm, neg, pred, _, _⟩ := encodeLong_fields wf
  obtain ⟨⟨size, _, _, masked⟩, ok, range⟩ := PInstr.wf_iff.mp wf
  obtain ⟨selects, decoded, _, _⟩ := majorSub_decodes i.op i.sub (subOk_lt ok) ok
  simp only [decodeLong, major, sub, imm, neg, pred, selects, decoded, immMask_majorSub, immRange_majorSub, masked, range,
    Nat.sub_self, and_self, if_true]
  rw [← size]

/-- Two bytes in a pattern's code are the halfword they spell (R318). -/
theorem halfword_toBytes (before after : List Byte) (x : Nat) : halfword (before ++ toBytes 2 x ++ after) before.length = x % 2 ^ 16 := by
  have here : ((before ++ toBytes 2 x ++ after).drop before.length).take 2 = toBytes 2 x := by
    rw [List.append_assoc, List.drop_left, List.take_left' (toBytes_length 2 x)]
  rw [halfword, here, ofBytes_toBytes, ← Nat.pow_mul 2 8 2]

/-- The four bytes of a word are its two halfwords, the lower one first (R319). -/
theorem toBytes_four (w : Nat) : toBytes 4 w = toBytes 2 w ++ toBytes 2 (w / 2 ^ 16) := by
  simp only [toBytes, Nat.div_div_eq_div_mul, List.cons_append, List.nil_append, Nat.reduceMul, Nat.reducePow]

theorem halfword_low (before after : List Byte) (w : Nat) :
    halfword (before ++ toBytes 4 w ++ after) before.length = w % 2 ^ 16 := by
  rw [toBytes_four, ← List.append_assoc, List.append_assoc _ _ after]
  exact halfword_toBytes before _ w

theorem halfword_high (before after : List Byte) (w : Nat) :
    halfword (before ++ toBytes 4 w ++ after) (before.length + 2) = w / 2 ^ 16 % 2 ^ 16 := by
  rw [toBytes_four, ← List.append_assoc, ← toBytes_length 2 w, ← List.length_append, toBytes_length 2 w]
  exact halfword_toBytes _ after _

theorem length_code (before after : List Byte) (n x : Nat) :
    (before ++ toBytes n x ++ after).length = before.length + n + after.length := by
  rw [List.length_append, List.length_append, toBytes_length]

/-- The first halfword of a 32-bit form is neither a short form nor a GRD, REPU or REPI (R319). -/
theorem bits_encodeLong_low (wf : i.wf = true) :
    bits (encodeLong i % 2 ^ 16) 14 2 = 3 ∧ bits (encodeLong i % 2 ^ 16) 12 4 ≠ 7 := by
  obtain ⟨_, _, _, _, _, long, _⟩ := encodeLong_fields wf
  rw [bits_div] at long
  rw [bits_div, bits_div]
  omega

/-- A well-formed instruction, repeated only if it may be, is fetched from its 32-bit form (R312, R319). -/
theorem fetchIns_encodeLong (wf : i.wf = true) (may : rep = .once ∨ i.op.unrepeatable = false) (start : Nat) :
    fetchIns (before ++ toBytes 4 (encodeLong i) ++ after) before.length rep none start = .unit ⟨rep, i, before.length + 4 - start⟩ := by
  obtain ⟨_, _, _, _, _, _, word⟩ := encodeLong_fields wf
  have whole : encodeLong i % 2 ^ 16 + 2 ^ 16 * (encodeLong i / 2 ^ 16 % 2 ^ 16) = encodeLong i := by omega
  have inside : ¬ (before ++ toBytes 4 (encodeLong i) ++ after).length < before.length + 4 := by rw [length_code]; omega
  have repeats : ¬ (rep ≠ .once ∧ i.op.unrepeatable = true) := by
    rintro ⟨repeated, never⟩
    exact may.elim repeated (fun allowed => absurd (allowed.symm.trans never) Bool.false_ne_true)
  simp only [fetchIns, halfword_low, halfword_high, (bits_encodeLong_low wf).1, if_true, if_neg inside, whole, decodeLong_encodeLong wf,
    if_neg repeats]

/-- After a REPU or REPI the 32-bit form is the instruction (R301). -/
theorem fetchAfterRep_encodeLong (wf : i.wf = true) (may : i.op.unrepeatable = false) (start : Nat) :
    fetchAfterRep (before ++ toBytes 4 (encodeLong i) ++ after) before.length rep start = .unit ⟨rep, i, before.length + 4 - start⟩ := by
  have inside : ¬ (before ++ toBytes 4 (encodeLong i) ++ after).length < before.length + 2 := by rw [length_code]; omega
  simp only [fetchAfterRep, if_neg inside, halfword_low, if_neg (bits_encodeLong_low wf).2, fetchIns_encodeLong wf (.inr may)]

/-- The 32-bit form alone is a unit (R316). -/
theorem fetchUnit_once (wf : i.wf = true) :
    fetchUnit (before ++ toBytes 4 (encodeLong i) ++ after) before.length = .unit ⟨.once, i, 4⟩ := by
  have inside : ¬ (before ++ toBytes 4 (encodeLong i) ++ after).length < before.length + 2 := by rw [length_code]; omega
  simp only [fetchUnit, if_neg inside, halfword_low, if_neg (bits_encodeLong_low wf).2, fetchIns_encodeLong wf (.inl rfl),
    Nat.add_sub_cancel_left]

/-- The halfword is the REPU or REPI of `rep` (R323). -/
def RepeatMark (h : Nat) (rep : Rep) : Prop :=
  h < 2 ^ 16 ∧ bits h 12 4 = 7 ∧ ((∃ n, rep = .repu n ∧ bits h 10 2 = 1 ∧ prefixFields h = some n)
    ∨ (rep = .repi ∧ bits h 10 2 = 2 ∧ prefixFields h = some 0))

theorem repeatMark_repu {n : Nat} (few : 1 ≤ n ∧ n ≤ 64) : RepeatMark (0x7400 + (n - 1)) (.repu n) := by
  have kind : bits (0x7400 + (n - 1)) 10 2 = 1 := by rw [bits_div]; omega
  have marked : bits (0x7400 + (n - 1)) 6 4 = 0 := by rw [bits_div]; omega
  have count : bits (0x7400 + (n - 1)) 0 6 + 1 = n := by rw [bits_div]; omega
  refine ⟨by omega, by rw [bits_div]; omega, .inl ⟨n, rfl, kind, ?_⟩⟩
  simp only [prefixFields, kind, marked, count, if_true]

theorem repeatMark_repi : RepeatMark 0x7800 .repi := by
  refine ⟨by decide, by decide, .inr ⟨rfl, by decide, by decide⟩⟩

/-- A REPU or REPI and the 32-bit form of what it may repeat are one unit (R301, R312). -/
theorem fetchUnit_repeated {h : Nat} (mark : RepeatMark h rep) (wf : i.wf = true) (may : i.op.unrepeatable = false) :
    fetchUnit (before ++ (toBytes 2 h ++ toBytes 4 (encodeLong i)) ++ after) before.length = .unit ⟨rep, i, 6⟩ := by
  obtain ⟨small, marker, kind⟩ := mark
  have first : halfword (before ++ (toBytes 2 h ++ toBytes 4 (encodeLong i)) ++ after) before.length = h := by
    rw [← List.append_assoc, List.append_assoc _ _ after, halfword_toBytes, Nat.mod_eq_of_lt small]
  have inside : ¬ (before ++ (toBytes 2 h ++ toBytes 4 (encodeLong i)) ++ after).length < before.length + 2 := by
    simp only [List.length_append, toBytes_length]; omega
  have rest (r : Rep) : fetchAfterRep (before ++ (toBytes 2 h ++ toBytes 4 (encodeLong i)) ++ after) (before.length + 2) r before.length
      = .unit ⟨r, i, 6⟩ := by
    have reached : (before ++ toBytes 2 h).length = before.length + 2 := by rw [List.length_append, toBytes_length]
    rw [← List.append_assoc, ← reached, fetchAfterRep_encodeLong wf may, reached, Nat.add_assoc, Nat.add_sub_cancel_left]
  obtain ⟨n, rfl, repu, count⟩ | ⟨rfl, repi, blank⟩ := kind
  · simp only [fetchUnit, if_neg inside, first, if_pos marker, repu, count, rest]
  · simp only [fetchUnit, if_neg inside, first, if_pos marker, repi, blank, rest]

end

/-- Settles O9, by how the unit repeats: the 32-bit form alone is `fetchUnit_once`, behind a REPU or a REPI it is `fetchUnit_repeated`. -/
theorem pyratDecodeEncode : Obligations.PyratDecodeEncode := by
  rintro ⟨rep, i, len⟩ before after wf
  simp only [PUnit.wf, Bool.and_eq_true, decide_eq_true_eq] at wf
  obtain ⟨⟨wfIns, length⟩, wfRep⟩ := wf
  cases rep with
  | once =>
    obtain rfl : len = 4 := length
    exact fetchUnit_once wfIns
  | repu n =>
    obtain rfl : len = 6 := length
    simp only [Bool.and_eq_true, decide_eq_true_eq, Bool.not_eq_true'] at wfRep
    exact fetchUnit_repeated (repeatMark_repu wfRep.1) wfIns wfRep.2
  | repi =>
    obtain rfl : len = 6 := length
    exact fetchUnit_repeated repeatMark_repi wfIns (Bool.not_eq_true' _ ▸ wfRep)

end Sys2Proof.Machine

namespace Sys2Proof.Machine

open Sys2Proof

/-! ### The operand stack (R296–R298) -/

section
variable {key : Nat} {v : W64} {t t1 : Thread} {s s1 : State}

theorem threadStore_keepsStack {k : Fin 8} {o : Nat} {bs : List Byte} (stored : threadStore key k o bs t s = .ok () t1 s1) :
    t1.slots = t.slots ∧ t1.sd = t.sd := by
  simp only [threadStore] at stored
  split at stored
  · cases stored
  · split at stored
    all_goals cases stored
    exact ⟨rfl, rfl⟩

theorem spill_room (room : t.sd < 16) : spill key t s = .ok () t s := if_pos room

/-- The word at depth 15 stands in the slot of the next push (R296). -/
theorem Thread.at'_deepest (t : Thread) : t.at' 15 = t.slots[t.nextSlot] := by
  simp only [Thread.at', Nat.add_sub_cancel, Thread.nextSlot]

theorem spill_full (full : 16 ≤ t.sd) : spill key t s = threadStore key 7 (8 * (t.sd - 16)) (toBytes 8 (t.at' 15).toNat) t s := by
  rw [t.at'_deepest]; exact if_neg (Nat.not_lt.mpr full)

theorem spill_keepsStack (spilled : spill key t s = .ok () t1 s1) : t1.slots = t.slots ∧ t1.sd = t.sd := by
  unfold spill at spilled
  split at spilled
  · cases spilled; exact ⟨rfl, rfl⟩
  · exact threadStore_keepsStack spilled

/-- The context with `v` on top of its stack, in the slot that is free or spilled. -/
def Thread.pushed (t : Thread) (v : W64) : Thread := { t with slots := vset t.slots t.nextSlot v, sd := t.sd + 1 }

theorem push_spilled (spilled : spill key t s = .ok () t1 s1) : push key v t s = .ok () (t1.pushed v) s1 := TStep.andThen_ok spilled rfl

/-- A push that answers has made room first. -/
theorem push_ok (answers : push key v t s = .ok () t1 s1) : ∃ t0, spill key t s = .ok () t0 s1 ∧ t1 = t0.pushed v := by
  unfold push TStep.andThen at answers
  split at answers
  next u t0 s0 spilled => cases answers; exact ⟨t0, spilled, rfl⟩
  next => cases answers

/-- The word at a depth below 15 is not in the slot of the next push. -/
theorem slot_ne_nextSlot (t : Thread) {d : Nat} (shallow : d < 15) : t.nextSlot ≠ Fin.ofNat 16 (t.sd + 15 - d) := by
  intro same
  have := congrArg Fin.val same
  simp only [Thread.nextSlot, Fin.ofNat] at this
  omega

/-- A write of the next push's slot leaves the 15 top words. -/
theorem at'_vset_nextSlot (t : Thread) {d : Nat} (shallow : d < 15) :
    ({ t with slots := vset t.slots t.nextSlot v } : Thread).at' d = t.at' d := vset_other _ _ (slot_ne_nextSlot t shallow)

theorem Thread.pushed_top (t : Thread) (v : W64) : (t.pushed v).at' 0 = v := by
  have top : Fin.ofNat 16 (t.sd + 1 + 15 - 0) = t.nextSlot := Fin.ext (by simp only [Thread.nextSlot, Fin.ofNat]; omega)
  simp only [Thread.at', Thread.pushed, top, vset_self]

theorem Thread.pushed_below (t : Thread) (v : W64) {d : Nat} (shallow : d < 15) : (t.pushed v).at' (d + 1) = t.at' d := by
  have slot : t.sd + 1 + 15 - (d + 1) = t.sd + 15 - d := by omega
  rw [← at'_vset_nextSlot t (v := v) shallow]
  simp only [Thread.at', Thread.pushed, slot]

theorem pop_slots (shallow : t.sd ≤ 16) : pop key t s = .ok (t.at' 0) { t with sd := t.sd - 1 } s := by
  have within : t.sd - 1 < 16 := by omega
  exact if_pos within

@[simp] theorem heldByData_slots (key : Nat) (t : Thread) : (heldByData key t).slots = t.slots := by
  unfold heldByData; split <;> rfl

@[simp] theorem heldByData_sd (key : Nat) (t : Thread) : (heldByData key t).sd = t.sd := by
  unfold heldByData; split <;> rfl

/-- Holding a context for its data leaves the words of its stack. -/
@[simp] theorem heldByData_at' (key : Nat) (t : Thread) (d : Nat) : (heldByData key t).at' d = t.at' d := by
  simp only [Thread.at', heldByData_slots, heldByData_sd]

theorem pop_fill {bs : List Byte} (deep : 17 ≤ t.sd)
    (read : threadRead key 7 (8 * (t.sd - 1 - 16)) 8 .clean { t with sd := t.sd - 1 } s = .ok bs t1 s1) :
    pop key t s = .ok (t.at' 0) (heldByData key { t1 with slots := vset t1.slots t1.nextSlot (BitVec.ofNat 64 (ofBytes bs)) }) s1 := by
  have beyond : ¬ t.sd - 1 < 16 := by omega
  exact (if_neg beyond).trans (TStep.andThen_ok read rfl)

end

/-- Settles O16: a push spills or has room, a pop fills or has the word, and the 15 top words stand in slots a push leaves alone. -/
theorem pyratStackWindow : Obligations.PyratStackWindow := by
  intro key t v s
  refine ⟨fun room => push_spilled (spill_room room), fun full t1 s1 stored => push_spilled ((spill_full full).trans stored), pop_slots,
    fun deep bs t1 s1 read => ⟨_, pop_fill deep read, ?_, ?_, fun d shallow => ?_⟩, fun t1 s1 answers => ?_⟩
  · rw [heldByData_at', Thread.at'_deepest]
    exact vset_self _ _ _
  · rw [heldByData_sd]
  · rw [heldByData_at', at'_vset_nextSlot t1 shallow]
  · obtain ⟨t0, spilled, rfl⟩ := push_ok answers
    obtain ⟨slots, depth⟩ := spill_keepsStack spilled
    refine ⟨congrArg (· + 1) depth, t0.pushed_top v, fun d shallow _ => ?_⟩
    rw [t0.pushed_below v shallow]
    simp only [Thread.at', slots, depth]

end Sys2Proof.Machine

namespace Sys2Proof.Machine

open Sys2Proof

/-! ### Instructions that pop words and push a result (R324, R326, R328–R330) -/

section
variable {c : Instr} {op : POp} {m : Meaning} {key : Nat} {i : PInstr} {t t1 t2 t3 t4 t5 : Thread} {s s1 s2 s3 s4 s5 : State}
  {a b x w p : W64}

theorem unary_done {f : W64 → W64} (deep : 1 ≤ t.sd) (popped : pop key t s = .ok x t1 s1) (pushed : push key (f x) t1 s1 = .ok () t2 s2) :
    unary key f t s = .done t2 none s2 :=
  TStep.finish_ok (TStep.andThen_ok (need_met deep) (TStep.andThen_ok popped pushed))

theorem binary_done {f : W64 → W64 → W64} (deep : 2 ≤ t.sd) (popB : pop key t s = .ok b t1 s1) (popA : pop key t1 s1 = .ok a t2 s2)
    (pushed : push key (f a b) t2 s2 = .ok () t3 s3) : binary key f t s = .done t3 none s3 :=
  TStep.finish_ok (TStep.andThen_ok (need_met deep) (TStep.andThen_ok popB (TStep.andThen_ok popA pushed)))

/-- A row pops one word and pushes a result if its meaning does so for the instructions of the form. -/
theorem popsOne_of {form : PInstr → Prop} {f : PInstr → W64 → W64} (row : ∀ s, exec c s = act (issue op m key) s)
    (means : ∀ i t s, form i → m key i t s = unary key (f i) t s) : PopsOne c op key form f := by
  intro s t u left x t1 t2 s1 s2 runs formed deep popped pushed
  rw [← iterating_sd u left t] at deep
  exact retires_of row runs ((means _ _ _ formed).trans (unary_done deep popped pushed))

/-- A row pops two words and pushes a result if its meaning does so for the instructions of the form. -/
theorem popsTwo_of {form : PInstr → Prop} {f : PInstr → W64 → W64 → W64} (row : ∀ s, exec c s = act (issue op m key) s)
    (means : ∀ i t s, form i → m key i t s = binary key (f i) t s) : PopsTwo c op key form f := by
  intro s t u left a b t1 t2 t3 s1 s2 s3 runs formed deep popB popA pushed
  rw [← iterating_sd u left t] at deep
  exact retires_of row runs ((means _ _ _ formed).trans (binary_done deep popB popA pushed))

theorem shiftBy_imm {f : W64 → Nat → W64} (form : i.sub < 4) : shiftBy key i f t s = unary key (fun x => f x (i.imm % 64)) t s :=
  if_pos form

theorem shiftBy_stack {f : W64 → Nat → W64} (form : 4 ≤ i.sub) : shiftBy key i f t s = binary key (fun a b => f a (b.toNat % 64)) t s :=
  if_neg (Nat.not_lt.mpr form)

/-- The immediate form of a bit-field instruction takes POS and WID from IMM (R329). -/
theorem fieldArgs_imm {words : Nat} (form : i.sub % 2 = 0) : fieldArgs key i words t s =
    (need words t s).andThen fun _ t s => .ok (i.imm % 64, i.imm / 64 % 128) t s := by
  have pos : bits i.imm 0 6 = i.imm % 64 := bits_zero _ _
  have wid : bits i.imm 6 7 = i.imm / 64 % 128 := bits_div _ _ _
  rw [← pos, ← wid]
  exact if_pos form

/-- The stack form pops WID, then POS (R329). -/
theorem fieldArgs_stack {words : Nat} (form : i.sub % 2 = 1) (deep : words + 2 ≤ t.sd) (popW : pop key t s = .ok w t1 s1)
    (popP : pop key t1 s1 = .ok p t2 s2) : fieldArgs key i words t s = .ok (p.toNat % 64, min 64 (w.toNat % 128)) t2 s2 := by
  rw [fieldArgs, if_neg (by omega)]
  exact TStep.andThen_ok (need_met deep) (TStep.andThen_ok popW (TStep.andThen_ok popP rfl))

/-- Steps in sequence, with the depth checked first, end as one sequence. -/
theorem need_andThen_andThen {α β : Type} {n : Nat} {y : α} {f : α → Thread → State → TStep β} :
    ((need n t s).andThen fun _ t s => .ok y t s).andThen f = (need n t s).andThen fun _ t s => f y t s := by
  unfold need; split <;> rfl

theorem opBfx_imm (form : i.sub % 2 = 0) :
    opBfx key i t s = unary key (fun x => bfx x (i.imm % 64) (i.imm / 64 % 128) (i.sub.testBit 1)) t s := by
  rw [opBfx, fieldArgs_imm form, need_andThen_andThen]
  rfl

theorem opBfi_imm (form : i.sub % 2 = 0) :
    opBfi key i t s = binary key (fun x f => bfi x f (i.imm % 64) (i.imm / 64 % 128)) t s := by
  rw [opBfi, fieldArgs_imm form, need_andThen_andThen]
  rfl

theorem opBfx_stack (form : i.sub % 2 = 1) (deep : 3 ≤ t.sd) (popW : pop key t s = .ok w t1 s1) (popP : pop key t1 s1 = .ok p t2 s2)
    (popX : pop key t2 s2 = .ok x t3 s3)
    (pushed : push key (bfx x (p.toNat % 64) (min 64 (w.toNat % 128)) (i.sub.testBit 1)) t3 s3 = .ok () t4 s4) :
    opBfx key i t s = .done t4 none s4 :=
  TStep.finish_ok (TStep.andThen_ok (fieldArgs_stack form deep popW popP) (TStep.andThen_ok popX pushed))

theorem opBfi_stack (form : i.sub % 2 = 1) (deep : 4 ≤ t.sd) (popW : pop key t s = .ok w t1 s1) (popP : pop key t1 s1 = .ok p t2 s2)
    (popF : pop key t2 s2 = .ok b t3 s3) (popX : pop key t3 s3 = .ok x t4 s4)
    (pushed : push key (bfi x b (p.toNat % 64) (min 64 (w.toNat % 128))) t4 s4 = .ok () t5 s5) :
    opBfi key i t s = .done t5 none s5 :=
  TStep.finish_ok (TStep.andThen_ok (fieldArgs_stack form deep popW popP) (TStep.andThen_ok popF (TStep.andThen_ok popX pushed)))

end

/-- Settles O13: both stack forms take WID and POS by `fieldArgs_stack`, then pop their words and push the field's result. -/
theorem pyratStackFields : Obligations.PyratStackFields := by
  intro tile ctx s t u left w p t1 t2 s1 s2 key form popW popP
  refine ⟨fun x t3 t4 s3 s4 runs deep popX pushed => ?_, fun f x t3 t4 t5 s3 s4 s5 runs deep popF popX pushed => ?_⟩
  all_goals rw [← iterating_sd u left t] at deep
  · exact retires_of (fun _ => rfl) runs (opBfx_stack form deep popW popP popX pushed)
  · exact retires_of (fun _ => rfl) runs (opBfi_stack form deep popW popP popF popX pushed)

/-- Settles O11: each row's meaning is `unary`, by definition or by the lemma on its immediate form. -/
theorem pyratUnary : Obligations.PyratUnary := by
  intro tile ctx key
  refine ⟨popsOne_of (fun _ => rfl) fun _ _ _ _ => rfl, popsOne_of (fun _ => rfl) fun _ _ _ _ => rfl,
    popsOne_of (fun _ => rfl) fun _ _ _ _ => rfl, popsOne_of (fun _ => rfl) fun _ _ _ _ => rfl,
    popsOne_of (fun _ => rfl) fun _ _ _ _ => rfl, ?shl, ?shr, ?sar, ?rol, ?bfx⟩
  case bfx => exact popsOne_of (fun _ => rfl) fun _ _ _ => opBfx_imm
  all_goals exact popsOne_of (fun _ => rfl) fun _ _ _ => shiftBy_imm

/-- Settles O12: each row's meaning is `binary`, by definition or by the lemma on its form. -/
theorem pyratBinary : Obligations.PyratBinary := by
  intro tile ctx key
  refine ⟨?_, ?_, ?_, ?_, ?_, ?_, ?_, ?_, ?_, ?_, ?_, ?shl, ?shr, ?sar, ?rol, ?bfi⟩
  case bfi => exact popsTwo_of (fun _ => rfl) fun _ _ _ => opBfi_imm
  case shl | shr | sar | rol => exact popsTwo_of (fun _ => rfl) fun _ _ _ => shiftBy_stack
  all_goals exact popsTwo_of (fun _ => rfl) fun _ _ _ _ => rfl

end Sys2Proof.Machine

namespace Sys2Proof.Machine

open Sys2Proof

/-! ### Stack instructions and the words that only push (R326, R333, R340) -/

section
variable {c : Instr} {op : POp} {m : Meaning} {key : Nat} {i : PInstr} {t t1 t2 t3 t4 : Thread} {s s1 s2 s3 s4 : State} {a b d x : W64}

/-- A sequence of one step is that step. -/
theorem TStep.andThen_self (y : TStep Unit) : y.andThen (fun _ t s => .ok () t s) = y := by cases y <;> rfl

theorem pushAll_one : pushAll key [x] t s = push key x t s := TStep.andThen_self _

theorem opDup_done (deep : 1 ≤ t.sd) (popped : pop key t s = .ok x t1 s1) (pushed : pushAll key [x, x] t1 s1 = .ok () t2 s2) :
    opDup key i t s = .done t2 none s2 :=
  TStep.finish_ok (TStep.andThen_ok (need_met deep) (TStep.andThen_ok popped pushed))

theorem opDrop_done (deep : 1 ≤ t.sd) (popped : pop key t s = .ok x t1 s1) : opDrop key i t s = .done t1 none s1 :=
  TStep.finish_ok (TStep.andThen_ok (need_met deep) (TStep.andThen_ok popped rfl))

theorem opSwap_done (deep : 2 ≤ t.sd) (popB : pop key t s = .ok b t1 s1) (popA : pop key t1 s1 = .ok a t2 s2)
    (pushed : pushAll key [b, a] t2 s2 = .ok () t3 s3) : opSwap key i t s = .done t3 none s3 :=
  TStep.finish_ok (TStep.andThen_ok (need_met deep) (TStep.andThen_ok popB (TStep.andThen_ok popA pushed)))

theorem opOver_done (deep : 2 ≤ t.sd) (popB : pop key t s = .ok b t1 s1) (popA : pop key t1 s1 = .ok a t2 s2)
    (pushed : pushAll key [a, b, a] t2 s2 = .ok () t3 s3) : opOver key i t s = .done t3 none s3 :=
  TStep.finish_ok (TStep.andThen_ok (need_met deep) (TStep.andThen_ok popB (TStep.andThen_ok popA pushed)))

theorem opRot_done (deep : 3 ≤ t.sd) (popC : pop key t s = .ok d t1 s1) (popB : pop key t1 s1 = .ok b t2 s2)
    (popA : pop key t2 s2 = .ok a t3 s3) (pushed : pushAll key [b, d, a] t3 s3 = .ok () t4 s4) : opRot key i t s = .done t4 none s4 :=
  TStep.finish_ok (TStep.andThen_ok (need_met deep) (TStep.andThen_ok popC (TStep.andThen_ok popB (TStep.andThen_ok popA pushed))))

theorem opPick_done (deep : i.imm < t.sd) (pushed : push key (t.at' i.imm) t s = .ok () t1 s1) : opPick key i t s = .done t1 none s1 :=
  TStep.finish_ok (TStep.andThen_ok (need_met deep) pushed)

theorem opRdwait_done (pushed : push key (BitVec.ofNat 64 (t.waited.toNat + 2 ^ 32 * t.waitRes.toNat)) t s = .ok () t1 s1) :
    opRdwait key i t s = .done (if i.imm.testBit 0 then { t1 with waited := 0, waitRes := 0 } else t1) none s1 :=
  TStep.finish_ok (TStep.andThen_ok pushed rfl)

/-- A row only pushes if its meaning does. -/
theorem pushesOnly_of {f : PInstr → Thread → List W64} (row : ∀ s, exec c s = act (issue op m key) s)
    (means : ∀ i t s, m key i t s = (pushAll key (f i t) t s).finish) : PushesOnly c op key f := by
  intro s t u left t1 s1 runs pushed
  exact retires_of row runs ((means _ _ _).trans (TStep.finish_ok pushed))

/-- The immediate of PUSHI is extended by its bit 15 (R326). -/
theorem ofInt_signed16 (imm : Nat) : BitVec.ofInt 64 (signed 16 imm) = (BitVec.ofNat 16 imm).signExtend 64 := by
  have value : signed 16 imm = (BitVec.ofNat 16 imm).toInt := by
    rw [signed, BitVec.toInt_eq_msb_cond, BitVec.msb_eq_getLsbD_last, BitVec.getLsbD, BitVec.toNat_ofNat]
  rw [value, BitVec.signExtend]

theorem ofNat_b2n (p : Bool) : BitVec.ofNat 64 (b2n p) = if p then 1 else 0 := by cases p <;> rfl

@[simp] theorem iterating_waited (u : PUnit) (left : Nat) (t : Thread) : (iterating u left t).waited = t.waited := by
  simp only [iterating]; split <;> rfl

@[simp] theorem iterating_waitRes (u : PUnit) (left : Nat) (t : Thread) : (iterating u left t).waitRes = t.waitRes := by
  simp only [iterating]; split <;> rfl

end

/-- Settles O15: each instruction's meaning is done under its clause's premises, and `retires_of` carries it to the row's answer; the rows
that only push are `pushesOnly_of`. -/
theorem pyratStack : Obligations.PyratStack := by
  intro tile ctx key
  refine ⟨fun s t u left runs => ?nop, fun s t u left x t1 s1 t2 s2 runs deep popped pushed => ?dup,
    fun s t u left x t1 s1 runs deep popped => ?drop, fun s t u left a b t1 s1 t2 s2 t3 s3 runs deep popB popA pushed => ?swap,
    fun s t u left a b t1 s1 t2 s2 t3 s3 runs deep popB popA pushed => ?over_,
    fun s t u left a b c t1 s1 t2 s2 t3 s3 t4 s4 runs deep popC popB popA pushed => ?rot, fun s t u left t1 s1 runs deep pushed => ?pick,
    ?pushi, ?pto, ?rds, ?sgrd, fun s t u left t1 s1 runs pushed => ?rdwait⟩
  case nop => exact retires_of (fun _ => rfl) runs rfl
  case pushi =>
    refine pushesOnly_of (fun _ => rfl) fun i t s => ?_
    rw [pushAll_one, opPushi, ofInt_signed16]
  case pto =>
    refine pushesOnly_of (fun _ => rfl) fun i t s => ?_
    rw [pushAll_one, opPto, ofNat_b2n]
  case rds => exact pushesOnly_of (fun _ => rfl) fun i t s => by rw [pushAll_one, opRds]
  case sgrd => exact pushesOnly_of (fun _ => rfl) fun i t s => rfl
  case rdwait =>
    rw [← iterating_waited u left t, ← iterating_waitRes u left t] at pushed
    exact retires_of (fun _ => rfl) runs (opRdwait_done pushed)
  all_goals rw [← iterating_sd u left t] at deep
  case dup => exact retires_of (fun _ => rfl) runs (opDup_done deep popped pushed)
  case drop => exact retires_of (fun _ => rfl) runs (opDrop_done deep popped)
  case swap => exact retires_of (fun _ => rfl) runs (opSwap_done deep popB popA pushed)
  case over_ => exact retires_of (fun _ => rfl) runs (opOver_done deep popB popA pushed)
  case rot => exact retires_of (fun _ => rfl) runs (opRot_done deep popC popB popA pushed)
  case pick => exact retires_of (fun _ => rfl) runs (opPick_done deep pushed)

end Sys2Proof.Machine

namespace Sys2Proof.Machine

open Sys2Proof

/-! ### Products, predicates and special registers (R299, R307, R331–R333, R340) -/

section
variable {key : Nat} {i : PInstr} {t t1 t2 : Thread} {s s1 s2 : State} {a b x : W64}

theorem startMul_done {f : W64 → W64 → BitVec 128} (deep : 2 ≤ t.sd) (popB : pop key t s = .ok b t1 s1)
    (popA : pop key t1 s1 = .ok a t2 s2) : startMul key f t s =
      .done { t2 with muls := t2.muls ++ [⟨0, (f a b).setWidth 64, (f a b >>> 64).setWidth 64⟩] } none s2 :=
  TStep.finish_ok (TStep.andThen_ok (need_met deep) (TStep.andThen_ok popB (TStep.andThen_ok popA rfl)))

/-- The halves of a 128-bit word that spells an integer. -/
theorem ofInt_halves (x : Int) : (BitVec.ofInt 128 x).setWidth 64 = BitVec.ofInt 64 x
    ∧ (BitVec.ofInt 128 x >>> 64).setWidth 64 = BitVec.ofInt 64 (x / 2 ^ 64) := by
  constructor
  all_goals
    apply BitVec.eq_of_toNat_eq
    simp only [BitVec.toNat_setWidth, BitVec.toNat_ushiftRight, BitVec.toNat_ofInt, Nat.shiftRight_eq_div_pow]
    omega

/-- The halves of the unsigned product (R331). -/
theorem unsignedProduct_halves (a b : W64) :
    (a.setWidth 128 * b.setWidth 128).setWidth 64 = BitVec.ofNat 64 (a.toNat * b.toNat)
      ∧ ((a.setWidth 128 * b.setWidth 128) >>> 64).setWidth 64 = BitVec.ofNat 64 (a.toNat * b.toNat / 2 ^ 64) := by
  have product : a.setWidth 128 * b.setWidth 128 = BitVec.ofInt 128 (a.toNat * b.toNat : Nat) := by
    rw [BitVec.ofInt_natCast, BitVec.ofNat_mul, BitVec.ofNat_toNat, BitVec.ofNat_toNat]
  rw [product]
  exact ofInt_halves (a.toNat * b.toNat : Nat)

/-- The halves of the signed product (R331). -/
theorem signedProduct_halves (a b : W64) :
    (a.signExtend 128 * b.signExtend 128).setWidth 64 = BitVec.ofInt 64 (a.toInt * b.toInt)
      ∧ ((a.signExtend 128 * b.signExtend 128) >>> 64).setWidth 64 = BitVec.ofInt 64 (a.toInt * b.toInt / 2 ^ 64) := by
  have product : a.signExtend 128 * b.signExtend 128 = BitVec.ofInt 128 (a.toInt * b.toInt) := by
    rw [BitVec.ofInt_mul, BitVec.signExtend, BitVec.signExtend]
  rw [product]
  exact ofInt_halves _

theorem opCmp_done (deep : 2 ≤ t.sd) (popB : pop key t s = .ok b t1 s1) (popA : pop key t1 s1 = .ok a t2 s2) :
    opCmp key i t s = .done (t2.setPred i.imm (compare i.sub a b)) none s2 :=
  TStep.finish_ok (TStep.andThen_ok (need_met deep) (TStep.andThen_ok popB (TStep.andThen_ok popA rfl)))

theorem opPfrom_done (deep : 1 ≤ t.sd) (popped : pop key t s = .ok x t1 s1) :
    opPfrom key i t s = .done (t1.setPred i.imm (x != 0)) none s1 :=
  TStep.finish_ok (TStep.andThen_ok (need_met deep) (TStep.andThen_ok popped rfl))

theorem opWrs_done (writable : i.imm < 5) (deep : 1 ≤ t.sd) (popped : pop key t s = .ok x t1 s1) :
    opWrs key i t s = .done (t1.setSpecial i.imm x) none s1 :=
  (if_neg (Nat.not_le.mpr writable)).trans (TStep.finish_ok (TStep.andThen_ok (need_met deep) (TStep.andThen_ok popped rfl)))

theorem opPlog_done : opPlog key i t s =
    .done (t.setPred (i.imm % 8) (plog i.sub (t.pred (i.imm / 8 % 8)) (t.pred (i.imm / 64 % 8)))) none s := by
  simp only [opPlog, bits_div, Nat.pow_zero, Nat.div_one, Nat.reducePow]

/-- What each condition of CMP means (R332). -/
theorem compare_conditions (a b : W64) : (compare 0 a b = true ↔ a = b) ∧ (compare 1 a b = true ↔ a ≠ b)
    ∧ (compare 2 a b = true ↔ a.toInt < b.toInt) ∧ (compare 3 a b = true ↔ a.toInt ≤ b.toInt)
    ∧ (compare 4 a b = true ↔ b.toInt < a.toInt) ∧ (compare 5 a b = true ↔ b.toInt ≤ a.toInt)
    ∧ (compare 6 a b = true ↔ a < b) ∧ (compare 7 a b = true ↔ a ≤ b)
    ∧ (compare 8 a b = true ↔ b < a) ∧ (compare 9 a b = true ↔ b ≤ a) :=
  ⟨beq_iff_eq, bne_iff_ne, decide_eq_true_iff, decide_eq_true_iff, decide_eq_true_iff, decide_eq_true_iff, decide_eq_true_iff,
    decide_eq_true_iff, decide_eq_true_iff, decide_eq_true_iff⟩

/-- A predicate reads what was written to it last, except that P0 stays true (R299). -/
theorem pred_setPred (t : Thread) {p q : Nat} (v : Bool) (hp : p < 8) (hq : q < 8) :
    (t.setPred p v).pred q = (if q = 0 then true else if q = p then v else t.pred q) := by
  by_cases always : q = 0
  · subst always; rfl
  by_cases ignored : p = 0
  · simp [Thread.setPred, ignored, always]
  simp only [Thread.setPred, Thread.pred, Nat.mod_eq_of_lt hp, Nat.mod_eq_of_lt hq, if_neg ignored, if_neg always]
  by_cases same : q = p
  · cases v with
    | false => simp [same, ignored, hp]
    | true => simp [same, hp]
  · cases v with
    | false => simp [same, hq]
    | true => simp [same, Ne.symm same]

end

/-- Settles O17: each instruction's meaning is done under its clause's premises, a product's halves are those of the 128-bit product, and
the conditions and predicates are `compare_conditions` and `pred_setPred`. -/
theorem pyratResults : Obligations.PyratResults := by
  refine ⟨fun tile ctx s t u left a b t1 t2 s1 s2 popB popA deep => ⟨fun runs => ?mul, fun runs => ?mulh, fun runs => ?cmp⟩,
    fun tile ctx s t u left x t1 s1 popped deep => ⟨fun runs => ?pfrom, fun runs writable => ?wrs⟩,
    fun tile ctx s t u left runs => ?plog, compare_conditions, fun t p q v hp hq => pred_setPred t v hp hq⟩
  case plog => exact retires_of (fun _ => rfl) runs opPlog_done
  all_goals rw [← iterating_sd u left t] at deep
  case mul =>
    rw [← (unsignedProduct_halves a b).1, ← (unsignedProduct_halves a b).2]
    exact retires_of (fun _ => rfl) runs (startMul_done deep popB popA)
  case mulh =>
    rw [← (signedProduct_halves a b).1, ← (signedProduct_halves a b).2]
    exact retires_of (fun _ => rfl) runs (startMul_done deep popB popA)
  case cmp => exact retires_of (fun _ => rfl) runs (opCmp_done deep popB popA)
  case pfrom => exact retires_of (fun _ => rfl) runs (opPfrom_done deep popped)
  case wrs => exact retires_of (fun _ => rfl) runs (opWrs_done writable deep popped)

end Sys2Proof.Machine

namespace Sys2Proof.Machine

open Sys2Proof

/-! ### A false guard and faults (R298, R300, R303, R304, R317) -/

section
variable {c : Instr} {op : POp} {m : Meaning} {key left status : Nat} {i : PInstr} {u : PUnit} {jump : Option Nat} {t t1 : Thread}
  {s s1 : State} {xi : Option W64} {xf x : W64}

/-- An iteration whose guard is false retires and does nothing else (R300). -/
theorem issue_falseGuard (issues : Issues op key s t u left) (m : Meaning) (untrue : (iterating u left t).guard u.ins = false) :
    issue op m key s = putThread key (retire key u left none (iterating u left t)) s := by
  rw [issue_runs issues]
  simp only [iterating] at untrue ⊢
  simp only [iterate, untrue, Bool.not_false, if_true]

theorem iterating_once (once : u.rep = .once) : iterating u left t = t := if_pos once

/-- A change of the context that has just been put is put at once. -/
theorem modThread_putThread (key : Nat) (t : Thread) (f : Thread → Thread) (s : State) :
    modThread key f (putThread key t s) = putThread key (f t) s := by
  simp only [modThread, putThread, kvMod_kvSet]

/-- An instruction that faults outside a repeat ends its thread with the XI and XF it records (R317). -/
theorem issue_fault (runs : Runs op key s t u left) (once : u.rep = .once) (faults : m key u.ins t s = .fault status xi xf s1) :
    issue op m key s = endFaulted key status (putThread key { t with xi := xi.getD t.xi, xf := xf } s1) := by
  have guard := runs.guard
  rw [iterating_once once] at guard
  rw [issue_runs runs.issues]
  simp only [iterate, once, if_true, guard, Bool.not_true, Bool.false_eq_true, if_false, faults, threadFault, modThread_putThread]

theorem answers_fault (row : ∀ s, exec c s = act (issue op m key) s) (runs : Runs op key s t u left) (once : u.rep = .once)
    (faults : m key u.ins t s = .fault status xi xf s1) :
    Answers c s (endFaulted key status (putThread key { t with xi := xi.getD t.xi, xf := xf } s1)) :=
  answers_act (row s) runs.issues.awake (issue_fault runs once faults)

/-- A step that stops the instruction is followed by none. -/
theorem TStep.andThen_stop {α β : Type} {y : TStep α} {r : Run} {f : α → Thread → State → TStep β} (stops : y = .stop r) :
    y.andThen f = .stop r := by
  rw [stops]; rfl

theorem TStep.finish_stop {α : Type} {y : TStep α} {r : Run} (stops : y = .stop r) : y.finish = r := by
  rw [stops]; rfl

/-! ### Underflow (R298) -/

theorem need_short {n : Nat} (short : t.sd < n) : need n t s = .stop (plainFault stState s) := if_pos short

/-- An instruction that checks its depth first ends by ERR_STATE when it is short of operands. -/
theorem short_finish {α : Type} {n : Nat} (short : t.sd < n) (f : Unit → Thread → State → TStep α) :
    ((need n t s).andThen f).finish = plainFault stState s :=
  TStep.finish_stop (TStep.andThen_stop (need_short short))

theorem condBranch_short (short : t.sd < 1) (taken : W64 → Bool) : condBranch key i taken t s = plainFault stState s := by
  simp only [condBranch, TStep.andThen_stop (need_short short)]

theorem indirect_short (short : t.sd < 1) (ret : Option W64) : indirect key ret t s = plainFault stState s := by
  simp only [indirect, TStep.andThen_stop (need_short short)]

/-- XF of a fault by ERR_STATE names SEG 0 and ADDR 0 (R317). -/
theorem xfWord_state : xfWord stState 0 false 0 = BitVec.ofNat 64 stState := by decide

/-- A row whose meaning ends by ERR_STATE records its status with SEG 0 and ADDR 0 (R298, R317). -/
theorem answers_short (row : ∀ s, exec c s = act (issue op m key) s) (runs : Runs op key s t u left) (once : u.rep = .once)
    (short : m key u.ins t s = plainFault stState s) :
    Answers c s (endFaulted key stState (putThread key { t with xf := BitVec.ofNat 64 stState } s)) := by
  rw [plainFault, xfWord_state] at short
  have ends := answers_fault row runs once short
  rwa [Option.getD_none] at ends

/-! ### Refused accesses (R303, R304) -/

/-- An access of at least one byte beyond LIMIT or without its right is refused (R303). -/
theorem allows_refused {g : Seg} {right : Seg → Bool} {o n : Nat} (nonempty : 0 < n) (refused : g.limit < o + n ∨ right g = false) :
    g.allows right o n = false := by
  have nonzero : n ≠ 0 := Nat.ne_of_gt nonempty
  obtain beyond | lacks := refused
  · have unfit : g.fits o n = false := decide_eq_false (Nat.not_le.mpr beyond)
    simp only [Seg.allows, decide_eq_false nonzero, unfit, Bool.false_and, Bool.or_self]
  · simp only [Seg.allows, decide_eq_false nonzero, lacks, Bool.and_false, Bool.or_self]

theorem threadRead_refused {k : Fin 8} {o n : Nat} {ecc : Ecc} (nonempty : 0 < n) (refused : (t.segs[k]).limit < o + n ∨ (t.segs[k]).r = false) :
    threadRead key k o n ecc t s = .stop (segFaultRun t k o false s) := by
  simp only [threadRead, allows_refused (right := (·.r)) nonempty refused, Bool.not_false, if_true]

theorem threadStore_refused {k : Fin 8} {o : Nat} {bs : List Byte} (nonempty : 0 < bs.length)
    (refused : (t.segs[k]).limit < o + bs.length ∨ (t.segs[k]).w = false) :
    threadStore key k o bs t s = .stop (segFaultRun t k o true s) := by
  simp only [threadStore, allows_refused (right := (·.w)) nonempty refused, Bool.not_false, if_true]

/-- The direct form of an access pops no base (R334). -/
theorem accessOff_direct (direct : i.sub.testBit 3 = false) : accessOff key i t s = .ok (immOff i.imm) t s :=
  if_neg (Bool.eq_false_iff.mp direct)

theorem baseWords_direct (direct : i.sub.testBit 3 = false) : baseWords i = 0 := by rw [baseWords, direct]; rfl

theorem opLd_refused {ecc : Ecc} (direct : i.sub.testBit 3 = false)
    (refused : (t.segs[immSeg i.imm]).limit < immOff i.imm + 2 ^ (i.sub % 4) ∨ (t.segs[immSeg i.imm]).r = false) :
    opLd ecc key i t s = segFaultRun t (immSeg i.imm) (immOff i.imm) false s :=
  have deep : baseWords i ≤ t.sd := by rw [baseWords_direct direct]; exact Nat.zero_le _
  TStep.finish_stop (TStep.andThen_ok (need_met deep) (TStep.andThen_ok (accessOff_direct direct)
    (TStep.andThen_stop (threadRead_refused (Nat.two_pow_pos _) refused))))

theorem opSt_refused (direct : i.sub.testBit 3 = false) (deep : 1 ≤ t.sd) (inSlots : t.sd ≤ 16)
    (refused : (t.segs[immSeg i.imm]).limit < immOff i.imm + 2 ^ (i.sub % 4) ∨ (t.segs[immSeg i.imm]).w = false) :
    opSt key i t s = segFaultRun t (immSeg i.imm) (immOff i.imm) true s := by
  have words : baseWords i + 1 ≤ t.sd := by rw [baseWords_direct direct]; exact deep
  have length := toBytes_length (2 ^ (i.sub % 4)) (t.at' 0).toNat
  have store : threadStore key (immSeg i.imm) (immOff i.imm) (toBytes (2 ^ (i.sub % 4)) (t.at' 0).toNat) { t with sd := t.sd - 1 } s
      = .stop (segFaultRun t (immSeg i.imm) (immOff i.imm) true s) :=
    threadStore_refused (length.symm ▸ Nat.two_pow_pos _) (length.symm ▸ refused)
  exact TStep.finish_stop (TStep.andThen_ok (need_met words) (TStep.andThen_ok (accessOff_direct direct)
    (TStep.andThen_ok (pop_slots inSlots) store)))

/-- A row whose meaning ends in a refused access records the segment's LIMIT and what it accessed (R304). -/
theorem answers_segFault {k : Fin 8} {o : Nat} {write : Bool} (row : ∀ s, exec c s = act (issue op m key) s)
    (runs : Runs op key s t u left) (once : u.rep = .once) (faults : m key u.ins t s = segFaultRun t k o write s) :
    Answers c s (endFaulted key stSegment (putThread key
      { t with xi := BitVec.ofNat 64 (t.segs[k]).limit, xf := xfWord stSegment k.val write ((t.segs[k]).va o) } s)) := by
  rw [segFaultRun] at faults
  have ends := answers_fault row runs once faults
  rwa [Option.getD_some] at ends

end

/-- Settles O23: every row issues (`exec_pyratRow`), and the issue of a false guard is `issue_falseGuard`. -/
theorem pyratFalseGuard : Obligations.PyratFalseGuard := by
  intro c op key s t u left row issues untrue
  obtain ⟨m, acts⟩ := exec_pyratRow row
  exact answers_act (acts s) issues.awake (issue_falseGuard issues m untrue)

/-- Settles O25: each of the rows checks its depth first, by `need`, and the fault it ends with is carried by `answers_short`. -/
theorem pyratUnderflow : Obligations.PyratUnderflow := by
  rintro c op key n s t u left ⟨tile, ctx, rfl, listed⟩ runs once short
  simp only [List.mem_cons, Prod.mk.injEq, List.not_mem_nil, or_false] at listed
  obtain ⟨rfl, rfl, rfl⟩ | ⟨rfl, rfl, rfl⟩ | ⟨rfl, rfl, rfl⟩ | ⟨rfl, rfl, rfl⟩ | ⟨rfl, rfl, rfl⟩ | ⟨rfl, rfl, rfl⟩ | ⟨rfl, rfl, rfl⟩
    | ⟨rfl, rfl, rfl⟩ | ⟨rfl, rfl, rfl⟩ | ⟨rfl, rfl, rfl⟩ | ⟨rfl, rfl, rfl⟩ | ⟨rfl, rfl, rfl⟩ := listed
  iterate 10 exact answers_short (fun _ => rfl) runs once (short_finish short _)
  · exact answers_short (fun _ => rfl) runs once (condBranch_short short _)
  · exact answers_short (fun _ => rfl) runs once (indirect_short short _)

/-- Settles O19: the access stops with the segment's fault, which `answers_segFault` carries to the row's answer. -/
theorem pyratSegmentFault : Obligations.PyratSegmentFault := by
  intro tile ctx s t u left key i g n once direct
  exact ⟨fun runs refused ecc => answers_segFault (fun _ => rfl) runs once (opLd_refused direct refused),
    fun runs deep inSlots refused => answers_segFault (fun _ => rfl) runs once (opSt_refused direct deep inSlots refused)⟩

end Sys2Proof.Machine

namespace Sys2Proof.Machine

open Sys2Proof

/-! ### The count of a REPI (R312, R313) -/

section
variable {op : POp} {m : Meaning} {key : Nat} {u : PUnit} {t : Thread} {s : State}

/-- A context that begins a REPI unit takes the unit's count. -/
theorem issue_repi (m : Meaning) (held : threadAt key s = some t) (ready : canIssue t s = true)
    (fetched : fetchUnit (t.code s) t.pc = .unit u) (repi : u.rep = .repi) (fresh : t.rep = none) :
    issue u.ins.op m key s = repiStart m key u t s := by
  simp only [issue, held, ready, fetched, runUnit, fresh, repi, Bool.not_true, Bool.false_eq_true, if_false, ne_eq, not_true_eq_false]

theorem repiStart_zero (stacked : xcResume t.xc = false) (deep : 1 ≤ t.sd) (inSlots : t.sd ≤ 16) (zero : t.at' 0 = 0)
    (closed : t.shadow = none) : repiStart m key u t s = putThread key { t with sd := t.sd - 1, xc := 0, pc := t.pc + u.len } s := by
  simp only [repiStart, stacked, Nat.not_lt.mpr deep, zero, pop_slots inSlots, Thread.advance, closed, Bool.false_eq_true, if_false]
  rfl

theorem repiStart_tooMany (stacked : xcResume t.xc = false) (deep : 1 ≤ t.sd) (many : 2 ^ 32 < (t.at' 0).toNat) :
    repiStart m key u t s = endFaulted key stMalformed (modThread key (fun x => { x with xf := xfWord stMalformed 0 false 0 }) s) := by
  simp only [repiStart, stacked, Nat.not_lt.mpr deep, many, Bool.false_eq_true, if_false, if_true]
  rfl

end

/-- Settles O26: every row issues (`exec_pyratRow`), and what the count does to the unit is `repiStart_zero` and `repiStart_tooMany`. -/
theorem pyratRepiCount : Obligations.PyratRepiCount := by
  rintro c _ key s t u row awake held ready fetched rfl repi fresh stacked deep inSlots
  obtain ⟨m, acts⟩ := exec_pyratRow row
  have takes := issue_repi m held ready fetched repi fresh
  exact ⟨fun zero closed => answers_act (acts s) awake (takes.trans (repiStart_zero stacked deep inSlots zero closed)),
    fun many => answers_act (acts s) awake (takes.trans (repiStart_tooMany stacked deep many))⟩

end Sys2Proof.Machine

namespace Sys2Proof.Machine

open Sys2Proof

/-! ### Control instructions (R337–R339) -/

section
variable {key : Nat} {i : PInstr} {t t1 t2 : Thread} {s s1 s2 : State} {x r : W64}

/-- BZ, BNZ and the indirect transfers begin alike: on a stack that is deep enough they pop one word. -/
theorem need_pop (deep : 1 ≤ t.sd) (popped : pop key t s = .ok x t1 s1) :
    ((need 1 t s).andThen fun _ t s => pop key t s) = .ok x t1 s1 :=
  TStep.andThen_ok (need_met deep) popped

theorem condBranch_done {taken : W64 → Bool} (deep : 1 ≤ t.sd) (popped : pop key t s = .ok x t1 s1) :
    condBranch key i taken t s = .done t1 (if taken x then some (relTarget i (branchStart t i s)) else none) s1 := by
  rw [condBranch, need_pop deep popped]

theorem opBz_done (deep : 1 ≤ t.sd) (popped : pop key t s = .ok x t1 s1) :
    opBz key i t s = .done t1 (if x = 0 then some (relTarget i (branchStart t i s)) else none) s1 := by
  rw [opBz, condBranch_done deep popped]
  simp only [beq_iff_eq]

theorem opBnz_done (deep : 1 ≤ t.sd) (popped : pop key t s = .ok x t1 s1) :
    opBnz key i t s = .done t1 (if x = 0 then none else some (relTarget i (branchStart t i s))) s1 := by
  rw [opBnz, condBranch_done deep popped]
  simp only [bne_iff_ne, ite_not]

/-- BRI and RET take an even popped target (R338). -/
theorem indirect_jumps (deep : 1 ≤ t.sd) (popped : pop key t s = .ok x t1 s1) (even : x.toNat % 2 = 0) :
    indirect key none t s = .done t1 (some x.toNat) s1 := by
  have notOdd : ¬ x.toNat % 2 = 1 := by omega
  rw [indirect, need_pop deep popped]
  exact if_neg notOdd

/-- CALLI takes an even popped target once its return offset is pushed (R338). -/
theorem indirect_calls (deep : 1 ≤ t.sd) (popped : pop key t s = .ok x t1 s1) (even : x.toNat % 2 = 0)
    (pushed : push key r t1 s1 = .ok () t2 s2) : indirect key (some r) t s = .done t2 (some x.toNat) s2 := by
  have notOdd : ¬ x.toNat % 2 = 1 := by omega
  rw [indirect, need_pop deep popped]
  simp only [if_neg notOdd, pushed]

theorem opCall_done (pushed : push key (returnOff key t s) t s = .ok () t1 s1) :
    opCall key i t s = .done t1 (some (relTarget i (branchStart t i s))) s1 := by
  rw [opCall, pushed]

end

/-- Settles O20: each instruction's meaning is done under its clause's premises, and `retires_of` carries it to the row's answer. -/
theorem pyratControl : Obligations.PyratControl := by
  intro tile ctx s t u left key t0 tgt
  have depth : t0.sd = t.sd := iterating_sd u left t
  refine ⟨fun runs => ?br, fun x t1 s1 popped deep => ?pops, fun t1 s1 pushed runs => ?call, fun runs => ?end_⟩
  case br => exact retires_of (fun _ => rfl) runs rfl
  case call => exact retires_of (fun _ => rfl) runs (opCall_done pushed)
  case end_ => exact retires_of (fun _ => rfl) runs rfl
  case pops =>
    rw [← depth] at deep
    refine ⟨fun runs => ?bz, fun runs => ?bnz, fun even runs => ?bri, fun even runs => ?ret, fun t2 s2 even pushed runs => ?calli⟩
    case bz => exact retires_of (fun _ => rfl) runs (opBz_done deep popped)
    case bnz => exact retires_of (fun _ => rfl) runs (opBnz_done deep popped)
    case bri => exact retires_of (fun _ => rfl) runs (indirect_jumps deep popped even)
    case ret => exact retires_of (fun _ => rfl) runs (indirect_jumps deep popped even)
    case calli => exact retires_of (fun _ => rfl) runs (indirect_calls deep popped even pushed)

end Sys2Proof.Machine

namespace Sys2Proof.Machine

open Sys2Proof

/-! ### Words of the encoding tables (R320–R325, R329) -/

section
variable {i : PInstr} {w : Nat}

/-- A word that is the 32-bit form of a well-formed instruction decodes to it (R321). -/
theorem decodeLong_of_encodeLong (wf : i.wf = true) (word : encodeLong i = w) : decodeLong w = some i :=
  word ▸ decodeLong_encodeLong wf

/-- A word whose MAJOR and SUB select no operation is malformed (R322, R325). -/
theorem decodeLong_unassigned (unassigned : opOf (bits w 4 6) (bits w 0 4) = none) : decodeLong w = none := by
  rw [decodeLong, unassigned]

end

/-- Settles O10: the 32-bit words are the encodings of their instructions, but for one whose SUB is unassigned; the short forms and
the unit with a prefix are computed. -/
theorem pyratWordsDecode : Obligations.PyratWordsDecode := by
  refine ⟨?bfx, ?add, ?ld, ?cmp, ?unassigned, ?nop, ?shortAdd, ?pushi, ?repu⟩
  case bfx | add | ld | cmp => exact decodeLong_of_encodeLong (by decide) (by decide)
  case unassigned => exact decodeLong_unassigned (by decide)
  case nop | shortAdd | pushi | repu => decide

end Sys2Proof.Machine

namespace Sys2Proof.Machine

open Sys2Proof

/-! ### The queue, the passage of time, and background work that is done (95; 04, Model; 22) -/

/-- Time that passes within a beat never takes the phase back (R69). -/
theorem phase_le_laterPhase (phase : BitVec 16) (free : W64) : phase.toNat ≤ (laterPhase phase free).toNat := by
  have room : 0 < 65536 - phase.toNat := Nat.sub_pos_of_lt phase.isLt
  have within : free.toNat % (65536 - phase.toNat) < 65536 - phase.toNat := Nat.mod_lt _ room
  rw [laterPhase, BitVec.toNat_ofNat, Nat.mod_eq_of_lt (by omega)]
  exact Nat.le_add_right _ _

theorem step_empty {s : State} (empty : s.pending = []) : step s = .next (idle s) := by rw [step, empty]

theorem idle_stopped {s : State} (stopped : operational s = false) : idle s = s := by
  rw [idle, if_neg (Bool.not_eq_true _ ▸ stopped)]

theorem idle_operational {s : State} (works : operational s = true) : idle s =
    settle { s with freeCtr := s.freeCtr + 1, gg := { s.gg with phase := laterPhase s.gg.phase (Config.freeValue s.freeCtr) } } :=
  if_pos works

theorem goesOn_act (f : State → State) (s : State) : goesOn (act f s) = true := rfl
theorem goesOn_actAny (f : State → State) (s : State) : goesOn (actAny f s) = true := rfl

/-- Settles O1: the front of the queue is its head. -/
theorem stepRunsFrontCommand : Obligations.StepRunsFrontCommand := fun _ _ _ => rfl

/-- Settles O2: an operational module idles to a later phase, any other stays as it is. -/
theorem emptyQueueIdles : Obligations.EmptyQueueIdles := fun s empty =>
  ⟨fun stopped => by rw [step_empty empty, idle_stopped stopped],
    fun works => ⟨_, phase_le_laterPhase s.gg.phase (Config.freeValue s.freeCtr), by rw [step_empty empty, idle_operational works]⟩⟩

/-- Settles O3: every row is an `act`, or an `actAny` if it acts in every phase. -/
theorem everyCommandGoesOn : Obligations.EveryCommandGoesOn := by
  intro c s
  cases c with
  | monitorSample | thermTrip | pwrBrakeAssert | pwrBrakeDeassert | powerGood | inputVoltageExcursion | railExcursion
  | modResetAssert | modResetDeassert | warmResetAssert | warmResetDeassert | perstAssert | perstDeassert
  | quiesceComplete | quiesceTimeout | castOnS1 | castOnS2 | castOnS3 | castOnS4 | castOnS5 | castOnS7
  | stageTimeExceeded | closeResume | auxInputRemoved => exact goesOn_actAny _ s
  | _ => exact goesOn_act _ s

/-- Settles O4: settling begins with the test for quiet. -/
theorem quietSettles : Obligations.QuietSettles := fun _ still => if_pos still

end Sys2Proof.Machine

namespace Sys2Proof.Machine

open Sys2Proof

/-! ### Ledger and log timers, monitors and power control (R453, R462, R470–R490) -/

section
variable {s : State}

/-! #### Re-reads and merge windows (R453, R462) -/

section
variable {id : Nat} {c : Check} {r : Nat × Nat} (checked : s.ty.check = some c) (due : c.rereads.find? (fun r => r.1 == id) = some r)
include checked due

theorem auditReread_balanced (balanced : deficit id s = 0) : auditReread id s =
    { s with ty := { s.ty with check := some { c with rereads := c.rereads.filter (fun x => x.1 != id) } } } := by
  simp only [auditReread, checked, due, balanced, if_true]

/-- At the third re-read a deficit stands (R453 step 4). -/
theorem auditReread_third (short : deficit id s ≠ 0) (third : 2 ≤ r.2) : auditReread id s = { s with ty := { s.ty with check := some { c with
    rereads := c.rereads.filter (fun x => x.1 != id), outOf := c.outOf ++ [(id, deficit id s)] } } } := by
  simp only [auditReread, checked, due, if_neg short, if_pos third]

theorem auditReread_again (short : deficit id s ≠ 0) (early : r.2 < 2) : auditReread id s = { s with ty := { s.ty with check := some { c with
    rereads := modFirst (fun x => x.1 == id) (fun x => (x.1, x.2 + 1)) c.rereads } } } := by
  simp only [auditReread, checked, due, if_neg short, if_neg (Nat.not_le.mpr early)]

end

section
variable {k : Byte} {u : BitVec 16} {l : Limiter} (opened : s.er.limits.find? (fun l => l.cause == k.toNat && l.unit == u.toNat) = some l)
include opened

theorem rateFlush_open : rateFlush k u s = flushLimit l s := by simp only [rateFlush, opened]

theorem rateFlush_single (single : l.last = none) : rateFlush k u s =
    { s with er := { s.er with limits := s.er.limits.filter (fun x => !(x.cause == l.cause && x.unit == l.unit)) } } := by
  simp only [rateFlush_open opened, flushLimit, single]

/-- The merged occurrences go out as one entry with their number (R462). -/
theorem rateFlush_merged {e : LogEntry} (merged : l.last = some e) : rateFlush k u s =
    noteEntry e.cls e.cause s.er.nextSeq (pushEntry { e with body := e.body ||| BitVec.ofNat 192 (satTo 16 l.count * 2 ^ 16) }
      { s with er := { s.er with limits := s.er.limits.filter (fun x => !(x.cause == l.cause && x.unit == l.unit)) } }) := by
  simp only [rateFlush_open opened, flushLimit, merged]

end

/-! #### Monitors (R470, R473, R474) -/

/-- The state with a thermal monitor's new sample below its warning band, and its OVER (R470, R473). -/
def thermalSampled (m : Fin 88) (v : BitVec 16) (isOver : Bool) (s : State) : State :=
  modMonitor m (fun x => { x with value := v, valid := true, over_ := isOver, warn := false, releasing := x.releasing && !isOver }) s

section
variable {m : Fin 88} {v : BitVec 16} (thermal : m.val < 48) (on : powered s = true) (present : monExcluded m.val s = false)
  (cool : v.toInt < tripThreshold m.val - 50)
include thermal on present cool

/-- Below its warning band a thermal sample has no event but the setting of OVER (R473). -/
theorem monitorSample_thermal : monitorSample m v s =
    if (decide ((s.pm.monitors[m]).limit.toInt < v.toInt) && !(s.pm.monitors[m]).over_) = true then
      pmEvent 6 (logErr .corrected 0x56 .none m.val v.toNat 0 (thermalSampled m v (decide ((s.pm.monitors[m]).limit.toInt < v.toInt)) s))
    else thermalSampled m v (decide ((s.pm.monitors[m]).limit.toInt < v.toInt)) s := by
  have noWarn : decide (tripThreshold m.val - 50 ≤ v.toInt) = false := decide_eq_false (Int.not_le.mpr cool)
  simp only [monitorSample, on, present, thermal, noWarn, thermalSampled, Bool.not_true, Bool.false_and, Bool.false_eq_true, if_false, if_true]

theorem monitorSample_within (within : v.toInt ≤ (s.pm.monitors[m]).limit.toInt) : monitorSample m v s = thermalSampled m v false s := by
  rw [monitorSample_thermal thermal on present cool, decide_eq_false (Int.not_lt.mpr within)]
  exact if_neg Bool.false_ne_true

theorem monitorSample_beyond (beyond : (s.pm.monitors[m]).limit.toInt < v.toInt) (fresh : (s.pm.monitors[m]).over_ = false) :
    monitorSample m v s = pmEvent 6 (logErr .corrected 0x56 .none m.val v.toNat 0 (thermalSampled m v true s)) := by
  rw [monitorSample_thermal thermal on present cool, decide_eq_true beyond, fresh]
  exact if_pos rfl

end

theorem thermalRelease_due {m : Fin 88} (governed : m.val < 47) (pressed : 0 < (s.pm.monitors[m]).press)
    (cool : (s.pm.monitors[m]).value.toInt ≤ (s.pm.monitors[m]).limit.toInt - 30) :
    thermalRelease m s = modMonitor m (fun x => { x with releasing := true, ticks := 0 }) s :=
  if_pos ⟨governed, pressed, cool⟩

/-! #### The bottom of the ladders (R475, R476, R483, R487) -/

/-- At the bottom every stack's rung 4 is under pressure. -/
theorem topRung_atBottom (bottom : atBottom s = true) : topRung s = 4 := by
  have pressed : (List.range 8).any (fun k => decide (0 < stackRung k s)) = true :=
    List.any_eq_true.mpr ⟨0, by decide, by simp only [stackRung, bottom, if_true]; decide⟩
  simp only [topRung, pressed, or_true, if_true]

theorem throttled_atBottom (on : powered s = true) (bottom : atBottom s = true) : throttled s = true := by
  rw [throttled, on, topRung_atBottom bottom]; rfl

/-- A change that ends at the bottom begins throttling, unless the module was throttled before (R490). -/
theorem withLadder_toBottom {f : State → State} (on : powered (f s) = true) (bottom : atBottom (f s) = true) :
    withLadder f s = if throttled s then f s else pmEvent 2 (f s) := by
  simp only [withLadder, throttled_atBottom on bottom]
  cases throttled s <;> rfl

/-- A monitor at its trip threshold drives THERM_TRIP# and forces the cap (R475). -/
theorem thermTripRow_trips {m : Fin 48} {v : BitVec 16} (aux : s.pins.auxValid = true) (on : powered s = true)
    (hot : tripThreshold m.val ≤ v.toInt) :
    thermTripRow m v s =
      let t := modMonitor (Fin.ofNat 88 m.val) (fun x => { x with value := v }) s
      let u := { t with pins := { t.pins with thermTrip := true }, pm := { t.pm with cap := 450, ramping := false, ladder := 44 } }
      logErr .fatal 0x58 .device m.val v.toNat 0 (if throttled t then u else pmEvent 2 u) := by
  have onNow : powered (modMonitor (Fin.ofNat 88 m.val) (fun x => { x with value := v }) s) = true := on
  simp only [thermTripRow, aux, on, onNow, Int.not_lt.mpr hot, Bool.not_true, Bool.false_eq_true, false_and, or_self, if_false]
  refine congrArg _ (withLadder_toBottom on ?_)
  simp only [atBottom, modPm, Bool.or_true]

theorem brakeAssert_released (released : s.pm.brake = false) (on : powered s = true) :
    brakeAssert s =
      let t := { s with pins := { s.pins with pwrBrake := true }, pm := { s.pm with brake := true, cap := 450, ramping := false, ladder := 44 } }
      pmEvent 0 (logErr .corrected 0x57 .none 0 0 0 (if throttled s then t else pmEvent 2 t)) := by
  have onNow : powered { s with pins := { s.pins with pwrBrake := true } } = true := on
  simp only [brakeAssert, onNow, released, Bool.not_true, Bool.or_self, Bool.false_eq_true, if_false]
  exact congrArg (fun t => pmEvent 0 (logErr .corrected 0x57 .none 0 0 0 t)) (withLadder_toBottom on rfl)

/-! #### The power controller's period (R470, R483) -/

/-- The power unit with a new sample of `w` watts (R470). -/
def PowerUnit.sampled (w : Nat) (p : PowerUnit) : PowerUnit := { p with samples := (w :: p.samples).take 10 }

/-- The power unit after the thermal governor's part of a period (R474). -/
def PowerUnit.governed (p : PowerUnit) : PowerUnit := { p with monitors := Vector.ofFn (fun m => governMonitor m.val p.monitors[m]) }

/-- The power unit after the power controller's part of a period with average draw `d`, as the row writes it (R483). -/
def PowerUnit.controlled (d : Nat) (p : PowerUnit) : PowerUnit :=
  if p.cap < d then { p with ladder := min 44 (p.ladder + 1), upTicks := 0 }
  else if 100 * d ≤ 97 * p.cap then
    (if 10 ≤ p.upTicks + 1 then { p with ladder := p.ladder - 1, upTicks := 0 } else { p with upTicks := p.upTicks + 1 })
  else { p with upTicks := 0 }

/-- The power unit after a whole period above the bottom, with average draw `d` (R470, R483). -/
def PowerUnit.ticked (w d : Nat) (p : PowerUnit) : PowerUnit :=
  let up := { p with samples := (w :: p.samples).take 10, monitors := Vector.ofFn (fun m => governMonitor m.val p.monitors[m]) }
  if p.cap < d then { up with ladder := min 44 (p.ladder + 1), upTicks := 0 }
  else if 97 * p.cap < 100 * d then { up with upTicks := 0 }
  else if p.upTicks + 1 < 10 then { up with upTicks := p.upTicks + 1 } else { up with ladder := p.ladder - 1, upTicks := 0 }

/-- The parts of a period, by where the draw stands against the cap and how many periods it has stayed below. -/
theorem governed_controlled (w d : Nat) (p : PowerUnit) : ((p.sampled w).controlled d).governed = p.ticked w d := by
  dsimp only [PowerUnit.ticked, PowerUnit.controlled, PowerUnit.sampled]
  by_cases above : p.cap < d
  · simp only [PowerUnit.governed, above, if_true]
  by_cases near : 97 * p.cap < 100 * d
  · simp only [PowerUnit.governed, above, near, Nat.not_le.mpr near, if_true, if_false]
  by_cases early : p.upTicks + 1 < 10
  · simp only [PowerUnit.governed, above, near, Nat.not_lt.mp near, early, Nat.not_le.mpr early, if_true, if_false]
  · simp only [PowerUnit.governed, above, near, Nat.not_lt.mp near, early, Nat.not_lt.mp early, if_true, if_false]

theorem modPm_congr {f g : PowerUnit → PowerUnit} (same : f s.pm = g s.pm) : modPm f s = modPm g s := by
  simp only [modPm, same]

theorem modPm_ticked (w d : Nat) :
    modPm PowerUnit.governed (modPm (PowerUnit.controlled d) (modPm (·.sampled w) s)) = { s with pm := s.pm.ticked w d } := by
  simp only [modPm, governed_controlled]

theorem withLadder_changed {f : State → State} {t : State} (changed : f s = t) : withLadder f s =
    if throttled s = false ∧ throttled t = true then pmEvent 2 t
    else if throttled s = true ∧ throttled t = false then pmEvent 3 t else t := by
  subst changed
  simp only [withLadder]
  cases throttled s <;> cases throttled (f s) <;> rfl

/-- Above the bottom a period moves the ladder by the average draw, and its 10 µs count while the module is throttled (R483, R490). -/
theorem powerTick_moves (w : Nat) (on : powered s = true) (free : atBottom s = false) :
    powerTick w s =
      let samples := (w :: s.pm.samples).take 10
      let t := { s with pm := s.pm.ticked w (samples.sum / max 1 samples.length) }
      let u := if throttled s = false ∧ throttled t = true then pmEvent 2 t
        else if throttled s = true ∧ throttled t = false then pmEvent 3 t else t
      if throttled u then { u with pm := { u.pm with throttleUs := satAdd u.pm.throttleUs 10 } } else u := by
  extract_lets samples t u
  have freeNow : atBottom (modPm (fun p => { p with samples := (w :: p.samples).take 10 }) s) = false := free
  simp only [powerTick, on, Bool.not_true, Bool.false_eq_true, if_false]
  rw [withLadder_changed (t := t)]
  · rfl
  · refine Eq.trans (congrArg (modPm PowerUnit.governed) (modPm_congr ?_)) (modPm_ticked w (samples.sum / max 1 samples.length))
    simp only [freeNow, Bool.false_eq_true, if_false]
    rfl

/-! #### The ramp, grants and the brake's end (R476, R478–R480, R482, R487) -/

theorem rampStep_rises (rising : s.pm.ramping = true) (free : atBottom s = false) : rampStep s =
    { s with pm := { s.pm with cap := min (capTarget s) (s.pm.cap + 50),
                               ramping := decide (min (capTarget s) (s.pm.cap + 50) < capTarget s) } } :=
  if_pos ⟨rising, by rw [free]; rfl⟩

theorem grantDecrease_due {g : PendingGrant} (pending : s.pm.pendingGrant = some g) (tension : tensionOn s = true) (released : s.pm.brake = false)
    (lower : g.watts ≤ s.pm.grant) (due : grantDue g s = true) : grantDecrease s = takeGrant g.watts s := by
  simp only [grantDecrease, pending, tension, released, lower, due, decide_true, Bool.not_false, Bool.and_self, if_true]

/-- With TENSION a pending grant and the ramp wait for a slot (R479). -/
theorem grantAtOnce_tension (tension : tensionOn s = true) : grantAtOnce s = s := if_pos (by rw [tension]; rfl)

@[simp] theorem tensionOn_pmEvent (k : Nat) : tensionOn (pmEvent k s) = tensionOn s := by
  have raised (t : State) : tensionOn (raise 73 t) = tensionOn t := by simp only [tensionOn, granted, raise_mb]
  simp only [pmEvent]
  split
  · rfl
  · split
    · rfl
    · exact raised _

theorem brakeDeassert_tension (braked : s.pm.brake = true) (tension : tensionOn s = true) : brakeDeassert s =
    pmEvent 1 { s with pins := { s.pins with pwrBrake := false }, pm := { s.pm with brake := false } } := by
  simp only [brakeDeassert, braked, Bool.not_true, Bool.false_eq_true, if_false]
  exact grantAtOnce_tension ((tensionOn_pmEvent 1).trans tension)

theorem grantWatts_inRange {w : Nat} (served : sbServed s = true) (low : 450 ≤ w) (high : w ≤ 1150) :
    grantWatts w s = sbAnswer (.values []) { s with pm := { s.pm with grantW := w } } := by
  have inRange : ¬(w < 450 ∨ 1150 < w) := by omega
  simp only [grantWatts, served, Bool.not_true, Bool.false_eq_true, if_false, if_neg inRange, modPm]

theorem grantWatts_outOfRange {w : Nat} (served : sbServed s = true) (outside : w < 450 ∨ 1150 < w) :
    grantWatts w s = sbAnswer (.error .invalidData) s := by
  simp only [grantWatts, served, Bool.not_true, Bool.false_eq_true, if_false, if_pos outside]

/-- With TENSION a commit is only pending (R478, R479). -/
theorem grantCommit_tension (served : sbServed s = true) (tension : tensionOn s = true) (b : W32) : grantCommit b s =
    sbAnswer (.values []) { s with pm := { s.pm with grantBeat := b, pendingGrant := some ⟨s.pm.grantW, some b⟩ } } := by
  simp only [grantCommit, served, Bool.not_true, Bool.false_eq_true, if_false]
  exact congrArg _ (grantAtOnce_tension tension)

end

/-- Settles O52: what each row's function does under its clause's premises is a lemma above, and `answers_act`, `answers_actAny` and
`answers_sideband` carry it to the row's answer. -/
theorem powerAndMonitors : Obligations.PowerAndMonitors := by
  intro s awake p
  refine ⟨fun l c r checked due => ⟨fun balanced => ?balanced, fun short third => ?third, fun short early => ?again⟩,
    fun k u l opened => ⟨fun single => ?single, fun e merged => ?merged⟩,
    fun m v thermal on present cool => ⟨fun within => ?within, fun beyond fresh => ?beyond⟩,
    fun m governed pressed cool => ?release, fun m v aux on hot => ?trip, ?tick, fun rising free => ?ramp,
    fun g pending tension released lower due => ?decrease, fun released on => ?brake, fun braked tension => ?unbrake,
    fun served => ⟨fun w low high => ?grant, fun w outside => ?noGrant, fun b tension => ?commit⟩⟩
  case balanced => exact answers_act rfl awake (auditReread_balanced checked due balanced)
  case third => exact answers_act rfl awake (auditReread_third checked due short third)
  case again => exact answers_act rfl awake (auditReread_again checked due short early)
  case single => exact answers_act rfl awake (rateFlush_single opened single)
  case merged => exact answers_act rfl awake (rateFlush_merged opened merged)
  case within => exact answers_actAny rfl (monitorSample_within thermal on present cool within)
  case beyond => exact answers_actAny rfl (monitorSample_beyond thermal on present cool beyond fresh)
  case release => exact answers_act rfl awake (thermalRelease_due governed pressed cool)
  case trip => exact answers_actAny rfl (thermTripRow_trips aux on hot)
  case tick =>
    intro w free _ _ _ _ _ _ on
    exact answers_act rfl awake (powerTick_moves w.toNat on free)
  case ramp => exact answers_act rfl awake (rampStep_rises rising free)
  case decrease => exact answers_act rfl awake (grantDecrease_due pending tension released lower due)
  case brake => exact answers_actAny rfl (brakeAssert_released released on)
  case unbrake => exact answers_actAny rfl (brakeDeassert_tension braked tension)
  case grant => exact answers_sideband served rfl (grantWatts_inRange served low high)
  case noGrant => exact answers_sideband served rfl (grantWatts_outOfRange served outside)
  case commit => exact answers_sideband served rfl (grantCommit_tension served tension b)

end Sys2Proof.Machine
